-- ==== Sys2Proof/Word.lean ====
section
/-! DEFINITION. The words of the model: bytes, 64-byte lines, header slots and flits, as the spec's R9, R81, R132 and
R134 lay them out. Bit 0 is the least significant bit throughout (R9). -/

namespace Sys2Proof

/-- One byte. -/
abbrev Byte := BitVec 8

/-- A register, or a doubleword of data (R11). -/
abbrev Word := BitVec 64

/-- The 64 bytes of one line; byte 0 in the least significant bits (R9, R132). -/
abbrev LineData := BitVec 512

/-- The eight POISON marks of a line, one for each 8-byte word (R138). -/
abbrev Poison := BitVec 8

/-- A 16-byte header slot (R134). -/
abbrev Hdr := BitVec 128

/-- A 128-byte flit (R81). -/
abbrev FlitBits := BitVec 1024

/-- A physical address is 52 bits; computed addresses are kept as naturals below `2 ^ 52` (R25). -/
abbrev PA := Nat

end Sys2Proof
end

