-- ==== Sys2Proof/Syntax.lean ====
section
/-! DEFINITION. The commands of the block: one constructor of `Instr` for each row of spec/opcode_table.json, with the
operands the row's step needs. The table gives no bits and no fields, so an operand is what the spec's text says the
step is about: the agent that takes it, and whatever arrives from outside the package (a value written, a flit, a
measurement, an outcome of DRAM or of a PCIe completion). -/

namespace Sys2Proof

/-- The two hubs (R15, R41: hub index 0 and 1). -/
inductive Hub | n | s
deriving DecidableEq, Repr

/-- Hub index of R41. -/
def Hub.idx : Hub → Nat
  | .n => 0
  | .s => 1

/-- The other hub. -/
def Hub.other : Hub → Hub
  | .n => .s
  | .s => .n

/-- Compute die FCD0 to FCD11. -/
abbrev Die := Fin 12

/-- Package-relative hart, die × 20 + core (R23). -/
abbrev Hart := Fin 240

/-- A link end (R76, R478): hub end L = 0 to 7, the feeder end of a die, highway end k of a hub. -/
inductive LinkId
  | hub (h : Hub) (l : Fin 8)
  | die (k : Die)
  | hwy (h : Hub) (k : Fin 2)
deriving DecidableEq, Repr

/-- Who performs an access to the package control space, and in which world (R26, R50, R550). -/
inductive Source
  /-- A hart; its world is its `FCD_WORLD.WORLD` (R314). -/
  | hart (h : Hart)
  /-- The guest die beside a hub, with the WORLD of its request (R226). -/
  | guest (h : Hub) (secure : Bool)
  /-- A Tollhouse, through its own path (R377). -/
  | tollhouse (h : Hub)
  /-- A data-mover channel of a hub (R50). -/
  | mover (h : Hub) (ch : Fin 2048)
  /-- A device below a root port, through the I/O agent, under the port's partition (R463). -/
  | device (h : Hub) (port : Fin 16)
  /-- The foreign host through the endpoint's BAR0 (R50). -/
  | host (h : Hub)
  /-- The baseboard controller through its I3C target port (R50). -/
  | bmc
deriving DecidableEq, Repr

/-- What a register write names: an offset in the package control space (R29), or a CSR of a hart. -/
inductive RegTarget
  | space (off : Nat)
  | csr (h : Hart) (num : Fin 4096)
deriving DecidableEq, Repr

/-- Size of a hart's access in bytes (R248). -/
inductive Size | b1 | b2 | b4 | b8
deriving DecidableEq, Repr

/-- The size in bytes. -/
def Size.bytes : Size → Nat
  | .b1 => 1
  | .b2 => 2
  | .b4 => 4
  | .b8 => 8

/-- Where a load delivers its value: an integer register, sign- or zero-extended, or an element of a vector register
(R248, R512). -/
inductive LoadDest
  | x (rd : Fin 32) (signed : Bool)
  | v (vd : Fin 32) (element : Fin 32)
deriving DecidableEq, Repr

/-- The AMO operations of the RISC-V unprivileged specification, with Zacas compare-and-swap. -/
inductive AmoOp
  | add | swap | and | or | xor | min | max | minu | maxu
  | cas (compare : Word)
deriving DecidableEq, Repr

/-- One slot of the image directory with what the checks of R47 find in it (R46, R47). -/
structure ImageSlot where
  /-- Image length in bytes (R46). -/
  length : Nat
  /-- Security version of the image (R47). -/
  secVersion : Nat
  /-- The signature verifies under the key carried in the image (R47). -/
  signatureOk : Bool
  /-- The digest of that key equals the fused digest (R47). -/
  keyOk : Bool
  /-- Firmware build number carried in the image, reported by TH_IDENTITY_GET. -/
  build : BitVec 32
deriving DecidableEq, Repr

/-- A private transfer on the baseboard controller's port (R52). -/
inductive I3cOp
  /-- A write transfer: all its bytes, the 2-byte page offset first. -/
  | write (bytes : List Byte)
  /-- A read transfer of `count` bytes from the last offset written. -/
  | read (count : Nat)
deriving DecidableEq, Repr

/-- The two I3C target ports (R413, R536). -/
inductive I3cPort | bmc | platform
deriving DecidableEq, Repr

/-- The protocol of a transfer on a target port (R413). -/
inductive I3cMode | i3c | smbus
deriving DecidableEq, Repr

/-- What the receive lanes bring: the oldest flit on the wire from the partner inside the package, or the 1,024 bits
given (from a guest, another package, or in place of a flit that the lanes corrupted). -/
inductive Arrival
  | intact
  | bits (b : FlitBits)
deriving DecidableEq, Repr

/-- A training offer (R101). -/
structure LinkOffer where
  width : Fin 4
  segment : Fin 4
  kind : Fin 4
  agent : Fin 32
deriving DecidableEq, Repr

/-- An agent that takes answers (R163, R258, R309, R423, R432, R490). -/
inductive Agent
  | die (k : Die)
  | io (h : Hub)
  | dm (h : Hub)
  | th (h : Hub)
deriving DecidableEq, Repr

/-- A target of IoRd and IoWr inside the package (R191, R551). -/
inductive IoTarget
  | slice (h : Hub) (s : Fin 32)
  | io (h : Hub)
  | dm (h : Hub)
  | th (h : Hub)
deriving DecidableEq, Repr

/-- A destination that answers MsFlush (R257). -/
inductive FlushTarget
  | home (h : Hub)
  | io (h : Hub)
  | dm (h : Hub)
  | th (h : Hub)
deriving DecidableEq, Repr

/-- What is declared lost and scrubbed: an agent 0 to 13 (R216) or a package (R495). -/
inductive LostTarget
  | agent (a : Fin 14)
  | pkg (k : Fin 8)
deriving DecidableEq, Repr

/-- Outcome of a PCIe completion (R258, R454). -/
inductive TlpStatus | ok | ur | ca | timeout
deriving DecidableEq, Repr

/-- What the protection of a cache array finds when a command reads it (R279, R293): nothing, a single-bit error, which is
corrected, an uncorrectable error in data word `w` of the line, or one in a tag or state entry of the line's set, at `way`. -/
inductive ArrayErr | clean | single | word (w : Fin 8) | tag (way : Fin 16)
deriving DecidableEq, Repr

/-- How many DRAM devices of a burst are in error (R335). -/
inductive EccOutcome
  | clean | oneDevice | twoDevices | manyDevices
deriving DecidableEq, Repr

/-- A bank of a channel (R333). -/
structure BankId where
  rank : Fin 16
  sub : Fin 2
  group : Fin 8
  bank : Fin 4
deriving DecidableEq, Repr

/-- A die with a reference monitor, PLLs and sensors (R367, R418). -/
inductive ClockUnit
  | hub (h : Hub)
  | die (k : Die)
deriving DecidableEq, Repr

/-- Population of one memory channel (R329). -/
structure Dimm where
  /-- 0 none, 1 RDIMM, 2 MRDIMM, 3 not supported. -/
  kind : Fin 4
  /-- 32 Gb devices. -/
  dense : Bool
  /-- Two DIMMs on the channel. -/
  two : Bool
  /-- Two package ranks per DIMM. -/
  twoRanks : Bool
  /-- log2 of the stack height: 0, 1 or 2. -/
  stack : Fin 4
  /-- Transfer rates the SPD contents allow, in MT/s. -/
  speeds : List Nat
  /-- Training of the channel succeeds. -/
  trains : Bool
deriving DecidableEq, Repr

/-- What the board holds at a cold boot: the sixteen channels, the reference and the boot flash. -/
structure Board where
  dimms : List Dimm
  /-- HUB-N's monitor sees the primary reference (R370). -/
  primarySeen : Bool
  /-- The fallback PLL is locked (R368). -/
  fallbackLocked : Bool
deriving DecidableEq, Repr

/-- A block asked in a power attempt (R405, R408). -/
inductive PowerBlock
  | core (h : Hart)
  | die (k : Die)
  | slices (h : Hub)
  | channel (c : Fin 16)
  | port (r : Fin 32)
  | highway (k : Fin 4)
  | engine (e : Fin 32)
  | guest (h : Hub)
  | tollhouse (h : Hub)
deriving DecidableEq, Repr

/-- Answer of a block whose condition lies outside the package (R405 to R407): what the partner or the work allows. -/
inductive PowerAnswer
  | accept
  | delay (code : Byte)
  | refuse (code : Byte)
deriving DecidableEq, Repr

/-- A wake event (R411): the code of its source, and the hub and number of the pin, port or link it came by. -/
structure WakeSource where
  code : Fin 11
  hub : Hub
  index : Fin 32
deriving DecidableEq, Repr

/-- The measurements of one evaluation (R417): watts averaged over the window and over 10 ms. -/
structure PowerMeasure where
  average : Nat
  fast : Nat
deriving DecidableEq, Repr

/-- What the hub's IOMMU answers for one address (R324, R443): a physical address, or a fault. -/
inductive Translation
  | ok (pa : PA)
  | fault
deriving DecidableEq, Repr

/-- Bytes written to one 64-byte block: data, byte enables and poison (R137). -/
structure LineWrite where
  data : LineData
  be : Word
  poison : Poison
deriving DecidableEq, Repr

/-- A memory request from a device below a root port, after the IOMMU (R463). -/
structure DeviceReq where
  /-- The translation; `none` for a translation request, which is refused. -/
  xl : Option Translation
  /-- An MSI write, by the IOMMU's MSI translation. -/
  msi : Bool
  /-- Number of bytes, 1 to 64, within one block. -/
  len : Nat
  write : Option LineWrite
  /-- The Relaxed Ordering attribute (R464). -/
  relaxed : Bool
deriving DecidableEq, Repr

/-- The back-invalidation snoops of a Type 2 device (R460). -/
inductive BiOp | cur | data | inv
deriving DecidableEq, Repr

/-- What the roll call of R483 finds within its time: the members by serial number with their plan digests' agreement,
the links between members as pairs of indices into `serials`, and this package's links with the member at the far
end. -/
structure RollCall where
  /-- Serial numbers of every reachable package, this package's first. -/
  serials : List Nat
  /-- Every plan digest equals this package's. -/
  plansAgree : Bool
  /-- Pairs of members joined by an ACTIVE highway link. -/
  links : List (Nat × Nat)
  /-- For each of this package's four links, the member at its far end. -/
  far : List (Option Nat)
  /-- A package number would change while a partition runs (R484), reported by a member. -/
  numberBlocked : Bool
  /-- Every partition named by R505 is HELD on every member. -/
  heldOk : Bool
  /-- The neighbours' joined groups, as HUB_HOME_GROUP values with PKG by member index (R488). -/
  groups : List (Nat × Word)
  /-- The coordinator found a conflict of the remote groups at another member (R488). -/
  groupsConflict : Bool
  /-- Quarters of each member's joined partition, four bits each, by member index (R496). -/
  quarters : List Nat
  /-- The 1 s limit passed (R484). -/
  timedOut : Bool
deriving DecidableEq, Repr

/-- An event ring: ring r of a hub, or always-on ring a of a hub (R515, R524). -/
inductive RingId
  | ring (h : Hub) (r : Fin 64)
  | ao (h : Hub) (a : Fin 2)
deriving DecidableEq, Repr

/-- A write of the foreign host to the endpoint's configuration space (R465, R469, R473). -/
inductive HostConfig
  | vfEnable (on : Bool) (numVfs : Nat)
  | msixEnable (on : Bool)
  | intxDisable (on : Bool)
  | hdmCommit (on : Bool)
  | cxlMemEnable (on : Bool)
  /-- Tag size that the host has enabled for the endpoint: 0 8-bit, 1 10-bit, 2 14-bit (R468). -/
  | tagSize (code : Fin 3)
deriving DecidableEq, Repr

/-- A general-purpose pin or a wired APLIC source (R321, R322). -/
inductive GpioInput
  | pin (p : Fin 32)
  | source (n : Fin 1024)
deriving DecidableEq, Repr

/-- The commands, in the order of spec/opcode_table.json. -/
inductive Instr
  /-- REGISTER_WRITE (R12): A write to a register or CSR field that has no row of its own takes effect by the field's access code, lock state and world suffix. -/
  | registerWrite (src : Source) (target : RegTarget) (size : Nat) (value : Word)
  /-- STATUS_BIT_CLEAR (R513): A software write of 1 to an RW1C field clears it unless a hardware set in the same cycle wins, which advances the coalescing count. -/
  | statusBitClear (src : Source) (off : Nat) (bit : Fin 64) (setMeets : Bool)
  /-- CNT_CLEAR (R121): A write of CNT_CLEAR = 1 clears the counters of the block that holds the bit. -/
  | cntClear (src : Source) (off : Nat)
  /-- HOME_GROUP_WRITE (R38): A write to HUB_HOME_GROUP_g applies to requests decoded after it, and an invalid QMASK is reported. -/
  | homeGroupWrite (src : Source) (hub : Hub) (g : Fin 32) (value : Word)
  /-- HPW_WRITE (R458): A write to a host-port window completes only when every feeder stop and spur copy holds it, and a window that cannot match is reported. -/
  | hpwWrite (src : Source) (hub : Hub) (w : Fin 64) (sizeHalf : Bool) (value : Word)
  /-- LINK_CAP_WRITE (R119): A write of WIDTH_CAP and SEGMENT is held for the next attempt, or refused with CAP_INVALID. -/
  | linkCapWrite (src : Source) (link : LinkId) (width : Fin 4) (segment : Fin 4)
  /-- LINK_START (R99): START written to a hub link end in OFF or DOWN enters LOCK and clears FAILED_ATTEMPTS. -/
  | linkStart (src : Source) (link : LinkId)
  /-- LINK_RETRAIN (R109): RETRAIN written to an ACTIVE or PARKED end starts a retrain with cause 5, offering RESUME 1. -/
  | linkRetrain (src : Source) (link : LinkId)
  /-- LINK_RESTART (R109): RESTART written to an ACTIVE or PARKED end starts a retrain offering RESUME 0, which begins a new epoch. -/
  | linkRestart (src : Source) (link : LinkId)
  /-- LINK_TAKE_DOWN (R119): TAKE_DOWN written to an end that is neither OFF nor DOWN enters DOWN with DOWN_REASON 1. -/
  | linkTakeDown (src : Source) (link : LinkId)
  /-- TOLLHOUSE_BOOT (R48): On power-good, the HUB-N Tollhouse ROM reads SFDP and the directory, checks slot A then slot B, and starts the firmware or enters recovery. -/
  | tollhouseBoot (slotA slotB : ImageSlot)
  /-- HUB_S_IMAGE_RECEIVED (R48): The HUB-S ROM checks the image received over the causeway against its fuses, starts it and sets FIRMWARE. -/
  | hubSImageReceived (image : ImageSlot)
  /-- LOCKSTEP_MISMATCH (R44): A mismatch between the lockstep cores stops the Tollhouse, records a fall-through event and clears HUB_MILEPOST_TH. -/
  | lockstepMismatch (hub : Hub)
  /-- RING (R55): RING = 1 sets STATE to BUSY and hands a copy of the header and payload to the Tollhouse; while BUSY it is ignored and sets OVERRUN. -/
  | ring (src : Source) (page : Fin 20)
  /-- ABORT (R62): ABORT = 1 while BUSY stops the command at its next safe point with ABORTED if it has changed nothing, and is otherwise ignored. -/
  | abort (src : Source) (page : Fin 20)
  /-- MBX_HEADER_WRITE (R56): A write to the request headers or payload window while STATE is BUSY is ignored and sets OVERRUN. -/
  | mbxHeaderWrite (src : Source) (page : Fin 20) (off : Nat) (size : Nat) (value : Word)
  /-- COMMAND_COMPLETE (R55): The Tollhouse writes the response payload and headers, sets STATE to DONE, LAST_SEQ and HAVE_LAST, and sends the completion interrupt if IRQ was set. -/
  | commandComplete (page : Fin 20)
  /-- COMMAND_TIMEOUT (R63): A command that has not completed by its card's maximum time completes with TIMEOUT and its progress code in DETAIL. -/
  | commandTimeout (page : Fin 20)
  /-- I3C_TRANSFER (R52): An I3C or SMBus private transfer from the baseboard controller writes or reads page 17 in 4-byte units, and any other length is ignored and reported. -/
  | i3cTransfer (op : I3cOp)
  /-- I3C_ADDRESS_MATCH (R413): The SCL-clocked matcher of an I3C target port matches an address header, sets the match flag and starts the port's clocks. -/
  | i3cAddressMatch (port : I3cPort) (mode : I3cMode) (addressed : Bool)
  /-- TH_IDENTITY_GET (R71): Returns the part code, stepping, boot state, variant, serial number, interface version, package and caller partition. -/
  | thIdentityGet (page : Fin 20)
  /-- TH_ECHO_PAYLOAD (R71): Returns the request payload unchanged. -/
  | thEchoPayload (page : Fin 20)
  /-- TH_POOL_QUERY (R553): Returns the total and free indices of each resource type in the named partition's pools on each hub. -/
  | thPoolQuery (page : Fin 20)
  /-- TH_HANDLE_QUERY (R554): Returns the state, world, owner and creation time of the object that a handle names. -/
  | thHandleQuery (page : Fin 20)
  /-- TH_LINK_STATUS_GET (R122): Returns the lane-test, status, epoch, error registers and nine counters of a link end. -/
  | thLinkStatusGet (page : Fin 20)
  /-- TH_LINK_TRAIN (R123): Optionally sets WIDTH_CAP and SEGMENT, then starts, retrains, restarts or takes down a link end and waits for ACTIVE or DOWN. -/
  | thLinkTrain (page : Fin 20)
  /-- TH_SC_LOCK (R289): Locks system-cache ways in the partition's slices and optionally preloads a range into them. -/
  | thScLock (page : Fin 20)
  /-- TH_SC_MAINT (R292): Walks every slice of the partition to clean, evict unlocked lines or evict all lines of the system cache. -/
  | thScMaint (page : Fin 20)
  /-- TH_WORLD_REGION_CREATE (R320): Creates and enables a world region on a hub and in every copy, after the trackers active at the change have completed. -/
  | thWorldRegionCreate (page : Fin 20)
  /-- TH_WORLD_REGION_DESTROY (R318): Disables and destroys a world region at the hub and in every copy. -/
  | thWorldRegionDestroy (page : Fin 20)
  /-- TH_WORLD_CLAIM (R321): Claims a pin, APLIC source, memory channel, engine, root port or guest site for the secure world, or returns it. -/
  | thWorldClaim (page : Fin 20)
  /-- TH_MC_RETAIN_SET (R354): Sets the rank retention mask of every channel of a home group for the next PK5. -/
  | thMcRetainSet (page : Fin 20)
  /-- TH_MC_FREEZE_DUMP (R359): Returns the freeze capture of a memory channel with its queue entries. -/
  | thMcFreezeDump (page : Fin 20)
  /-- TH_MC_RELEASE (R360): Retrains a frozen channel and performs or discards its held writes, then clears FROZEN and sets its milepost. -/
  | thMcRelease (page : Fin 20)
  /-- TH_MC_RETRAIN (R361): Fully retrains a memory channel while requests wait, freezing it with CAUSE 4 if training fails. -/
  | thMcRetrain (page : Fin 20)
  /-- TH_PARTITION_PLAN_SET (R398): Stores a partition plan, and with APPLY_NOW forms every changed partition in state HELD. -/
  | thPartitionPlanSet (page : Fin 20)
  /-- TH_PARTITION_PLAN_GET (R374): Returns the stored partition plan. -/
  | thPartitionPlanGet (page : Fin 20)
  /-- TH_RESET (R399): Resets, holds or releases the package, a partition, a die or guest site, or a core. -/
  | thReset (page : Fin 20)
  /-- TH_CLOCK_SOURCE_SET (R373): Switches every die to the primary or fallback reference and waits for the cause-6 retrains to end. -/
  | thClockSourceSet (page : Fin 20)
  /-- TH_SPLIT_END (R397): Ends the split state when the causeway is ACTIVE, spanning partitions are HELD and no scrub runs; far agents then rejoin. -/
  | thSplitEnd (page : Fin 20)
  /-- TH_PKG_STATE_SET (R419): Sets a partition's or the package's ceiling and the PK5 resume address. -/
  | thPkgStateSet (page : Fin 20)
  /-- TH_POWER_LIMIT_SET (R420): Sets SUSTAINED_W, FAST_W and WINDOW_MS and returns the average power and highest temperature. -/
  | thPowerLimitSet (page : Fin 20)
  /-- TH_CHANNEL_CREATE (R444): Creates a data-mover channel on an engine of the partition, in state created. -/
  | thChannelCreate (page : Fin 20)
  /-- TH_CHANNEL_DESTROY (R445): Stops a channel at once, advances its generation and returns its index once its requests have completed. -/
  | thChannelDestroy (page : Fin 20)
  /-- TH_CHANNEL_DIRTY_LOG (R447): Starts or stops dirty-page logging of a channel into a bitmap. -/
  | thChannelDirtyLog (page : Fin 20)
  /-- TH_CHANNEL_FREEZE (R448): Freezes a channel and returns its save record, or thaws it to its former state. -/
  | thChannelFreeze (page : Fin 20)
  /-- TH_CHANNEL_RESTORE (R449): Loads a checked save record into a created channel, leaving it stopped or in error. -/
  | thChannelRestore (page : Fin 20)
  /-- TH_PORT_CONFIG_SET (R452): Stores the lane-group modes for the next package reset. -/
  | thPortConfigSet (page : Fin 20)
  /-- TH_EP_FUNCTION_CREATE (R475): Creates the endpoint PF or the next VF with its channels, BARs, tag budget and MSI-X vectors. -/
  | thEpFunctionCreate (page : Fin 20)
  /-- TH_EP_FUNCTION_DESTROY (R465): Destroys the highest endpoint function with its window table and channels. -/
  | thEpFunctionDestroy (page : Fin 20)
  /-- TH_EP_LEND_SET (R472): Lends a range of partition memory to the foreign host as CXL.mem, or withdraws it. -/
  | thEpLendSet (page : Fin 20)
  /-- TH_FABRIC_PLAN_SET (R505): Stores the fabric plan, and with APPLY_NOW runs a roll call. -/
  | thFabricPlanSet (page : Fin 20)
  /-- TH_FABRIC_ROUTE_SELECT (R487): Drains the highway routes and switches every member to the named route alternative. -/
  | thFabricRouteSelect (page : Fin 20)
  /-- TH_WAVE_RUN (R498): Starts a waymark wave of package or fabric scope and reports the checks of R503. -/
  | thWaveRun (page : Fin 20)
  /-- TH_EVENT_RING_CREATE (R523): Creates a fall-through or spill event ring and routes records to it. -/
  | thEventRingCreate (page : Fin 20)
  /-- TH_EVENT_RING_DESTROY (R514): Removes an event ring from routing, waits for its lay-by traffic and reroutes records in transit. -/
  | thEventRingDestroy (page : Fin 20)
  /-- TH_EVENT_AO_READ (R515): Takes up to MAX records from an always-on ring. -/
  | thEventAoRead (page : Fin 20)
  /-- FLIT_SEND (R80): At each flit time an ACTIVE transmitter sends a message, control or idle flit carrying ACK, WIDTH and pending toll returns. -/
  | flitSend (link : LinkId)
  /-- FLIT_RECEIVED (R92): A receiver checks a flit's CRC, KIND and WIDTH, applies its ACK, acts on a control word, and delivers an in-order message flit or discards it. -/
  | flitReceived (link : LinkId) (arrival : Arrival)
  /-- RETRY_TIMER_EXPIRY (R93): The retry timer expires in retry wait: RETRY_REQ is sent again, or RETRY_LIMIT is set and a retrain starts. -/
  | retryTimerExpiry (link : LinkId)
  /-- TOLL_RETURN_TIMEOUT (R87): Toll returns that have waited 64 flit times go out in a message flit with every slot empty. -/
  | tollReturnTimeout (link : LinkId)
  /-- CRC_WINDOW (R97): At each 1 ms boundary of the time counter, a link end restarts its CRC failure count. -/
  | crcWindow (link : LinkId)
  /-- LOCK_DONE (R98): An end in LOCK completes lock and deskew and enters OFFER. -/
  | lockDone (link : LinkId)
  /-- OFFER_ACCEPTED (R102): A partner offer received on eight lanes is accepted, and the width and segment are agreed or the attempt fails with reason 3. -/
  | offerAccepted (link : LinkId) (ext : LinkOffer)
  /-- LANE_TEST_DONE (R103): The lane test ends, the results are exchanged and recorded, and the end enters INIT or the attempt fails with reason 4. -/
  | laneTestDone (link : LinkId) (failing : List Nat) (partnerFail : BitVec 4)
  /-- TRAIN_TIMEOUT (R100): TRAIN_TIMEOUT expires and the attempt fails for the current state; after three failures the end enters DOWN. -/
  | trainTimeout (link : LinkId)
  /-- PARTNER_LOCK_SEEN (R547): Training sequences from the partner start the next attempt without counting a failure, or a retrain with cause 4 from ACTIVE or PARKED. -/
  | partnerLockSeen (link : LinkId)
  /-- ACTIVE_STABLE (R100): After 1 ms of ACTIVE without a break, FAILED_ATTEMPTS clears. -/
  | activeStable (link : LinkId)
  /-- PARK_REQUEST (R112): An end with an empty replay buffer and nothing to send sends PARK_REQ. -/
  | parkRequest (link : LinkId)
  /-- PARK_RETRY (R112): 1 µs after an unanswered PARK_REQ, the requester may send PARK_REQ again. -/
  | parkRetry (link : LinkId)
  /-- PARK_EXIT (R113): An end leaves PARKED by entering LOCK with cause 7 and then resumes. -/
  | parkExit (link : LinkId)
  /-- OFFER (R235): The guest's sideband OFFER is checked for agent, width, segment, revision and class. -/
  | offer (hub : Hub) (payload : Word)
  /-- ALLOT (R235): A guest ALLOT sideband message declares one channel's allotment, which is checked against R144. -/
  | allot (hub : Hub) (payload : Word)
  /-- RESULT (R236): The guest's RESULT sideband message is recorded in the PARTNER fields of the spur's lane test. -/
  | result (hub : Hub) (payload : Word)
  /-- PWR_RSP (R241): The guest's PWR_RSP accepts, delays or refuses a power request. -/
  | pwrRsp (hub : Hub) (payload : Word)
  /-- SB_FAULT (R234): A sideband message with another identifier, a reserved SB_OP or nonzero reserved bits is ignored and counted. -/
  | sbFault (hub : Hub) (payload : Word) (vendorOk : Bool)
  /-- PWR_RSP_TIMEOUT (R241): A PWR_REQ left unanswered for 1 ms counts in PWR_NO_ANSWER and is taken as REFUSE 0xFF. -/
  | pwrRspTimeout (hub : Hub)
  /-- MESSAGE_FORWARD (R133): A buffer stage forwards a whole message once it holds the next link's tolls, and frees the receive toll. -/
  | messageForward (link : LinkId) (vc : Fin 6)
  /-- LOAD (R249): A hart load binds its value from the store buffer, L1, L2 or a request, consuming poison by R512. -/
  | load (hart : Hart) (dest : LoadDest) (va : Word) (size : Size) (parity : Bool) (err : ArrayErr)
  /-- STORE (R267): A hart store commits into the store buffer. -/
  | store (hart : Hart) (va : Word) (size : Size) (value : Word)
  /-- STORE_BUFFER_DRAIN (R249): The oldest buffered store is performed once its line is held in E or M, or its NC or IO request is issued. -/
  | storeBufferDrain (hart : Hart)
  /-- AMO (R248): An AMO is performed in the L2 after the line is held in E or M, or faults on NC, IO or I/O pages. -/
  | amo (hart : Hart) (op : AmoOp) (rd : Fin 32) (va : Word) (wide : Bool) (value : Word)
  /-- LR (R248): LR reads a line held in E or M and sets a reservation on the 64-byte line. -/
  | lr (hart : Hart) (rd : Fin 32) (va : Word) (wide : Bool)
  /-- SC (R248): SC stores if the reservation holds, and fails otherwise. -/
  | sc (hart : Hart) (rd : Fin 32) (va : Word) (wide : Bool) (value : Word)
  /-- FENCE (R249): FENCE orders accesses at the points where they count as performed. -/
  | fence (hart : Hart) (pred succ : BitVec 4)
  /-- FENCE_TSO (R248): FENCE.TSO is performed as FENCE rw,rw. -/
  | fenceTso (hart : Hart)
  /-- FENCE_I (R274): FENCE.I discards fetched instructions that have not been executed. -/
  | fenceI (hart : Hart)
  /-- MILESTONE (R254): A milestone orders as FENCE iorw,iorw, sends MsFlush where class 1 needs it, and waits for the covered items of its classes. -/
  | milestone (hart : Hart) (rd rs1 : Fin 32) (rs2 : BitVec 5)
  /-- MILESTONE_TIMEOUT (R264): The milestone timer expires and, once earlier accesses are performed, the milestone retires with status 2. -/
  | milestoneTimeout (hart : Hart)
  /-- INTERRUPT_TAKEN (R265): A hart takes a trap, and a waiting milestone is abandoned to run again after the trap returns. -/
  | interruptTaken (hart : Hart) (cause : Word)
  /-- CBO_CLEAN (R290): CBO.CLEAN applies to the hart's own L2 copy, then sends CmoClean. -/
  | cboClean (hart : Hart) (va : Word)
  /-- CBO_FLUSH (R290): CBO.FLUSH applies to the hart's own L2 copy, then sends CmoCleanInval. -/
  | cboFlush (hart : Hart) (va : Word)
  /-- CBO_INVAL (R290): CBO.INVAL applies to the own copy, then sends CmoInval, or acts as CBO.FLUSH by CBIE. -/
  | cboInval (hart : Hart) (va : Word)
  /-- CBO_ZERO (R290): CBO.ZERO zeroes the line in E or M, obtaining it by RdUnique or CleanUnique first. -/
  | cboZero (hart : Hart) (va : Word)
  /-- PREFETCH_R (R281): prefetch.r issues RdShared and fills the L1D, or is dropped. -/
  | prefetchR (hart : Hart) (va : Word)
  /-- PREFETCH_W (R281): prefetch.w issues RdUnique or CleanUnique, or is dropped. -/
  | prefetchW (hart : Hart) (va : Word)
  /-- PREFETCH_I (R281): prefetch.i issues RdShared and fills the L1I, or is dropped. -/
  | prefetchI (hart : Hart) (va : Word)
  /-- SFENCE_VMA (R305): SFENCE.VMA invalidates matching entries of the current world on the executing hart. -/
  | sfenceVma (hart : Hart) (addr : Option Word) (ident : Option (BitVec 16))
  /-- SINVAL_VMA (R305): SINVAL.VMA invalidates matching entries of the current world on the executing hart. -/
  | sinvalVma (hart : Hart) (addr : Option Word) (ident : Option (BitVec 16))
  /-- HFENCE_VVMA (R305): HFENCE.VVMA invalidates matching virtual entries on the executing hart. -/
  | hfenceVvma (hart : Hart) (addr : Option Word) (ident : Option (BitVec 16))
  /-- HINVAL_VVMA (R305): HINVAL.VVMA invalidates matching virtual entries on the executing hart. -/
  | hinvalVvma (hart : Hart) (addr : Option Word) (ident : Option (BitVec 16))
  /-- HFENCE_GVMA (R305): HFENCE.GVMA invalidates matching G-stage-derived entries on the executing hart. -/
  | hfenceGvma (hart : Hart) (addr : Option Word) (ident : Option (BitVec 16))
  /-- HINVAL_GVMA (R305): HINVAL.GVMA invalidates matching G-stage-derived entries on the executing hart. -/
  | hinvalGvma (hart : Hart) (addr : Option Word) (ident : Option (BitVec 16))
  /-- SFENCE_W_INVAL (R305): SFENCE.W.INVAL orders earlier stores before later invalidations on the executing hart. -/
  | sfenceWInval (hart : Hart)
  /-- SFENCE_INVAL_IR (R305): SFENCE.INVAL.IR orders invalidations before later implicit references on the executing hart. -/
  | sfenceInvalIr (hart : Hart)
  /-- WFI (R401): WFI gates the core clock and enters C1. -/
  | wfi (hart : Hart)
  /-- C3_ENTRY (R401): After C3_DELAY in C1, with C3 enabled and an empty store buffer, the core enters C3 and invalidates its L1s. -/
  | c3Entry (hart : Hart)
  /-- CORE_WAKE (R401): A WFI wake condition returns a core from C1 or C3 to C0. -/
  | coreWake (hart : Hart)
  /-- WORLD_WRITE (R313): An M-mode write of FCD_WORLD waits for earlier accesses to be performed, then changes the hart's world. -/
  | worldWrite (hart : Hart) (value : Word)
  /-- BROADCAST_INVALIDATION_WRITE (R306): A write of FCD_BINV with GO = 1 sends a BcastInval for the scope, waiting while four are outstanding. -/
  | broadcastInvalidationWrite (hart : Hart) (value : Word)
  /-- L2_SETWAY_CLEAN (R291): FCD_L2_SETWAY OP CLEAN writes back a dirty line of one way and set, retiring after its WbAck. -/
  | l2SetwayClean (hart : Hart) (set : Fin 2048) (way : Fin 16)
  /-- L2_SETWAY_EVICT (R291): FCD_L2_SETWAY OP EVICT removes the line of one way and set, retiring after any WbAck. -/
  | l2SetwayEvict (hart : Hart) (set : Fin 2048) (way : Fin 16)
  /-- L2_MISS_RESUME (R278): A miss that waited for an eligible way or a write-back buffer proceeds when a fill completes or a buffer frees. -/
  | l2MissResume (hart : Hart)
  /-- STREAM_PREFETCH (R280): A trained stream issues RdShared with PAGE_HINT 2 for lines ahead of its latest demand access. -/
  | streamPrefetch (hart : Hart)
  /-- RD_SHARED (R181): A home slice serves RdShared from the system cache or memory, or by snooping the responder for a DataFwd. -/
  | rdShared (hub : Hub) (slice : Fin 32) (err : ArrayErr)
  /-- RD_UNIQUE (R181): A home slice serves RdUnique, invalidating other copies and granting E or M by CompData or DataFwd. -/
  | rdUnique (hub : Hub) (slice : Fin 32)
  /-- RD_ONCE (R181): A home slice serves RdOnce by CompData STATE I, cleaning a dirty responder by SnpClean. -/
  | rdOnce (hub : Hub) (slice : Fin 32)
  /-- CLEAN_UNIQUE (R181): A home slice upgrades a sharer by SnpInval to the others and Comp E or M, or serves it as RdUnique when its bit is clear. -/
  | cleanUnique (hub : Hub) (slice : Fin 32)
  /-- WR_UNIQUE (R183): A home slice sends WbGrant and snoops, then merges the WrData into a dirty system-cache line and sends Comp. -/
  | wrUnique (hub : Hub) (slice : Fin 32)
  /-- WR_BACK (R187): A home slice grants or declines a write-back by VSTATE and R207, writes the data and sends WbAck. -/
  | wrBack (hub : Hub) (slice : Fin 32)
  /-- CMO_CLEAN (R183): A home slice cleans a dirty copy to memory and sends Comp once the write is accepted. -/
  | cmoClean (hub : Hub) (slice : Fin 32)
  /-- CMO_INVAL (R183): A home slice invalidates every copy, discarding dirty data, and sends Comp. -/
  | cmoInval (hub : Hub) (slice : Fin 32)
  /-- CMO_CLEAN_INVAL (R183): A home slice writes dirty data to memory, removes every copy and sends Comp. -/
  | cmoCleanInval (hub : Hub) (slice : Fin 32)
  /-- ATOM_ADD (R189): A home slice performs a far add on the target word and returns the old value by CompData. -/
  | atomAdd (hub : Hub) (slice : Fin 32)
  /-- ATOM_SWAP (R189): A home slice performs a far swap and returns the old value. -/
  | atomSwap (hub : Hub) (slice : Fin 32)
  /-- ATOM_CAS (R189): A home slice performs a far compare-and-swap and returns the old value. -/
  | atomCas (hub : Hub) (slice : Fin 32)
  /-- ATOM_MIN_MAX (R189): A home slice performs a far minimum or maximum and returns the old value. -/
  | atomMinMax (hub : Hub) (slice : Fin 32)
  /-- WAY_AVAILABLE (R198): A request waiting for a filter way, or for a back-invalidation of its line, proceeds when a way qualifies or the back-invalidation ends. -/
  | wayAvailable (hub : Hub) (slice : Fin 32)
  /-- DELIVERY_REPORT (R201): A report that a completion was delivered releases the snoops of flows waiting on that handover. -/
  | deliveryReport (hub : Hub) (slice : Fin 32)
  /-- SNP_RESP (R175): A home slice takes a snoop answer without data, updates the filter entry, and completes its flow when every answer is in. -/
  | snpResp (hub : Hub) (slice : Fin 32)
  /-- SNP_RESP_DATA (R182): A home slice takes a snoop answer with dirty data for the flow's merge, system cache or memory. -/
  | snpRespData (hub : Hub) (slice : Fin 32)
  /-- WR_DATA (R184): A home slice takes write, victim or atomic operand data into the tracker's line buffer and merges or writes it. -/
  | wrData (hub : Hub) (slice : Fin 32)
  /-- MEMORY_READ_DONE (R179): Memory data returns to a home slice, which uses it or discards it and completes its flow. -/
  | memoryReadDone (hub : Hub) (slice : Fin 32)
  /-- NEXT_LINE_FETCH (R282): A slice takes a next-line fetch from a neighbouring slice, reads memory and allocates the line clean, or drops it. -/
  | nextLineFetch (hub : Hub) (slice : Fin 32)
  /-- SNP_SHARED (R167): A snooper answers SnpShared from its held state, forwarding data where FWD is 1. -/
  | snpShared (hart : Hart) (err : ArrayErr)
  /-- SNP_UNIQUE (R167): A snooper answers SnpUnique, invalidating and forwarding or returning dirty data. -/
  | snpUnique (hart : Hart)
  /-- SNP_INVAL (R167): A snooper invalidates its copy without data. -/
  | snpInval (hart : Hart)
  /-- SNP_CLEAN (R167): A snooper returns a dirty copy to the home and keeps a clean one. -/
  | snpClean (hart : Hart)
  /-- SNP_BACK (R167): A snooper answers a back-invalidation by giving up its copy with any dirty data. -/
  | snpBack (hart : Hart)
  /-- SNOOP_DISPATCH (R202): The feeder stop passes a snoop to the ring road once earlier answers for the line have been accepted by their L2s. -/
  | snoopDispatch (die : Die)
  /-- SNOOP_PART_ANSWER (R171): An L2 returns its part answer, and once all have answered the feeder stop sends one combined answer. -/
  | snoopPartAnswer (hart : Hart)
  /-- COMP (R163): A Comp reaches its requester, feeder stop, relay or engine and completes, or advances, the transaction under its tag. -/
  | comp (agent : Agent)
  /-- COMP_DATA (R163): CompData reaches the requester, which installs or delivers the data and completes the request. -/
  | compData (agent : Agent)
  /-- DATA_FWD (R164): A DataFwd reaches the requester, which installs the line and completes once the Comp is also in. -/
  | dataFwd (agent : Agent)
  /-- WB_GRANT (R206): A WbGrant reaches the requester, which sends WrData from its buffer. -/
  | wbGrant (agent : Agent)
  /-- WB_ACK (R187): A WbAck reaches the requester, which frees its write-back buffer and tag. -/
  | wbAck (agent : Agent)
  /-- FWD_WAIT_EXPIRY (R214): FWD_WAIT expires after Comp STATE I without DataFwd, and the request completes poisoned or as an error. -/
  | fwdWaitExpiry (die : Die) (tag : BitVec 12)
  /-- REQ_LIMIT_EXPIRY (R214): REQ_LIMIT expires, and the request completes as an error with its tag quarantined. -/
  | reqLimitExpiry (die : Die) (tag : BitVec 12)
  /-- ANSWER_TIMEOUT (R209): A home's answer timer expires, and it synthesises the answer or asks for the die or package to be declared lost. -/
  | answerTimeout (hub : Hub) (slice : Fin 32) (tracker : Nat) (node : BitVec 8)
  /-- PIO_TIMEOUT (R233): An IoRd or MsFlush delivered to a guest that is not answered within GUEST_ANSWER gets Comp STATUS ERROR and an orphan entry. -/
  | pioTimeout (hub : Hub) (srcNode : BitVec 8) (tag : BitVec 12)
  /-- LOST_DRAIN_DONE (R219): Once the lost agent's earlier messages have arrived or been dropped, the slices synthesise its answers, drop its waiting requests and start the scrub. -/
  | lostDrainDone (hub : Hub) (target : LostTarget)
  /-- SCRUB_DONE (R221): A hub's filter scrub for a lost agent or package ends, clears its SCRUB bit and raises a KIND 9 record. -/
  | scrubDone (hub : Hub) (target : LostTarget)
  /-- AGENT_REJOIN (R383): A lost agent whose link is in a new epoch, whose scrubs are clear and which firmware has admitted rejoins, and its cores are released or REJOIN is sent. -/
  | agentRejoin (agent : Fin 14)
  /-- IO_WR (R257): A posted IoWr reaches its destination and is performed, or discarded and counted as a lost write. -/
  | ioWr (target : IoTarget)
  /-- IO_RD (R191): An IoRd reaches its target and is answered by CompData or Comp STATUS ERROR. -/
  | ioRd (target : IoTarget)
  /-- MS_FLUSH (R257): A destination answers MsFlush with Comp after earlier IoWr from the source, carrying LOST_COUNT and STATUS. -/
  | msFlush (target : FlushTarget)
  /-- FLUSH_READ_DONE (R258): The zero-length flush read completes or times out, confirming or discarding the window's writes. -/
  | flushReadDone (hub : Hub) (w : Fin 64) (result : TlpStatus)
  /-- MGT_MSG (R141): A Tollhouse receives an MgtMsg from another Tollhouse; one to another node is dropped. -/
  | mgtMsg (hub : Hub)
  /-- BCAST_INVAL (R309): A relay takes a BcastInval and sends copies to the dies of the partition and to other relays. -/
  | bcastInval (hub : Hub)
  /-- BCAST_INVAL_COPY (R310): A compute die passes an invalidation copy to all its harts over the ring road. -/
  | bcastInvalCopy (die : Die)
  /-- HART_INVAL_ACK (R310): A hart acknowledges once the affected accesses are performed, and the die sends Comp when all 20 have. -/
  | hartInvalAck (hart : Hart)
  /-- RELAY_TIMEOUT (R311): A relay's wait for a die, the other relay or a remote package expires, and the dies behind it count as unable to acknowledge. -/
  | relayTimeout (hub : Hub) (op : Nat) (target : BitVec 8)
  /-- MC_READ (R339): A channel queues a read, answering from a queued write or with poison when its milepost is clear. -/
  | mcRead (hub : Hub) (chan : Fin 8)
  /-- MC_WRITE (R340): A channel accepts a write into its write queue, merging it with a queued write, or refuses it while its milepost is clear. -/
  | mcWrite (hub : Hub) (chan : Fin 8)
  /-- MC_WRITE_ACCEPT (R341): A home's write is accepted into a channel write queue, which releases a waiting CMO or flow Comp. -/
  | mcWriteAccept (hub : Hub) (slice : Fin 32)
  /-- MC_COMMAND_CHOICE (R344): When the channel can issue, it chooses a read or write by urgency, row hits, age and drain mode. -/
  | mcCommandChoice (hub : Hub) (chan : Fin 8) (allowed : List Nat)
  /-- MC_READ_DATA (R336): A DRAM read returns, is corrected and rewritten, passes poison, or freezes the channel. -/
  | mcReadData (hub : Hub) (chan : Fin 8) (ecc : EccOutcome) (syndrome : Hdr)
  /-- URGENCY_RAISE (R343): A queued read's age reaches 5T, 7.5T or 10T and its urgency rises. -/
  | urgencyRaise (hub : Hub) (chan : Fin 8) (entry : Nat)
  /-- OPEN_TIMER_EXPIRY (R346): An open row with no access for OPEN_TIMER closes. -/
  | openTimerExpiry (hub : Hub) (chan : Fin 8) (bank : BankId)
  /-- REFRESH_DUE (R347): A rank's refresh falls due and is issued or postponed up to its limit. -/
  | refreshDue (hub : Hub) (chan : Fin 8) (rank : Fin 16)
  /-- MR4_POLL (R347): Every 16 ms the channel reads MR4 of each rank and sets the refresh interval. -/
  | mr4Poll (hub : Hub) (chan : Fin 8) (doubled : Bool)
  /-- RETRAINING_PAUSE (R349): At its offset in each INTERVAL, the channel pauses to run the DQS oscillators and update its delays. -/
  | retrainingPause (hub : Hub) (chan : Fin 8) (drift : Bool) (duration : Fin 101)
  /-- PATROL_SCRUB (R338): The patrol scrub reads a line in an idle slot, corrects it or freezes the channel. -/
  | patrolScrub (hub : Hub) (chan : Fin 8) (line : Nat) (ecc : EccOutcome) (syndrome : Hdr)
  /-- ALERT_N (R355): A command and address parity error reported through ALERT_n freezes the channel with CAUSE 3. -/
  | alertN (hub : Hub) (chan : Fin 8)
  /-- CHANNEL_FILL_DONE (R332): The zero fill of a channel ends and its milepost sets. -/
  | channelFillDone (hub : Hub) (chan : Fin 8)
  /-- REF_LOST (R367): A die's monitor declares the reference lost, its PLLs enter hold-over and REF_LOST is recorded. -/
  | refLost (unit : ClockUnit)
  /-- REFERENCE_SWITCH (R368): The HUB-N Tollhouse switches every die to the fallback reference and the links retrain with cause 6. -/
  | referenceSwitch
  /-- HOLDOVER_EXPIRED (R369): 10 ms of hold-over pass without a switch, and the die sets HOLDOVER_EXPIRED. -/
  | holdoverExpired (unit : ClockUnit)
  /-- PRIMARY_OK_TIMER (R367): The reference has met both limits for 100 ms, and PRIMARY_OK sets. -/
  | primaryOkTimer (unit : ClockUnit)
  /-- PLL_UNLOCK (R371): A PLL loses lock with a good reference and stops its clocks, failing any link it serves. -/
  | pllUnlock (unit : ClockUnit) (link : Option LinkId)
  /-- AO_PWRGOOD (R529): AO_PWRGOOD rises, the always-on islands start and HUB-N asserts PWR_EN_MAIN. -/
  | aoPwrgood
  /-- PWRGOOD (R529): PWRGOOD rises and HUB-N asserts PWR_EN_CORE. -/
  | pwrgood
  /-- PWRGOOD_TIMEOUT (R530): PWRGOOD has not arrived within 100 ms, and PWR_EN_MAIN is deasserted. -/
  | pwrgoodTimeout
  /-- PWRGOOD_FALL (R531): PWRGOOD falls with PWR_EN_MAIN asserted: clocks stop, the enables drop and a cold reset follows. -/
  | pwrgoodFall
  /-- COLD_RESET_RELEASE (R529): 2 ms after PWR_EN_CORE, with COLD_RST_N high, package cold reset is released and cold boot begins. -/
  | coldResetRelease
  /-- COLD_RST_N (R535): A low pulse of at least 10 µs on COLD_RST_N requests package cold reset and releases the SPI lands. -/
  | coldRstN (level : Bool) (lowMicros : Nat)
  /-- WARM_RST_N (R535): A low pulse on WARM_RST_N requests package warm reset, waking the package first from PK3 or PK5. -/
  | warmRstN (lowMicros : Nat)
  /-- PACKAGE_COLD_RESET (R375): The package leaves cold reset: boot, causeway, plan check, die release, training and partition formation. -/
  | packageColdReset (board : Board)
  /-- PACKAGE_WARM_RESET (R376): A package warm reset drains the cores, writes dirty system-cache lines and resets all but DRAM contents and always-on state. -/
  | packageWarmReset
  /-- EVACUATION_DONE (R379): A planned die reset's evacuation ends and the Tollhouse takes the feeder down and holds the die in reset. -/
  | evacuationDone (die : Die)
  /-- EVACUATION_TIMEOUT (R380): The evacuation has not ended within 50 ms: the cores resume and TH_RESET returns REFUSED. -/
  | evacuationTimeout (die : Die)
  /-- RESET_HOLD_EXPIRY (R379): The 10 µs reset hold of a die or guest site ends and it is released with its cores held. -/
  | resetHoldExpiry (agent : Fin 14)
  /-- CORE_DRAIN_TIMEOUT (R270): A core warm reset's 4 µs drain ends and the remaining buffered stores are discarded and counted. -/
  | coreDrainTimeout (hart : Hart) (lastDrain : Fin 401)
  /-- PARTITION_RELEASE (R390): When the channels of the reset-vector group and the partition's rings are ready, the loader is written and the cores are released. -/
  | partitionRelease (part : Fin 4)
  /-- GUEST_RESET (R238): A write of SPUR_GUEST_CTRL.RESET drives the site's reset land and holds or releases the guest. -/
  | guestReset (src : Source) (hub : Hub) (hold : Bool)
  /-- GST_PG_FALL (R533): GST_x_PG falls while RESET is 0, and the hub sets RESET within 10 µs. -/
  | gstPgFall (hub : Hub)
  /-- PK1_ENTRY (R403): With every core in C1 or C3 and no message in flight, the package enters PK1 and asks an assigned guest with TARGET 1. -/
  | pk1Entry
  /-- PK1_EXIT (R400): The first message or wake event takes the package out of PK1. -/
  | pk1Exit
  /-- POWER_ATTEMPT_START (R404): After IDLE_DWELL with a target of PK3 or PK5, the power controller asks the blocks of rank 1. -/
  | powerAttemptStart
  /-- BLOCK_ANSWER (R405): A block accepts, delays or refuses; a full rank moves the attempt to the next rank or commits it. -/
  | blockAnswer (block : PowerBlock) (answer : PowerAnswer)
  /-- GUEST_DELAY_EXPIRY (R405): A guest's stated delay passes and it is asked again. -/
  | guestDelayExpiry (hub : Hub)
  /-- ENTRY_LIMIT_EXPIRY (R408): A delay is still outstanding when ENTRY_LIMIT passes, and the attempt is aborted as timed out. -/
  | entryLimitExpiry
  /-- RETRY_INTERVAL_EXPIRY (R404): RETRY_INTERVAL passes after a failed attempt, allowing the next attempt. -/
  | retryIntervalExpiry
  /-- WAKE_WINDOW_END (R412): Six always-on cycles after commit, level sources are sampled and an asserted one starts exit at once. -/
  | wakeWindowEnd (levels : List (Fin 11))
  /-- WAKE_EVENT (R411): An enabled wake source aborts an attempt or starts the exit from PK3 or PK5. -/
  | wakeEvent (source : WakeSource)
  /-- PWR_EN_MAIN_OFF (R532): 1 ms after PWR_EN_CORE drops at PK5 commit, PWR_EN_MAIN is deasserted. -/
  | pwrEnMainOff
  /-- HIGHWAY_EXIT_REPEAT (R412): A highway end that signalled exit and got no answer within 100 µs signals again. -/
  | highwayExitRepeat (hub : Hub) (k : Fin 2)
  /-- GRANT_EVALUATION (R416): Every 100 µs the controller measures power and sets each core's grant from PERF_REQ, the power limits and the thermal cap. -/
  | grantEvaluation (measure : PowerMeasure)
  /-- THERMAL_SAMPLE (R539): A junction temperature sample lowers or raises the thermal cap, or trips the package at 155 °C. -/
  | thermalSample (unit : ClockUnit) (celsius : Int)
  /-- DOORBELL (R427): A write of DM_CH_DOORBELL stores TAIL, or fails the channel with DOORBELL_OVERRUN. -/
  | doorbell (src : Source) (hub : Hub) (chan : Fin 2048) (tail : BitVec 32)
  /-- STOP (R435): DM_CH_CTRL.STOP asks a running channel to stop after its issued requests complete. -/
  | stop (src : Source) (hub : Hub) (chan : Fin 2048)
  /-- RUN (R435): DM_CH_CTRL.RUN starts a created channel or resumes a stopped one. -/
  | run (src : Source) (hub : Hub) (chan : Fin 2048)
  /-- RESTART (R435): DM_CH_CTRL.RESTART runs the descriptor at HEAD again from byte 0 in a channel in error. -/
  | restart (src : Source) (hub : Hub) (chan : Fin 2048)
  /-- SKIP (R435): DM_CH_CTRL.SKIP advances HEAD past the failed descriptor without a record. -/
  | skip (src : Source) (hub : Hub) (chan : Fin 2048)
  /-- DM_RING_WRITE (R427): A write of DM_CH_RING takes effect in state created and is ignored and reported otherwise. -/
  | dmRingWrite (src : Source) (hub : Hub) (chan : Fin 2048) (value : Word)
  /-- CHANNEL_STOPPED (R435): A stopping channel's issued requests complete and it enters stopped. -/
  | channelStopped (hub : Hub) (chan : Fin 2048)
  /-- STRETCH (R422): An engine serves one stretch of a channel's descriptor, logging dirty pages and issuing line reads and writes. -/
  | stretch (hub : Hub) (chan : Fin 2048) (xl : List Translation)
  /-- BULK_PORT_GRANT (R424): At each line boundary the arbiter grants the bulk port to the highest-ranked requesting engine. -/
  | bulkPortGrant (hub : Hub) (requesting : BitVec 16)
  /-- DESCRIPTOR_COMPLETE (R432): Once every write of a descriptor has reached its end point, the channel writes the record, advances HEAD and sends the MSI. -/
  | descriptorComplete (hub : Hub) (chan : Fin 2048) (xl : List Translation)
  /-- ENGINE_DOWN (R438): An engine's milepost clears and its running and stopped channels enter in error. -/
  | engineDown (hub : Hub) (engine : Fin 16)
  /-- DEVICE_REQUEST (R463): A memory request from a device below a root port is translated by the IOMMU and served as RdOnce, WrUnique, peer traffic or MSI, or refused. -/
  | deviceRequest (hub : Hub) (port : Fin 16) (req : DeviceReq)
  /-- DL_ACTIVE (R453): A root port's link reaches DL_Active and its milepost sets. -/
  | dlActive (hub : Hub) (port : Fin 16)
  /-- DL_DOWN (R456): A root port's link goes down and outstanding IoRd get errors while IoWr are lost. -/
  | dlDown (hub : Hub) (port : Fin 16)
  /-- BI_SNOOP (R460): A Type 2 device's BISnp is served as a CMO at the line's home and answered with BIRsp. -/
  | biSnoop (hub : Hub) (port : Fin 16) (op : BiOp) (pa : PA)
  /-- CXL_CACHE_REQUEST (R461): A CXL.cache read is served as RdOnce with GO-I, and a write as WrUnique. -/
  | cxlCacheRequest (hub : Hub) (port : Fin 16) (pa : PA) (write : Option LineWrite)
  /-- CXL_MEM_REQUEST (R473): A MemRd or MemWr from the foreign host on lent memory is served as RdOnce or WrUnique. -/
  | cxlMemRequest (hub : Hub) (dpa : Nat) (write : Option LineWrite)
  /-- BAR2_TLP (R470): A BAR2 TLP is translated whole by the active window table and served as IoRd or IoWr, or refused. -/
  | bar2Tlp (hub : Hub) (fn : Fin 256) (off : Nat) (len : Nat) (write : Option (List LineWrite))
  /-- COMMIT (R471): EP_WIN_COMMIT.COMMIT checks the staged entries and copies them to the active table. -/
  | commit (src : Source) (hub : Hub) (fn : Fin 256)
  /-- COMMIT_DONE (R471): Once every MsFlush answer and earlier read of the old mapping is in, PENDING clears and RESULT becomes 1. -/
  | commitDone (hub : Hub) (fn : Fin 256)
  /-- ACTIVE_ENTRY_WRITE (R471): A write to an active window entry is ignored and counted in ACT_WRITES. -/
  | activeEntryWrite (src : Source) (hub : Hub) (fn : Fin 256) (entry : Fin 64)
  /-- VF_FLR (R474): An FLR of a VF resets its configuration and returns its channels to created. -/
  | vfFlr (hub : Hub) (fn : Fin 256)
  /-- PF_RESET (R474): An FLR of the PF, hot reset, link down or PERST# resets every function and clears VF Enable. -/
  | pfReset (hub : Hub) (linkDown : Bool)
  /-- ROLL_CALL (R483): The packages exchange identity over their highway links, and the coordinator numbers them and sends routes and groups. -/
  | rollCall (found : RollCall)
  /-- ROLL_CALL_TIMEOUT (R484): A roll call that has not finished within 1 s fails, and each package runs alone. -/
  | rollCallTimeout
  /-- ROUTE_DRAIN_DONE (R487): When every highway buffer is empty, every hub switches ALT and releases local traffic. -/
  | routeDrainDone
  /-- ROUTE_DRAIN_TIMEOUT (R487): A route drain that has not ended within 5 ms keeps the old alternative. -/
  | routeDrainTimeout
  /-- PROXY_REQUEST (R490): The highway proxy takes a request for a neighbour's line and re-issues it under its own tag. -/
  | proxyRequest (hub : Hub)
  /-- PROXY_SNOOP (R492): The proxy sends copies of a remote snoop to the partition's caching agents and combines their answers. -/
  | proxySnoop (hub : Hub)
  /-- WAYMARK (R500): A link end receives a Waymark, records its counts and sends its own Waymark if it has not. -/
  | waymark (link : LinkId)
  /-- WAVE_LIMIT_EXPIRY (R503): A wave's time limit passes: unrecorded directions are UNREACHED and the checks are made. -/
  | waveLimitExpiry
  /-- EVENT_RECORD (R514): An event record arrives at the ring that routing selects, discarding the oldest if the ring is full. -/
  | eventRecord (hub : Hub)
  /-- TAKE (R518): HUB_EVR_CTRL.TAKE moves the two oldest records into the window and may resend the MSI. -/
  | take (src : Source) (ring : RingId)
  /-- LAYBY_SPILL (R517): A spill ring moves its two oldest tail records to the lay-by, or loses them if the write fails. -/
  | laybySpill (hub : Hub) (r : Fin 64) (writeOk : Bool)
  /-- LAYBY_RETURN (R517): A spill ring reads the oldest lay-by line back to its head, or loses it if it reads back poisoned. -/
  | laybyReturn (hub : Hub) (r : Fin 64) (readOk : Bool)
  /-- INSTRUCTION_FETCH (R512): A hart fetches an instruction through its ITLB and L1I, missing to the L2 by RdShared, and an executed fetch of a poisoned word takes the hardware-error exception. -/
  | instructionFetch (hart : Hart) (va : Word) (parity : Bool) (err : ArrayErr)
  /-- PCIE_COMPLETION (R459): A completion TLP arrives at a root port or the endpoint for an earlier MRd or configuration request and is returned as CompData, Comp or data-mover read data. -/
  | pcieCompletion (hub : Hub) (port : Option (Fin 16)) (tag : Nat) (status : TlpStatus) (data : LineData)
  /-- COMPLETION_TIMEOUT (R454): The PCIe completion timeout of a non-posted request at a root port or the endpoint expires, answering the IoRd with an error or failing the descriptor with ACCESS_ERROR. -/
  | completionTimeout (hub : Hub) (port : Option (Fin 16)) (tag : Nat)
  /-- HOST_CONFIG_WRITE (R465): The foreign host writes the endpoint's configuration space, setting VF Enable, NumVFs, MSI-X Enable, Interrupt Disable or an HDM decoder commit. -/
  | hostConfigWrite (hub : Hub) (item : HostConfig)
  /-- ENDPOINT_LINK_UP (R469): The endpoint link reaches DL_Active, LINK_UP sets, and Assert_INTA is resent while the level is 1. -/
  | endpointLinkUp (hub : Hub)
  /-- GPIO_PIN_CHANGE (R321): A general-purpose input pin or wired APLIC source changes and the APLIC sends an MSI through its partition or secure source. -/
  | gpioPinChange (hub : Hub) (input : GpioInput) (level : Bool)
  /-- AO_PWRGOOD_FALL (R534): AO_PWRGOOD falls: outputs go to high impedance and the always-on state, plan and fall-through rings are lost. -/
  | aoPwrgoodFall
  /-- UNDIRECTED_DIE_RESET (R381): A compute die is reset without firmware's direction, holds its cores by R378 and its feeder end enters LOCK. -/
  | undirectedDieReset (die : Die)
deriving DecidableEq, Repr

end Sys2Proof
end

