-- ==== Sys2Proof/Machine/Operands.lean ====
section
/-! DEFINITION. The forms that data takes on the fabric: bit fields, header slots and opcodes (R134 to R140), flits, control
words and their CRC (R81 to R89), node IDs (R18), lines and their bytes (R132, R137, R138), and the address hashes
(R40 to R42). -/

namespace Sys2Proof.Machine

/-! ## Bit fields -/

/-- Bits `[hi:lo]` of a number (R9). -/
def bitsOf (v hi lo : Nat) : Nat := (v >>> lo) % 2 ^ (hi + 1 - lo)

/-- A value placed at bits `[hi:lo]`, cut to the field's width. -/
def place (v hi lo : Nat) : Nat := (v % 2 ^ (hi + 1 - lo)) * 2 ^ lo

/-- A number with bits `[hi:lo]` replaced. -/
def putBits (w hi lo v : Nat) : Nat := w - place (bitsOf w hi lo) hi lo + place v hi lo

/-- Bit `i` of a number. -/
def bitOf (v i : Nat) : Bool := (v >>> i) % 2 == 1

/-- A Boolean as a bit. -/
def b2n (b : Bool) : Nat := if b then 1 else 0

/-- Number of set bits among the low `n`. -/
def popcount (n v : Nat) : Nat := ((List.range n).filter fun i => bitOf v i).length

/-- Little-endian number of a list of bytes (R9). -/
def bytesToNat : List Byte → Nat
  | [] => 0
  | b :: r => b.toNat + 256 * bytesToNat r

/-- The low `n` bytes of a number, least significant first (R9). -/
def natToBytes : Nat → Nat → List Byte
  | 0, _ => []
  | n + 1, v => BitVec.ofNat 8 v :: natToBytes n (v / 256)

/-! ## Nodes (R18) -/

/-- Node ID of an agent of a package. -/
def nodeId (pkg agent : Nat) : Nat := pkg % 8 * 32 + agent % 32

def nodePkg (n : Nat) : Nat := n / 32 % 8
def nodeAgent (n : Nat) : Nat := n % 32

/-- Agent numbers of a hub's agents. -/
def agHome (h : Hub) : Nat := 16 + h.idx
def agIo (h : Hub) : Nat := 18 + h.idx
def agDm (h : Hub) : Nat := 20 + h.idx
def agTh (h : Hub) : Nat := 22 + h.idx
/-- Agent number of the guest beside a hub. -/
def agGuest (h : Hub) : Nat := 12 + h.idx

/-- Reserved agent numbers (R18). -/
def agentReserved (a : Nat) : Bool := a == 14 || a == 15 || decide (24 ≤ a)

/-- Hub of index 0 or 1. -/
def hubOf (i : Nat) : Hub := if i = 0 then .n else .s

/-- Hub whose feeder or spur serves an agent, or that carries it (R15, R18). -/
def agentHub (a : Nat) : Hub := if a < 12 then hubOf (a / 6) else hubOf (a % 2)

/-- Hub of a compute die (R15). -/
def dieHub (k : Nat) : Hub := hubOf (k / 6)

/-- Quarter of a compute die: 0 NW, 1 NE, 2 SW, 3 SE (R15). -/
def dieQuarter (k : Nat) : Nat := k / 3

/-- The link end of a hub that faces an agent's die: a feeder port or the spur (R76). -/
def hubEnd (a : Nat) : LinkId :=
  if a < 12 then .hub (dieHub a) ⟨a % 6, by omega⟩ else .hub (hubOf (a % 2)) 6

/-! ## Channels and opcodes (R125, R140) -/

abbrev vcReq : Nat := 0
abbrev vcSnp : Nat := 1
abbrev vcRsp : Nat := 2
abbrev vcDat : Nat := 3
abbrev vcPio : Nat := 4
abbrev vcMgt : Nat := 5

abbrev opRdShared : Nat := 0x01
abbrev opRdUnique : Nat := 0x02
abbrev opRdOnce : Nat := 0x03
abbrev opCleanUnique : Nat := 0x04
abbrev opWrUnique : Nat := 0x05
abbrev opWrBack : Nat := 0x06
abbrev opCmoClean : Nat := 0x08
abbrev opCmoInval : Nat := 0x09
abbrev opCmoCleanInval : Nat := 0x0A
abbrev opAtomAdd : Nat := 0x10
abbrev opAtomSwap : Nat := 0x11
abbrev opAtomCas : Nat := 0x12
abbrev opAtomMinMax : Nat := 0x13

abbrev opSnpShared : Nat := 0x01
abbrev opSnpUnique : Nat := 0x02
abbrev opSnpInval : Nat := 0x03
abbrev opSnpClean : Nat := 0x04
abbrev opSnpBack : Nat := 0x05

abbrev opComp : Nat := 0x01
abbrev opSnpResp : Nat := 0x02
abbrev opWbGrant : Nat := 0x03
abbrev opWbAck : Nat := 0x04

abbrev opCompData : Nat := 0x01
abbrev opDataFwd : Nat := 0x02
abbrev opWrData : Nat := 0x03
abbrev opSnpRespData : Nat := 0x04

abbrev opIoRd : Nat := 0x01
abbrev opIoWr : Nat := 0x02
abbrev opMsFlush : Nat := 0x03

abbrev opMgtMsg : Nat := 0x01
abbrev opBcastInval : Nat := 0x02
abbrev opWaymark : Nat := 0x03

/-- State codes of R136. -/
abbrev stI : Nat := 0
abbrev stS : Nat := 1
abbrev stF : Nat := 2
abbrev stE : Nat := 3
abbrev stO : Nat := 4
abbrev stM : Nat := 5

/-- STATUS codes of a response (R134). -/
abbrev stsOk : Nat := 0
abbrev stsError : Nat := 1
abbrev stsLost : Nat := 2

/-- Dirty states: M and O (R155 to R157). -/
def stDirty (s : Nat) : Bool := s == 5 || s == 4

/-- Far atomics. -/
def isAtomic (op : Nat) : Bool := op == 0x10 || op == 0x11 || op == 0x12 || op == 0x13

/-- Is the opcode defined on its channel (R140)? -/
def opDefined (vc op : Nat) : Bool :=
  match vc with
  | 0 => (decide (1 ≤ op ∧ op ≤ 6)) || op == 8 || op == 9 || op == 10 || isAtomic op
  | 1 => decide (1 ≤ op ∧ op ≤ 5)
  | 2 => decide (1 ≤ op ∧ op ≤ 4)
  | 3 => decide (1 ≤ op ∧ op ≤ 4)
  | 4 => decide (1 ≤ op ∧ op ≤ 3)
  | 5 => decide (1 ≤ op ∧ op ≤ 3)
  | _ => false

/-- Does a message of this channel and opcode carry four data slots (R125, R140)? -/
def hasData (vc op : Nat) : Bool := vc == 3 || (vc == 4 && op == 2) || (vc == 5 && op == 1)

/-! ## Header slots (R134) -/

/-- Bits `[hi:lo]` of a header slot. -/
def hBits (h : Hdr) (hi lo : Nat) : Nat := bitsOf h.toNat hi lo

def hVc (h : Hdr) : Nat := hBits h 2 0
def hOp (h : Hdr) : Nat := hBits h 7 3
def hWorld (h : Hdr) : Bool := bitOf h.toNat 8
def hDst (h : Hdr) : Nat := hBits h 16 9
def hSrc (h : Hdr) : Nat := hBits h 24 17
def hTag (h : Hdr) : Nat := hBits h 36 25
/-- ADDR of a REQ or SNP: the line number PA[51:6]. -/
def hLine (h : Hdr) : Nat := hBits h 85 40
def hPageHint (h : Hdr) : Nat := hBits h 87 86
def hFull (h : Hdr) : Bool := bitOf h.toNat 88
def hMin (h : Hdr) : Bool := bitOf h.toNat 89
def hSigned (h : Hdr) : Bool := bitOf h.toNat 90
def hVstate (h : Hdr) : Nat := hBits h 93 91
def hReuse (h : Hdr) : Nat := hBits h 95 94
def hOff (h : Hdr) : Nat := hBits h 101 96
def snpHome (h : Hdr) : Nat := hBits h 93 86
def snpSlice (h : Hdr) : Nat := hBits h 98 94
def snpFwd (h : Hdr) : Bool := bitOf h.toNat 99
/-- STATUS and STATE of RSP and DAT. -/
def hStatus (h : Hdr) : Nat := hBits h 41 40
def hState (h : Hdr) : Nat := hBits h 44 42
def rspFwd (h : Hdr) : Bool := bitOf h.toNat 45
def rspReqNode (h : Hdr) : Nat := hBits h 55 48
def rspSlice (h : Hdr) : Nat := hBits h 60 56
def rspLost (h : Hdr) : Nat := hBits h 79 64
def datSlice (h : Hdr) : Nat := hBits h 49 45
def datPoison (h : Hdr) : Poison := BitVec.ofNat 8 (hBits h 63 56)
def datBe (h : Hdr) : Word := BitVec.ofNat 64 (hBits h 127 64)
/-- ADDR, LEN, CLASS and POISON of PIO. -/
def pioPa (h : Hdr) : Nat := hBits h 91 40
def pioLen (h : Hdr) : Nat := hBits h 97 92
def pioClass (h : Hdr) : Nat := hBits h 103 100
def pioPoison (h : Hdr) : Poison := BitVec.ofNat 8 (hBits h 111 104)
/-- ARG of MGT. -/
def mgtArg (h : Hdr) : Nat := hBits h 127 40

/-- The common bits of a header slot and the rest, given as a number in its place. -/
def mkHdr (vc op : Nat) (world : Bool) (dst src tag rest : Nat) : Hdr :=
  BitVec.ofNat 128 (place vc 2 0 + place op 7 3 + place (b2n world) 8 8 + place dst 16 9 + place src 24 17 +
    place tag 36 25 + rest)

/-- A REQ with the fields that its opcode does not use at 0. -/
def mkReq (op : Nat) (world : Bool) (dst src tag line hint : Nat) (rest : Nat := 0) : Hdr :=
  mkHdr vcReq op world dst src tag (place line 85 40 + place hint 87 86 + rest)

/-- A snoop (R134, R178). -/
def mkSnp (op : Nat) (world : Bool) (dst src tag line home slice : Nat) (fwd : Bool) : Hdr :=
  mkHdr vcSnp op world dst src tag
    (place line 85 40 + place home 93 86 + place slice 98 94 + place (b2n fwd) 99 99)

/-- A Comp. -/
def mkComp (world : Bool) (dst src tag state status lost : Nat) : Hdr :=
  mkHdr vcRsp opComp world dst src tag (place status 41 40 + place state 44 42 + place lost 79 64)

/-- A SnpResp (R134). -/
def mkSnpResp (world : Bool) (dst src tag reqNode slice state : Nat) (fwd : Bool) : Hdr :=
  mkHdr vcRsp opSnpResp world dst src tag
    (place state 44 42 + place (b2n fwd) 45 45 + place reqNode 55 48 + place slice 60 56)

/-- A WbGrant. -/
def mkWbGrant (world : Bool) (dst src tag slice : Nat) : Hdr :=
  mkHdr vcRsp opWbGrant world dst src tag (place slice 60 56)

/-- A WbAck. -/
def mkWbAck (world : Bool) (dst src tag : Nat) : Hdr := mkHdr vcRsp opWbAck world dst src tag 0

/-- A DAT message. -/
def mkDat (op : Nat) (world : Bool) (dst src tag state status slice : Nat) (be : Word) (poison : Poison) : Hdr :=
  mkHdr vcDat op world dst src tag
    (place status 41 40 + place state 44 42 + place slice 49 45 + place poison.toNat 63 56 + place be.toNat 127 64)

/-- An IoRd or IoWr of `len` bytes at `pa`. -/
def mkPio (op : Nat) (world : Bool) (dst src tag pa len : Nat) (poison : Poison) : Hdr :=
  mkHdr vcPio op world dst src tag (place pa 91 40 + place (len - 1) 97 92 + place poison.toNat 111 104)

/-- An MsFlush. -/
def mkFlush (world : Bool) (dst src tag cls : Nat) : Hdr :=
  mkHdr vcPio opMsFlush world dst src tag (place cls 103 100)

/-- An MGT message with its ARG. -/
def mkMgt (op : Nat) (world : Bool) (dst src tag arg : Nat) : Hdr := mkHdr vcMgt op world dst src tag (place arg 127 40)

/-- Row 5 of R150: a reserved opcode, or a field with a reserved code where the opcode uses it. -/
def hdrMalformed (h : Hdr) : Bool :=
  !opDefined (hVc h) (hOp h) ||
    (match hVc h with
     | 0 => hOp h == opWrBack &&
        (hVstate h == 0 || decide (6 ≤ hVstate h) || hReuse h == 3)
     | 2 => (hOp h == opComp && (hStatus h == 3 || decide (6 ≤ hState h))) ||
        (hOp h == opSnpResp && decide (6 ≤ hState h))
     | 3 => (hOp h == opCompData && (hStatus h == 1 || hStatus h == 3 || decide (6 ≤ hState h))) ||
        (hOp h == opDataFwd && decide (6 ≤ hState h))
     | 4 => (hOp h == opIoRd || hOp h == opIoWr) && decide (63 < pioPa h % 64 + pioLen h)
     | _ => false)

/-! ## Flits (R81 to R89) -/

/-- One step of CRC-32, for one bit: reflected, generator 0x04C1_1DB7 (R89). -/
def crcBit (crc bit : Nat) : Nat :=
  if (crc ^^^ bit) % 2 = 1 then (crc >>> 1) ^^^ 0xEDB88320 else crc >>> 1

/-- CRC-32 of the low `n` bits of a number, least significant first. -/
def crcBits : Nat → Nat → Nat → Nat
  | 0, crc, _ => crc
  | n + 1, crc, m => crcBits n (crcBit crc (m % 2)) (m / 2)

/-- The CRC of a flit: bytes 0 to 11, then bytes 16 to 127 (R89). -/
def flitCrc (f : FlitBits) : Nat :=
  crcBits 992 0xFFFFFFFF (f.toNat % 2 ^ 96 + (f.toNat >>> 128) * 2 ^ 96) ^^^ 0xFFFFFFFF

def flitFsn (f : FlitBits) : Nat := bitsOf f.toNat 11 0
def flitAck (f : FlitBits) : Nat := bitsOf f.toNat 23 12
def flitWidth (f : FlitBits) : Nat := bitsOf f.toNat 25 24
def flitKind (f : FlitBits) : Nat := bitsOf f.toNat 27 26
def flitUse (f : FlitBits) (s : Nat) : Nat := bitsOf f.toNat (31 + 2 * s) (30 + 2 * s)
def flitUses (f : FlitBits) : Nat := bitsOf f.toNat 45 32
def flitRet (f : FlitBits) (i : Nat) : Nat := bitsOf f.toNat (59 + 12 * i) (48 + 12 * i)
def flitCrcField (f : FlitBits) : Nat := bitsOf f.toNat 127 96
def flitSlot (f : FlitBits) (s : Nat) : Hdr := BitVec.ofNat 128 (f.toNat >>> (128 * s))

/-- Does a flit pass its CRC? -/
def flitGood (f : FlitBits) : Bool := flitCrcField f == flitCrc f

/-- The slots of a flit from slot `s` on, as a number in place. -/
def slotsNat : Nat → List Hdr → Nat
  | _, [] => 0
  | s, h :: r => h.toNat * 2 ^ (128 * s) + slotsNat (s + 1) r

/-- A flit with its CRC: FSN, ACK, WIDTH, KIND, SLOT_USE as one number, the TOLL_RET fields and slots 1 to 7. -/
def mkFlit (fsn ack width kind uses : Nat) (rets : List Nat) (slots : List Hdr) : FlitBits :=
  let body := place fsn 11 0 + place ack 23 12 + place width 25 24 + place kind 27 26 + place uses 45 32 +
    place (rets.getD 0 0) 59 48 + place (rets.getD 1 0) 71 60 + place (rets.getD 2 0) 83 72 +
    place (rets.getD 3 0) 95 84 + slotsNat 1 slots
  BitVec.ofNat 1024 (body + place (flitCrc (BitVec.ofNat 1024 body)) 127 96)

/-- A message flit with a new ACK and WIDTH, its CRC computed again (R89, R110). -/
def flitResend (f : FlitBits) (ack width : Nat) : FlitBits :=
  let n := putBits (putBits (putBits f.toNat 23 12 ack) 25 24 width) 127 96 0
  BitVec.ofNat 1024 (n + place (flitCrc (BitVec.ofNat 1024 n)) 127 96)

/-- A TOLL_RET field (R86). -/
def tollRet (count ty ch : Nat) : Nat := place count 11 4 + place ty 3 3 + place ch 2 0

/-- Control words of R88. -/
abbrev ctlRetryReq : Nat := 1
abbrev ctlInit : Nat := 2
abbrev ctlParkReq : Nat := 3
abbrev ctlParkAck : Nat := 4

def mkCtl (op fsnArg epoch node kind : Nat) (resume : Bool) : Hdr :=
  BitVec.ofNat 128 (place op 3 0 + place (b2n resume) 4 4 + place kind 7 6 + place node 15 8 +
    place fsnArg 27 16 + place epoch 47 32)
def ctlOp (c : Hdr) : Nat := hBits c 3 0
def ctlResume (c : Hdr) : Bool := bitOf c.toNat 4
def ctlKind (c : Hdr) : Nat := hBits c 7 6
def ctlNode (c : Hdr) : Nat := hBits c 15 8
def ctlFsnArg (c : Hdr) : Nat := hBits c 27 16
def ctlEpoch (c : Hdr) : Nat := hBits c 47 32

/-! ## Lines -/

/-- Byte `i` of a line. -/
def lineByte (d : LineData) (i : Nat) : Byte := BitVec.ofNat 8 (d.toNat >>> (8 * i))

/-- `n` bytes of a line from byte `off`, as a number. -/
def lineBytes (d : LineData) (off n : Nat) : Nat := (d.toNat >>> (8 * off)) % 2 ^ (8 * n)

/-- A value of `n` bytes at byte `off` of a line of zeros. -/
def lineOf (off n v : Nat) : LineData := BitVec.ofNat 512 ((v % 2 ^ (8 * n)) * 2 ^ (8 * off))

/-- Byte enables of `n` bytes from byte `off`. -/
def beOf (off n : Nat) : Word := BitVec.ofNat 64 ((2 ^ n - 1) * 2 ^ off)

/-- All 64 bytes. -/
abbrev beAll : Word := 0xFFFF_FFFF_FFFF_FFFF

/-- Byte mask of a line for byte enables, from byte `i` on. -/
def beMaskFrom (be : Nat) : Nat → Nat
  | 0 => 0
  | n + 1 => beMaskFrom be n + (if bitOf be n then 0xFF * 2 ^ (8 * n) else 0)

/-- Byte mask of a line for byte enables. -/
def beMask (be : Word) : LineData := BitVec.ofNat 512 (beMaskFrom be.toNat 64)

/-- Write the enabled bytes of `new` over `old`. -/
def mergeLine (old new : LineData) (be : Word) : LineData := (old &&& ~~~ beMask be) ||| (new &&& beMask be)

/-- Poison after writing bytes: a word written with all eight bytes takes the mark that comes with them; a word written in
part keeps its mark and takes the one that comes; others keep theirs (R138, R185). -/
def mergePoison (old : Poison) (be : Word) (new : Poison) : Poison :=
  BitVec.ofNat 8 (((List.range 8).map fun w =>
    let e := bitsOf be.toNat (8 * w + 7) (8 * w)
    let o := bitOf old.toNat w
    let n := bitOf new.toNat w
    let r := if e = 0xFF then n else if e = 0 then o else o || n
    b2n r * 2 ^ w).foldl (· + ·) 0)

/-- Poison with word `w` marked too (R138). -/
def poisonWord (p : Poison) (w : Fin 8) : Poison := p ||| (1 <<< w.val)

/-- Words of a line with an enabled byte. -/
def beWords (be : Word) : Poison :=
  BitVec.ofNat 8 (((List.range 8).map fun w =>
    b2n (bitsOf be.toNat (8 * w + 7) (8 * w) != 0) * 2 ^ w).foldl (· + ·) 0)

/-- The data slots of a line (R132). -/
def lineSlots (d : LineData) : List Hdr := (List.range 4).map fun k => BitVec.ofNat 128 (d.toNat >>> (128 * k))

/-- A line of four data slots (R132). -/
def slotsLine (ss : List Hdr) : LineData := BitVec.ofNat 512 (slotsNat 0 ss)

/-! ## Hub, slice and channel (R40 to R42) -/

/-- XOR of the chunks of `w` bits of a number, `n` of them from bit `lo`. -/
def xorChunks (v lo w : Nat) : Nat → Nat
  | 0 => 0
  | n + 1 => xorChunks v lo w n ^^^ bitsOf v (lo + w * n + w - 1) (lo + w * n)

/-- P of R40. -/
def hashP (pa : Nat) : Nat := xorChunks pa 12 1 40

/-- H of R40. -/
def hashH (pa : Nat) : Nat := xorChunks pa 6 5 9 ^^^ bitsOf pa 51 51

/-- C of R40. -/
def hashC (pa : Nat) : Nat := xorChunks pa 8 3 14 ^^^ bitsOf pa 51 50

/-- Delete bits `[hi:lo]` of a number and close the gap. -/
def cutBits (v hi lo : Nat) : Nat := v % 2 ^ lo + (v >>> (hi + 1)) * 2 ^ lo

/-- QMASK values of R35. -/
def qmaskOk (q : Nat) : Bool := [1, 2, 4, 8, 3, 12, 5, 6, 9, 10, 15].contains q

/-- Where a line of a group lies (R41): hub index, home slice, package channel and media address (R42). -/
structure Spot where
  hub : Nat
  slice : Nat
  chan : Nat
  ma : Nat
deriving DecidableEq, Repr

/-- R41 and R42 for a group of shape `q` whose first byte is `base`. -/
def spotOf (q base pa : Nat) : Spot :=
  let o := pa - base
  let hubMask (h : Nat) := q / 4 ^ h % 4
  let both := hubMask 0 != 0 && hubMask 1 != 0
  let hub := if both then hashP pa else if hubMask 0 != 0 then 0 else 1
  let m := hubMask hub
  let wide := m == 3
  let slice := if wide then hashH pa else (if m == 2 then 16 else 0) + hashH pa % 16
  let chan := if wide then 8 * hub + hashC pa else 8 * hub + (if m == 2 then 4 else 0) + hashC pa % 4
  let o1 := if both then cutBits o 12 12 else o
  let ma := if wide then cutBits o1 10 8 else cutBits o1 9 8
  { hub := hub, slice := slice, chan := chan, ma := ma }

end Sys2Proof.Machine
end

