-- ==== Sys2Proof/Machine/Regs.lean ====
section
/-! DEFINITION. The registers of the package control space and the custom CSRs: addresses, fields, access codes and reset
values as the register descriptions of the spec give them (R12, R29 and the tables of each chapter). -/

namespace Sys2Proof.Machine

/-- The bits of a field, both included (R9). -/
structure Fld where
  hi : Nat
  lo : Nat
deriving DecidableEq, Repr

/-- Access codes of R12; no register of the spec uses RW1S or ROC. -/
inductive Acc | ro | rw | rw1c | wo | rwl
deriving DecidableEq, Repr

/-- A field of a register description: `sec` is the suffix -S of R12. -/
structure FldDef where
  name : String
  hi : Nat
  lo : Nat
  acc : Acc
  sec : Bool
deriving DecidableEq, Repr

/-- The block a register lies in (R29). `hub` registers exist in both hubs, `hubN` registers in HUB-N alone. -/
inductive Place | hub | hubN | fcd | page
deriving DecidableEq, Repr

/-- One register description: block, offset, strides with their counts, width, reset value and fields. -/
structure RegRow where
  name : String
  place : Place
  off : Nat
  strides : List (Nat × Nat)
  width : Nat
  reset : Nat
  flds : List FldDef
deriving DecidableEq, Repr

/-- One custom CSR of a hart. -/
structure CsrRow where
  name : String
  num : Nat
  reset : Nat
  flds : List FldDef
deriving DecidableEq, Repr

/-! ## Block bases (R29, R76, R118, R153, R481) -/

/-- Base of a hub's block, as an offset in the control space. -/
def hubBase : Hub → Nat
  | .n => 0
  | .s => 0x1000_0000

/-- Base of the FCDk block. -/
def fcdBase (k : Nat) : Nat := 0x2000_0000 + k * 0x10_0000

/-- Base of mailbox page m. -/
def pageBase (m : Nat) : Nat := 0x4000_0000 + m * 0x1_0000

/-- Base of a link end's register set (R118, R481). -/
def linkSet : LinkId → Nat
  | .hub h l => hubBase h + 0x1_0000 + l.val * 0x100
  | .die k => fcdBase k.val + 0x400
  | .hwy h k => hubBase h + 0x5_0000 + k.val * 0x100

/-- Base of a link end's toll and message-error registers (R153, R481). -/
def tollSet : LinkId → Nat
  | .hub h l => hubBase h + 0x1_1000 + l.val * 0x100
  | .die k => fcdBase k.val + 0x600
  | .hwy h k => hubBase h + 0x5_1000 + k.val * 0x100

/-- Base of an event ring's registers (R524). -/
def evrSet : RingId → Nat
  | .ring h r => hubBase h + 0x7_0000 + r.val * 0x100
  | .ao h a => hubBase h + 0x7_4000 + a.val * 0x100

/-- Base of a home slice's registers (R195, R222, R293). -/
def sliceSet (h : Hub) (s : Nat) : Nat := hubBase h + 0x2_0000 + s * 0x100

/-- Base of a memory channel's registers (R362). -/
def mcSet (h : Hub) (c : Nat) : Nat := hubBase h + 0x3_0000 + c * 0x400

/-- Base of a data-mover engine's registers (R449). -/
def engSet (h : Hub) (e : Nat) : Nat := hubBase h + 0x4_0000 + e * 0x100

/-- Key of a hart's CSR in `Block.csrs`. -/
def csrKey (hart num : Nat) : Nat := hart * 4096 + num

/-! ## Register addresses -/

def HUB_HOME_GROUP (h : Hub) (g : Nat) : Nat := hubBase h + 0x1000 + g * 0x8
def HUB_LOCK (h : Hub) : Nat := hubBase h + 0x20
def FCD_LOCK (k : Nat) : Nat := fcdBase k + 0x20
def TH_MBX_DOORBELL (m : Nat) : Nat := pageBase m + 0x0
def TH_MBX_STATE (m : Nat) : Nat := pageBase m + 0x8
def TH_MBX_REQ_HDR0 (m : Nat) : Nat := pageBase m + 0x20
def TH_MBX_REQ_HDR1 (m : Nat) : Nat := pageBase m + 0x28
def TH_MBX_RSP_HDR0 (m : Nat) : Nat := pageBase m + 0x30
def TH_MBX_RSP_HDR1 (m : Nat) : Nat := pageBase m + 0x38
def TH_MBX_MSI (m : Nat) : Nat := pageBase m + 0x40
def HUB_MILEPOST_DIES (h : Hub) : Nat := hubBase h + 0x200
def HUB_MILEPOST_IO (h : Hub) : Nat := hubBase h + 0x208
def HUB_MILEPOST_DM (h : Hub) : Nat := hubBase h + 0x210
def HUB_MILEPOST_TH (h : Hub) : Nat := hubBase h + 0x218
def FCD_MILEPOST (k : Nat) : Nat := fcdBase k + 0x100
def LINK_CTRL (e : LinkId) : Nat := linkSet e + 0x0
def LINK_STATUS (e : LinkId) : Nat := linkSet e + 0x8
def LINK_LANE_TEST (e : LinkId) : Nat := linkSet e + 0x10
def LINK_EPOCH (e : LinkId) : Nat := linkSet e + 0x18
def LINK_ERR (e : LinkId) : Nat := linkSet e + 0x20
def LINK_CRC_LIMIT (e : LinkId) : Nat := linkSet e + 0x28
def TOLL_TX (e : LinkId) (c : Nat) : Nat := tollSet e + 0x0 + c * 0x18
def TOLL_RX (e : LinkId) (c : Nat) : Nat := tollSet e + 0x8 + c * 0x18
def TOLL_FLOW (e : LinkId) (c : Nat) : Nat := tollSet e + 0x10 + c * 0x18
def MSG_ERR (e : LinkId) : Nat := tollSet e + 0xa0
def HUB_COH_CTRL (h : Hub) : Nat := hubBase h + 0x300
def HUB_SLICE_SF_STAT (h : Hub) (s : Nat) : Nat := hubBase h + 0x20000 + s * 0x0100
def HUB_JCT_TIMEOUT (h : Hub) : Nat := hubBase h + 0x310
def HUB_JCT_LOST (h : Hub) : Nat := hubBase h + 0x318
def HUB_SLICE_JCT_STAT (h : Hub) (s : Nat) : Nat := hubBase h + 0x20010 + s * 0x0100
def FCD_REQ_TIMEOUT (k : Nat) : Nat := fcdBase k + 0x800
def SPUR_GUEST_CTRL (h : Hub) : Nat := hubBase h + 0x400
def SPUR_BRINGUP (h : Hub) : Nat := hubBase h + 0x408
def SPUR_VIOL_LIMIT (h : Hub) : Nat := hubBase h + 0x410
def SPUR_VIOL_STATUS (h : Hub) : Nat := hubBase h + 0x418
/-- CSR number of FCD_MS_CTRL (spec/08_ordering_and_milestones.md). -/
def FCD_MS_CTRL : Nat := 0x7c0
/-- CSR number of FCD_MS_RESULT (spec/08_ordering_and_milestones.md). -/
def FCD_MS_RESULT : Nat := 0xcc0
def FCD_CORE_DRAIN (k : Nat) (c : Nat) : Nat := fcdBase k + 0xa00 + c * 0x8
/-- CSR number of FCD_L2_CTRL (spec/09_caches.md). -/
def FCD_L2_CTRL : Nat := 0x7c1
/-- CSR number of FCD_L2_SETWAY (spec/09_caches.md). -/
def FCD_L2_SETWAY : Nat := 0x7c2
def HUB_SC_CTRL (h : Hub) : Nat := hubBase h + 0x320
def HUB_SC_LOCK (h : Hub) : Nat := hubBase h + 0x328
def HUB_SLICE_SC_STAT (h : Hub) (s : Nat) : Nat := hubBase h + 0x20020 + s * 0x0100
/-- CSR number of FCD_WALK_FAULT (spec/10_translation_and_worlds.md). -/
def FCD_WALK_FAULT : Nat := 0xdc0
/-- CSR number of FCD_BINV_ADDR (spec/10_translation_and_worlds.md). -/
def FCD_BINV_ADDR : Nat := 0x5c0
/-- CSR number of FCD_BINV (spec/10_translation_and_worlds.md). -/
def FCD_BINV : Nat := 0x5c1
def HUB_WORLD_REGION_BASE (h : Hub) (n : Nat) : Nat := hubBase h + 0x2000 + n * 0x10
def HUB_WORLD_REGION_SIZE (h : Hub) (n : Nat) : Nat := hubBase h + 0x2008 + n * 0x10
/-- CSR number of FCD_WORLD (spec/10_translation_and_worlds.md). -/
def FCD_WORLD : Nat := 0x7c3
def HUB_WORLD_CTRL (h : Hub) : Nat := hubBase h + 0x500
def HUB_WORLD_STAT (h : Hub) : Nat := hubBase h + 0x508
def HUB_PIN_WORLD (h : Hub) : Nat := hubBase h + 0x510
def MC_CONFIG (h : Hub) (c : Nat) : Nat := hubBase h + 0x30000 + c * 0x0400
def MC_SCHED (h : Hub) (c : Nat) : Nat := hubBase h + 0x30008 + c * 0x0400
def MC_MAINT (h : Hub) (c : Nat) : Nat := hubBase h + 0x30010 + c * 0x0400
def MC_FREEZE_STATUS (h : Hub) (c : Nat) : Nat := hubBase h + 0x30018 + c * 0x0400
def MC_FREEZE_ADDR (h : Hub) (c : Nat) : Nat := hubBase h + 0x30020 + c * 0x0400
def MC_QOS_TARGET_LO (h : Hub) : Nat := hubBase h + 0x600
def MC_QOS_TARGET_HI (h : Hub) : Nat := hubBase h + 0x608
def HUB_CLK_STATUS (h : Hub) : Nat := hubBase h + 0x700
def HUB_SPLIT_STATUS (h : Hub) : Nat := hubBase h + 0x708
def HUB_PART_STATE (h : Hub) : Nat := hubBase h + 0x710
def FCD_RESET_STATUS (k : Nat) : Nat := fcdBase k + 0xc08
def HUB_PWR_CTRL  : Nat := 0x800
def HUB_PWR_STATUS  : Nat := 0x808
def HUB_WAKE_CTRL (h : Hub) : Nat := hubBase h + 0x810
def HUB_WAKE_PINS (h : Hub) : Nat := hubBase h + 0x818
def HUB_WAKE_TIMER (h : Hub) : Nat := hubBase h + 0x820
/-- CSR number of FCD_CORE_PWR (spec/13_power_states.md). -/
def FCD_CORE_PWR : Nat := 0x7c4
def DM_CH_DOORBELL (h : Hub) (n : Nat) : Nat := hubBase h + 0x2000000 + n * 0x1000
def DM_CH_CTRL (h : Hub) (n : Nat) : Nat := hubBase h + 0x2000008 + n * 0x1000
def DM_CH_STATUS (h : Hub) (n : Nat) : Nat := hubBase h + 0x2000010 + n * 0x1000
def DM_CH_RING (h : Hub) (n : Nat) : Nat := hubBase h + 0x2000018 + n * 0x1000
def DM_CH_MSI_ADDR (h : Hub) (n : Nat) : Nat := hubBase h + 0x2000020 + n * 0x1000
def DM_CH_MSI_DATA (h : Hub) (n : Nat) : Nat := hubBase h + 0x2000028 + n * 0x1000
def DM_ENG_STATUS (h : Hub) (e : Nat) : Nat := hubBase h + 0x40000 + e * 0x0100
def HUB_HPW_BASE (h : Hub) (w : Nat) : Nat := hubBase h + 0x3000 + w * 0x10
def HUB_HPW_SIZE (h : Hub) (w : Nat) : Nat := hubBase h + 0x3008 + w * 0x10
def EP_WIN_STG_LO (h : Hub) (f : Nat) (i : Nat) : Nat := hubBase h + 0x400400 + f * 0x800 + i * 0x10
def EP_WIN_STG_HI (h : Hub) (f : Nat) (i : Nat) : Nat := hubBase h + 0x400408 + f * 0x800 + i * 0x10
def EP_WIN_COMMIT (h : Hub) (f : Nat) : Nat := hubBase h + 0x480000 + f * 0x8
def EP_STATUS (h : Hub) : Nat := hubBase h + 0x490000
def HWY_ROUTE (h : Hub) (n : Nat) : Nat := hubBase h + 0x60000 + n * 0x8
def HWY_FABRIC_CTRL (h : Hub) : Nat := hubBase h + 0x900
def HWY_FABRIC_STATUS (h : Hub) : Nat := hubBase h + 0x908
def HWY_WAVE_STATUS (h : Hub) : Nat := hubBase h + 0x910
def HUB_EVR_STATUS (r : RingId) : Nat := evrSet r + 0x0
def HUB_EVR_CTRL (r : RingId) : Nat := evrSet r + 0x8
def HUB_EVR_MSI (r : RingId) : Nat := evrSet r + 0x10
def HUB_EVR_WIN (r : RingId) (w : Nat) : Nat := evrSet r + 0x40 + w * 8
def HUB_ERR_STATUS (h : Hub) : Nat := hubBase h + 0xa00
def EP_WIN_ACT_LO (h : Hub) (f i : Nat) : Nat := hubBase h + 0x400000 + f * 0x800 + i * 0x10
def EP_WIN_ACT_HI (h : Hub) (f i : Nat) : Nat := hubBase h + 0x400008 + f * 0x800 + i * 0x10
def FCD_CLK_STATUS (k : Nat) : Nat := fcdBase k + 0xC00

/-! ## Fields -/

abbrev HUB_HOME_GROUP_PKG : Fld := ⟨58, 56⟩
abbrev HUB_HOME_GROUP_QMASK : Fld := ⟨55, 52⟩
abbrev HUB_HOME_GROUP_BASE : Fld := ⟨51, 30⟩
abbrev HUB_HOME_GROUP_PART : Fld := ⟨17, 16⟩
abbrev HUB_HOME_GROUP_SIZE_GIB : Fld := ⟨15, 0⟩
abbrev HUB_LOCK_LOCK : Fld := ⟨0, 0⟩
abbrev FCD_LOCK_LOCK : Fld := ⟨0, 0⟩
abbrev TH_MBX_DOORBELL_ABORT : Fld := ⟨1, 1⟩
abbrev TH_MBX_DOORBELL_RING : Fld := ⟨0, 0⟩
abbrev TH_MBX_STATE_LAST_SEQ : Fld := ⟨31, 16⟩
abbrev TH_MBX_STATE_HAVE_LAST : Fld := ⟨4, 4⟩
abbrev TH_MBX_STATE_IRQ_PENDING : Fld := ⟨3, 3⟩
abbrev TH_MBX_STATE_OVERRUN : Fld := ⟨2, 2⟩
abbrev TH_MBX_STATE_STATE : Fld := ⟨1, 0⟩
abbrev TH_MBX_REQ_HDR0_FLAGS : Fld := ⟨63, 48⟩
abbrev TH_MBX_REQ_HDR0_LENGTH : Fld := ⟨47, 32⟩
abbrev TH_MBX_REQ_HDR0_SEQUENCE : Fld := ⟨31, 16⟩
abbrev TH_MBX_REQ_HDR0_COMMAND : Fld := ⟨15, 0⟩
abbrev TH_MBX_REQ_HDR1_HANDLE : Fld := ⟨31, 0⟩
abbrev TH_MBX_RSP_HDR0_DETAIL : Fld := ⟨63, 48⟩
abbrev TH_MBX_RSP_HDR0_LENGTH : Fld := ⟨47, 32⟩
abbrev TH_MBX_RSP_HDR0_SEQUENCE : Fld := ⟨31, 16⟩
abbrev TH_MBX_RSP_HDR0_STATUS : Fld := ⟨15, 0⟩
abbrev TH_MBX_RSP_HDR1_HANDLE : Fld := ⟨31, 0⟩
abbrev TH_MBX_MSI_DATA : Fld := ⟨55, 44⟩
abbrev TH_MBX_MSI_ADDR : Fld := ⟨39, 0⟩
abbrev HUB_MILEPOST_DIES_HOME : Fld := ⟨8, 8⟩
abbrev HUB_MILEPOST_DIES_CAUSEWAY : Fld := ⟨7, 7⟩
abbrev HUB_MILEPOST_DIES_SPUR : Fld := ⟨6, 6⟩
abbrev HUB_MILEPOST_DIES_DIE : Fld := ⟨5, 0⟩
abbrev HUB_MILEPOST_IO_HWY : Fld := ⟨25, 24⟩
abbrev HUB_MILEPOST_IO_ROOT_PORT : Fld := ⟨23, 8⟩
abbrev HUB_MILEPOST_IO_CHANNEL : Fld := ⟨7, 0⟩
abbrev HUB_MILEPOST_DM_ENGINE : Fld := ⟨15, 0⟩
abbrev HUB_MILEPOST_TH_CACHE : Fld := ⟨11, 11⟩
abbrev HUB_MILEPOST_TH_WORLD : Fld := ⟨10, 10⟩
abbrev HUB_MILEPOST_TH_LINK : Fld := ⟨9, 9⟩
abbrev HUB_MILEPOST_TH_FABRIC : Fld := ⟨8, 8⟩
abbrev HUB_MILEPOST_TH_ENDPOINT : Fld := ⟨7, 7⟩
abbrev HUB_MILEPOST_TH_DATA_MOVER : Fld := ⟨6, 6⟩
abbrev HUB_MILEPOST_TH_EVENT : Fld := ⟨5, 5⟩
abbrev HUB_MILEPOST_TH_POWER : Fld := ⟨4, 4⟩
abbrev HUB_MILEPOST_TH_PARTITION : Fld := ⟨3, 3⟩
abbrev HUB_MILEPOST_TH_MEMORY : Fld := ⟨2, 2⟩
abbrev HUB_MILEPOST_TH_MAILBOX : Fld := ⟨1, 1⟩
abbrev HUB_MILEPOST_TH_FIRMWARE : Fld := ⟨0, 0⟩
abbrev FCD_MILEPOST_FEEDER : Fld := ⟨21, 21⟩
abbrev FCD_MILEPOST_RING : Fld := ⟨20, 20⟩
abbrev FCD_MILEPOST_CORE : Fld := ⟨19, 0⟩
abbrev LINK_CTRL_RESTART : Fld := ⟨28, 28⟩
abbrev LINK_CTRL_CNT_CLEAR : Fld := ⟨27, 27⟩
abbrev LINK_CTRL_TAKE_DOWN : Fld := ⟨26, 26⟩
abbrev LINK_CTRL_RETRAIN : Fld := ⟨25, 25⟩
abbrev LINK_CTRL_START : Fld := ⟨24, 24⟩
abbrev LINK_CTRL_TRAIN_TIMEOUT : Fld := ⟨23, 16⟩
abbrev LINK_CTRL_RETRY_TIMER : Fld := ⟨15, 8⟩
abbrev LINK_CTRL_RETRY_LIMIT : Fld := ⟨7, 4⟩
abbrev LINK_CTRL_SEGMENT : Fld := ⟨3, 2⟩
abbrev LINK_CTRL_WIDTH_CAP : Fld := ⟨1, 0⟩
abbrev LINK_STATUS_LAST_RETRAIN_CAUSE : Fld := ⟨27, 24⟩
abbrev LINK_STATUS_LAST_TRAIN_FAIL : Fld := ⟨23, 20⟩
abbrev LINK_STATUS_DOWN_REASON : Fld := ⟨19, 16⟩
abbrev LINK_STATUS_FAILED_ATTEMPTS : Fld := ⟨9, 8⟩
abbrev LINK_STATUS_RESUMED : Fld := ⟨7, 7⟩
abbrev LINK_STATUS_SEGMENT : Fld := ⟨6, 5⟩
abbrev LINK_STATUS_WIDTH : Fld := ⟨4, 3⟩
abbrev LINK_STATUS_STATE : Fld := ⟨2, 0⟩
abbrev LINK_LANE_TEST_PARTNER_QFAIL : Fld := ⟨47, 44⟩
abbrev LINK_LANE_TEST_PARTNER_QTESTED : Fld := ⟨43, 40⟩
abbrev LINK_LANE_TEST_QFAIL : Fld := ⟨39, 36⟩
abbrev LINK_LANE_TEST_QTESTED : Fld := ⟨35, 32⟩
abbrev LINK_LANE_TEST_FAIL_COUNT : Fld := ⟨26, 16⟩
abbrev LINK_LANE_TEST_FIRST_FAIL_LANE : Fld := ⟨9, 0⟩
abbrev LINK_EPOCH_EPOCH : Fld := ⟨31, 16⟩
abbrev LINK_EPOCH_REPLAY_OCC : Fld := ⟨9, 0⟩
abbrev LINK_ERR_CAP_INVALID : Fld := ⟨8, 8⟩
abbrev LINK_ERR_HDR_FAULT : Fld := ⟨7, 7⟩
abbrev LINK_ERR_EPOCH_NEW : Fld := ⟨6, 6⟩
abbrev LINK_ERR_LINK_DOWN : Fld := ⟨5, 5⟩
abbrev LINK_ERR_TRAIN_FAIL : Fld := ⟨4, 4⟩
abbrev LINK_ERR_SEQ_FAULT : Fld := ⟨3, 3⟩
abbrev LINK_ERR_WIDTH_MISMATCH : Fld := ⟨2, 2⟩
abbrev LINK_ERR_RETRY_LIMIT : Fld := ⟨1, 1⟩
abbrev LINK_ERR_CRC_RATE : Fld := ⟨0, 0⟩
abbrev LINK_CRC_LIMIT_THRESHOLD : Fld := ⟨15, 0⟩
abbrev TOLL_TX_DATA_ALLOT : Fld := ⟨59, 48⟩
abbrev TOLL_TX_DATA_HELD : Fld := ⟨43, 32⟩
abbrev TOLL_TX_HDR_ALLOT : Fld := ⟨27, 16⟩
abbrev TOLL_TX_HDR_HELD : Fld := ⟨11, 0⟩
abbrev TOLL_RX_DATA_PEND : Fld := ⟨59, 48⟩
abbrev TOLL_RX_DATA_OCC : Fld := ⟨43, 32⟩
abbrev TOLL_RX_HDR_PEND : Fld := ⟨27, 16⟩
abbrev TOLL_RX_HDR_OCC : Fld := ⟨11, 0⟩
abbrev TOLL_FLOW_DATA_RETURNED : Fld := ⟨63, 48⟩
abbrev TOLL_FLOW_DATA_SPENT : Fld := ⟨47, 32⟩
abbrev TOLL_FLOW_HDR_RETURNED : Fld := ⟨31, 16⟩
abbrev TOLL_FLOW_HDR_SPENT : Fld := ⟨15, 0⟩
abbrev MSG_ERR_CNT_CLEAR : Fld := ⟨31, 31⟩
abbrev MSG_ERR_BAD_CHANNEL : Fld := ⟨7, 7⟩
abbrev MSG_ERR_SRC_FAULT : Fld := ⟨6, 6⟩
abbrev MSG_ERR_BAD_DEST : Fld := ⟨5, 5⟩
abbrev MSG_ERR_UNKNOWN_TAG : Fld := ⟨4, 4⟩
abbrev MSG_ERR_BAD_OPCODE : Fld := ⟨3, 3⟩
abbrev MSG_ERR_FRAME_FAULT : Fld := ⟨2, 2⟩
abbrev MSG_ERR_LEDGER_FAULT : Fld := ⟨1, 1⟩
abbrev MSG_ERR_NO_TOLL : Fld := ⟨0, 0⟩
abbrev HUB_COH_CTRL_SC_F_DIRECT : Fld := ⟨1, 1⟩
abbrev HUB_COH_CTRL_SPEC_MEM_READ : Fld := ⟨0, 0⟩
abbrev HUB_SLICE_SF_STAT_CNT_CLEAR : Fld := ⟨31, 31⟩
abbrev HUB_SLICE_SF_STAT_BACKINV_ACTIVE : Fld := ⟨25, 18⟩
abbrev HUB_SLICE_SF_STAT_VALID_ENTRIES : Fld := ⟨17, 0⟩
abbrev HUB_JCT_TIMEOUT_DIE_ANSWER : Fld := ⟨15, 8⟩
abbrev HUB_JCT_TIMEOUT_GUEST_ANSWER : Fld := ⟨7, 0⟩
abbrev HUB_JCT_LOST_DROPPED : Fld := ⟨63, 32⟩
abbrev HUB_JCT_LOST_LAST_CAUSE : Fld := ⟨31, 30⟩
abbrev HUB_JCT_LOST_SCRUB : Fld := ⟨29, 16⟩
abbrev HUB_JCT_LOST_FAR_HUB : Fld := ⟨14, 14⟩
abbrev HUB_JCT_LOST_LOST : Fld := ⟨13, 0⟩
abbrev HUB_SLICE_JCT_STAT_CNT_CLEAR : Fld := ⟨31, 31⟩
abbrev HUB_SLICE_JCT_STAT_TRACKERS_ACTIVE : Fld := ⟨23, 12⟩
abbrev HUB_SLICE_JCT_STAT_WAITING : Fld := ⟨11, 0⟩
abbrev FCD_REQ_TIMEOUT_CNT_CLEAR : Fld := ⟨31, 31⟩
abbrev FCD_REQ_TIMEOUT_QUARANTINED : Fld := ⟨27, 16⟩
abbrev FCD_REQ_TIMEOUT_FWD_WAIT : Fld := ⟨15, 8⟩
abbrev FCD_REQ_TIMEOUT_REQ_LIMIT : Fld := ⟨7, 0⟩
abbrev SPUR_GUEST_CTRL_ASSIGNED : Fld := ⟨19, 19⟩
abbrev SPUR_GUEST_CTRL_PART : Fld := ⟨17, 16⟩
abbrev SPUR_GUEST_CTRL_RESET : Fld := ⟨8, 8⟩
abbrev SPUR_GUEST_CTRL_SECURE_OK : Fld := ⟨4, 4⟩
abbrev SPUR_GUEST_CTRL_CLASS_ALLOW : Fld := ⟨1, 0⟩
abbrev SPUR_BRINGUP_REVISION : Fld := ⟨19, 16⟩
abbrev SPUR_BRINGUP_CLASS : Fld := ⟨8, 8⟩
abbrev SPUR_BRINGUP_OFFER_FAULT : Fld := ⟨4, 4⟩
abbrev SPUR_BRINGUP_FAULT_VC : Fld := ⟨3, 1⟩
abbrev SPUR_BRINGUP_OFFER_SEEN : Fld := ⟨0, 0⟩
abbrev SPUR_VIOL_LIMIT_DOWN_AT : Fld := ⟨31, 16⟩
abbrev SPUR_VIOL_LIMIT_WARN_AT : Fld := ⟨15, 0⟩
abbrev SPUR_VIOL_STATUS_COUNT : Fld := ⟨31, 16⟩
abbrev SPUR_VIOL_STATUS_DOWN_CAUSE : Fld := ⟨15, 12⟩
abbrev SPUR_VIOL_STATUS_DOWN : Fld := ⟨11, 11⟩
abbrev SPUR_VIOL_STATUS_WARN : Fld := ⟨10, 10⟩
abbrev SPUR_VIOL_STATUS_CNT_CLEAR : Fld := ⟨9, 9⟩
abbrev SPUR_VIOL_STATUS_ORPHANS : Fld := ⟨8, 0⟩
abbrev FCD_MS_CTRL_TIMEOUT : Fld := ⟨15, 0⟩
abbrev FCD_MS_RESULT_LOST_CLASSES : Fld := ⟨39, 36⟩
abbrev FCD_MS_RESULT_PENDING : Fld := ⟨35, 32⟩
abbrev FCD_MS_RESULT_LOST_COUNT : Fld := ⟨31, 0⟩
abbrev FCD_CORE_DRAIN_CNT_CLEAR : Fld := ⟨31, 31⟩
abbrev FCD_CORE_DRAIN_LAST_DRAIN : Fld := ⟨24, 16⟩
abbrev FCD_CORE_DRAIN_DISCARDED : Fld := ⟨15, 0⟩
abbrev FCD_L2_CTRL_LOCK_WAYS : Fld := ⟨19, 16⟩
abbrev FCD_L2_CTRL_FILL_LOCKED : Fld := ⟨15, 15⟩
abbrev FCD_L2_CTRL_CLEAN_OFFER : Fld := ⟨13, 12⟩
abbrev FCD_L2_CTRL_PF_MAX : Fld := ⟨11, 6⟩
abbrev FCD_L2_CTRL_PF_DISTANCE : Fld := ⟨5, 2⟩
abbrev FCD_L2_CTRL_PF_ENABLE : Fld := ⟨0, 0⟩
abbrev FCD_L2_SETWAY_OP : Fld := ⟨37, 36⟩
abbrev FCD_L2_SETWAY_WAY : Fld := ⟨35, 32⟩
abbrev FCD_L2_SETWAY_SET : Fld := ⟨26, 16⟩
abbrev HUB_SC_CTRL_NL_MIN_FREE : Fld := ⟨23, 16⟩
abbrev HUB_SC_CTRL_CLEAN_MIN_REUSE : Fld := ⟨9, 8⟩
abbrev HUB_SC_CTRL_NL_ENABLE : Fld := ⟨0, 0⟩
abbrev HUB_SC_LOCK_WAYS_HI : Fld := ⟨7, 4⟩
abbrev HUB_SC_LOCK_WAYS_LO : Fld := ⟨3, 0⟩
abbrev HUB_SLICE_SC_STAT_CNT_CLEAR : Fld := ⟨63, 63⟩
abbrev HUB_SLICE_SC_STAT_DIRTY_LINES : Fld := ⟨49, 32⟩
abbrev HUB_SLICE_SC_STAT_VALID_LINES : Fld := ⟨17, 0⟩
abbrev FCD_WALK_FAULT_CAUSE : Fld := ⟨59, 57⟩
abbrev FCD_WALK_FAULT_STAGE : Fld := ⟨56, 56⟩
abbrev FCD_WALK_FAULT_LEVEL : Fld := ⟨55, 53⟩
abbrev FCD_WALK_FAULT_VALID : Fld := ⟨52, 52⟩
abbrev FCD_WALK_FAULT_PTE_PA : Fld := ⟨51, 3⟩
abbrev FCD_BINV_ADDR_ADDR : Fld := ⟨63, 0⟩
abbrev FCD_BINV_GO : Fld := ⟨63, 63⟩
abbrev FCD_BINV_VMID : Fld := ⟨45, 32⟩
abbrev FCD_BINV_ASID : Fld := ⟨31, 16⟩
abbrev FCD_BINV_REACH : Fld := ⟨8, 8⟩
abbrev FCD_BINV_OUTSTANDING : Fld := ⟨7, 5⟩
abbrev FCD_BINV_OP : Fld := ⟨3, 0⟩
abbrev HUB_WORLD_REGION_BASE_ENABLE : Fld := ⟨63, 63⟩
abbrev HUB_WORLD_REGION_BASE_PART_MASK : Fld := ⟨59, 56⟩
abbrev HUB_WORLD_REGION_BASE_BASE : Fld := ⟨51, 12⟩
abbrev HUB_WORLD_REGION_SIZE_PAGES : Fld := ⟨39, 0⟩
abbrev FCD_WORLD_COUNT_SECURE : Fld := ⟨1, 1⟩
abbrev FCD_WORLD_WORLD : Fld := ⟨0, 0⟩
abbrev HUB_WORLD_CTRL_COUNT_SECURE : Fld := ⟨0, 0⟩
abbrev HUB_WORLD_STAT_DENIED : Fld := ⟨63, 32⟩
abbrev HUB_WORLD_STAT_PWR_REFUSED : Fld := ⟨31, 16⟩
abbrev HUB_WORLD_STAT_CNT_CLEAR : Fld := ⟨0, 0⟩
abbrev HUB_PIN_WORLD_SECURE : Fld := ⟨31, 0⟩
abbrev MC_CONFIG_SPEED_MTS : Fld := ⟨31, 16⟩
abbrev MC_CONFIG_LRANKS : Fld := ⟨15, 12⟩
abbrev MC_CONFIG_STACK : Fld := ⟨9, 8⟩
abbrev MC_CONFIG_PRANKS : Fld := ⟨6, 6⟩
abbrev MC_CONFIG_DENSITY : Fld := ⟨5, 5⟩
abbrev MC_CONFIG_DPC : Fld := ⟨4, 4⟩
abbrev MC_CONFIG_TYPE : Fld := ⟨3, 2⟩
abbrev MC_SCHED_OPEN_TIMER : Fld := ⟨31, 24⟩
abbrev MC_SCHED_WQ_HIGH : Fld := ⟨23, 16⟩
abbrev MC_SCHED_WQ_LOW : Fld := ⟨15, 8⟩
abbrev MC_SCHED_PAGE_POLICY : Fld := ⟨0, 0⟩
abbrev MC_MAINT_SCRUB_HOURS : Fld := ⟨63, 56⟩
abbrev MC_MAINT_INTERVAL : Fld := ⟨55, 48⟩
abbrev MC_MAINT_CNT_CLEAR : Fld := ⟨47, 47⟩
abbrev MC_MAINT_DRIFT_ALARM : Fld := ⟨40, 40⟩
abbrev MC_MAINT_LAST_PAUSE : Fld := ⟨39, 32⟩
abbrev MC_MAINT_RATE_2X : Fld := ⟨12, 12⟩
abbrev MC_MAINT_POSTPONED : Fld := ⟨11, 8⟩
abbrev MC_MAINT_FGR : Fld := ⟨0, 0⟩
abbrev MC_FREEZE_STATUS_MORE_ERRORS : Fld := ⟨63, 48⟩
abbrev MC_FREEZE_STATUS_RQ_CAPTURED : Fld := ⟨40, 32⟩
abbrev MC_FREEZE_STATUS_WQ_HELD : Fld := ⟨31, 24⟩
abbrev MC_FREEZE_STATUS_CAUSE : Fld := ⟨3, 1⟩
abbrev MC_FREEZE_STATUS_FROZEN : Fld := ⟨0, 0⟩
abbrev MC_FREEZE_ADDR_VALID : Fld := ⟨63, 63⟩
abbrev MC_FREEZE_ADDR_RANK : Fld := ⟨55, 52⟩
abbrev MC_FREEZE_ADDR_BG : Fld := ⟨51, 49⟩
abbrev MC_FREEZE_ADDR_BA : Fld := ⟨48, 47⟩
abbrev MC_FREEZE_ADDR_SUBCHANNEL : Fld := ⟨46, 46⟩
abbrev MC_FREEZE_ADDR_ROW : Fld := ⟨45, 29⟩
abbrev MC_FREEZE_ADDR_COLUMN : Fld := ⟨28, 18⟩
abbrev MC_QOS_TARGET_LO_TARGET_0 : Fld := ⟨7, 0⟩
abbrev MC_QOS_TARGET_LO_TARGET_1 : Fld := ⟨15, 8⟩
abbrev MC_QOS_TARGET_LO_TARGET_2 : Fld := ⟨23, 16⟩
abbrev MC_QOS_TARGET_LO_TARGET_3 : Fld := ⟨31, 24⟩
abbrev MC_QOS_TARGET_LO_TARGET_4 : Fld := ⟨39, 32⟩
abbrev MC_QOS_TARGET_LO_TARGET_5 : Fld := ⟨47, 40⟩
abbrev MC_QOS_TARGET_LO_TARGET_6 : Fld := ⟨55, 48⟩
abbrev MC_QOS_TARGET_LO_TARGET_7 : Fld := ⟨63, 56⟩
abbrev MC_QOS_TARGET_HI_TARGET_12 : Fld := ⟨39, 32⟩
abbrev MC_QOS_TARGET_HI_TARGET_11 : Fld := ⟨31, 24⟩
abbrev MC_QOS_TARGET_HI_TARGET_10 : Fld := ⟨23, 16⟩
abbrev MC_QOS_TARGET_HI_TARGET_9 : Fld := ⟨15, 8⟩
abbrev MC_QOS_TARGET_HI_TARGET_8 : Fld := ⟨7, 0⟩
abbrev HUB_CLK_STATUS_FALLBACK_OK : Fld := ⟨11, 11⟩
abbrev HUB_CLK_STATUS_PRIMARY_OK : Fld := ⟨10, 10⟩
abbrev HUB_CLK_STATUS_SOURCE : Fld := ⟨9, 8⟩
abbrev HUB_CLK_STATUS_HOLDOVER_EXPIRED : Fld := ⟨3, 3⟩
abbrev HUB_CLK_STATUS_SWITCHED : Fld := ⟨2, 2⟩
abbrev HUB_CLK_STATUS_PLL_UNLOCK : Fld := ⟨1, 1⟩
abbrev HUB_CLK_STATUS_REF_LOST : Fld := ⟨0, 0⟩
abbrev HUB_SPLIT_STATUS_ENTRY_TIME : Fld := ⟨63, 32⟩
abbrev HUB_SPLIT_STATUS_SPLIT : Fld := ⟨8, 8⟩
abbrev HUB_SPLIT_STATUS_CAUSE : Fld := ⟨3, 2⟩
abbrev HUB_SPLIT_STATUS_SPLIT_SEEN : Fld := ⟨0, 0⟩
abbrev HUB_PART_STATE_OWNER : Fld := ⟨31, 24⟩
abbrev HUB_PART_STATE_IN_USE : Fld := ⟨23, 20⟩
abbrev HUB_PART_STATE_MODE : Fld := ⟨15, 8⟩
abbrev HUB_PART_STATE_STATE : Fld := ⟨7, 0⟩
abbrev FCD_RESET_STATUS_LAST_SCOPE : Fld := ⟨26, 24⟩
abbrev FCD_RESET_STATUS_EVACUATED : Fld := ⟨20, 20⟩
abbrev FCD_RESET_STATUS_CORE_HELD : Fld := ⟨19, 0⟩
abbrev HUB_PWR_CTRL_ENTRY_LIMIT : Fld := ⟨31, 24⟩
abbrev HUB_PWR_CTRL_RETRY_INTERVAL : Fld := ⟨23, 16⟩
abbrev HUB_PWR_CTRL_IDLE_DWELL : Fld := ⟨15, 8⟩
abbrev HUB_PWR_CTRL_PKG_CEILING : Fld := ⟨2, 0⟩
abbrev HUB_PWR_STATUS_WAKE_SOURCE : Fld := ⟨55, 52⟩
abbrev HUB_PWR_STATUS_IMMEDIATE : Fld := ⟨51, 51⟩
abbrev HUB_PWR_STATUS_CODE : Fld := ⟨47, 40⟩
abbrev HUB_PWR_STATUS_BLOCK_INDEX : Fld := ⟨39, 32⟩
abbrev HUB_PWR_STATUS_BLOCK_KIND : Fld := ⟨31, 28⟩
abbrev HUB_PWR_STATUS_LAST_OUTCOME : Fld := ⟨22, 20⟩
abbrev HUB_PWR_STATUS_LAST_TARGET : Fld := ⟨18, 16⟩
abbrev HUB_PWR_STATUS_STATE : Fld := ⟨2, 0⟩
abbrev HUB_WAKE_CTRL_PINS : Fld := ⟨8, 8⟩
abbrev HUB_WAKE_CTRL_HIGHWAY : Fld := ⟨7, 7⟩
abbrev HUB_WAKE_CTRL_PCIE_INBAND : Fld := ⟨6, 6⟩
abbrev HUB_WAKE_CTRL_PCIE_WAKE : Fld := ⟨5, 5⟩
abbrev HUB_WAKE_CTRL_TIMER : Fld := ⟨4, 4⟩
abbrev HUB_WAKE_CTRL_IMSIC : Fld := ⟨3, 3⟩
abbrev HUB_WAKE_CTRL_APLIC : Fld := ⟨2, 2⟩
abbrev HUB_WAKE_CTRL_ADDR_PLATFORM : Fld := ⟨1, 1⟩
abbrev HUB_WAKE_CTRL_ADDR_BMC : Fld := ⟨0, 0⟩
abbrev HUB_WAKE_PINS_EDGE : Fld := ⟨63, 32⟩
abbrev HUB_WAKE_PINS_ENABLE : Fld := ⟨31, 0⟩
abbrev HUB_WAKE_TIMER_COMPARE : Fld := ⟨63, 0⟩
abbrev FCD_CORE_PWR_C3_DELAY : Fld := ⟨31, 24⟩
abbrev FCD_CORE_PWR_C3_ENABLE : Fld := ⟨16, 16⟩
abbrev FCD_CORE_PWR_GRANTED : Fld := ⟨15, 8⟩
abbrev FCD_CORE_PWR_PERF_REQ : Fld := ⟨7, 0⟩
abbrev DM_CH_DOORBELL_TAIL : Fld := ⟨31, 0⟩
abbrev DM_CH_CTRL_SKIP : Fld := ⟨3, 3⟩
abbrev DM_CH_CTRL_RESTART : Fld := ⟨2, 2⟩
abbrev DM_CH_CTRL_RUN : Fld := ⟨1, 1⟩
abbrev DM_CH_CTRL_STOP : Fld := ⟨0, 0⟩
abbrev DM_CH_STATUS_HEAD : Fld := ⟨63, 32⟩
abbrev DM_CH_STATUS_ERROR : Fld := ⟨31, 24⟩
abbrev DM_CH_STATUS_DIRTY_LOG : Fld := ⟨16, 16⟩
abbrev DM_CH_STATUS_STATE : Fld := ⟨3, 0⟩
abbrev DM_CH_RING_BASE : Fld := ⟨63, 12⟩
abbrev DM_CH_RING_ORDER : Fld := ⟨4, 0⟩
abbrev DM_CH_MSI_ADDR_ADDR : Fld := ⟨63, 2⟩
abbrev DM_CH_MSI_ADDR_ENABLE : Fld := ⟨0, 0⟩
abbrev DM_CH_MSI_DATA_DATA : Fld := ⟨31, 0⟩
abbrev DM_ENG_STATUS_CNT_CLEAR : Fld := ⟨31, 31⟩
abbrev DM_ENG_STATUS_CLAIMED : Fld := ⟨27, 27⟩
abbrev DM_ENG_STATUS_CHANNELS : Fld := ⟨26, 16⟩
abbrev DM_ENG_STATUS_TAGS : Fld := ⟨8, 0⟩
abbrev HUB_HPW_BASE_ENABLE : Fld := ⟨63, 63⟩
abbrev HUB_HPW_BASE_KIND : Fld := ⟨59, 58⟩
abbrev HUB_HPW_BASE_PORT : Fld := ⟨55, 52⟩
abbrev HUB_HPW_BASE_BASE : Fld := ⟨51, 12⟩
abbrev HUB_HPW_SIZE_PAGES : Fld := ⟨39, 0⟩
abbrev EP_WIN_STG_LO_VALID : Fld := ⟨63, 63⟩
abbrev EP_WIN_STG_LO_GRANULE : Fld := ⟨62, 58⟩
abbrev EP_WIN_STG_LO_PART : Fld := ⟨55, 54⟩
abbrev EP_WIN_STG_LO_TARGET : Fld := ⟨51, 12⟩
abbrev EP_WIN_STG_HI_OFFSET : Fld := ⟨39, 12⟩
abbrev EP_WIN_COMMIT_COMMITS : Fld := ⟨63, 32⟩
abbrev EP_WIN_COMMIT_FAULT_INDEX : Fld := ⟨13, 8⟩
abbrev EP_WIN_COMMIT_RESULT : Fld := ⟨5, 4⟩
abbrev EP_WIN_COMMIT_PENDING : Fld := ⟨1, 1⟩
abbrev EP_WIN_COMMIT_COMMIT : Fld := ⟨0, 0⟩
abbrev EP_STATUS_UNMAPPED : Fld := ⟨63, 48⟩
abbrev EP_STATUS_ACT_WRITES : Fld := ⟨47, 32⟩
abbrev EP_STATUS_NUM_VFS : Fld := ⟨31, 24⟩
abbrev EP_STATUS_TAGS_IN_USE : Fld := ⟨20, 8⟩
abbrev EP_STATUS_CNT_CLEAR : Fld := ⟨7, 7⟩
abbrev EP_STATUS_VF_ENABLE : Fld := ⟨3, 3⟩
abbrev EP_STATUS_CXL_MEM : Fld := ⟨2, 2⟩
abbrev EP_STATUS_LINK_UP : Fld := ⟨1, 1⟩
abbrev EP_STATUS_ENDPOINT : Fld := ⟨0, 0⟩
abbrev HWY_ROUTE_ALT1 : Fld := ⟨7, 4⟩
abbrev HWY_ROUTE_ALT0 : Fld := ⟨3, 0⟩
abbrev HWY_FABRIC_CTRL_PROXY_ANSWER : Fld := ⟨31, 24⟩
abbrev HWY_FABRIC_CTRL_REMOTE_WAIT : Fld := ⟨23, 16⟩
abbrev HWY_FABRIC_STATUS_LOST : Fld := ⟨63, 56⟩
abbrev HWY_FABRIC_STATUS_FAB_SCRUB : Fld := ⟨55, 48⟩
abbrev HWY_FABRIC_STATUS_DIRECT : Fld := ⟨47, 40⟩
abbrev HWY_FABRIC_STATUS_MEMBERS : Fld := ⟨39, 32⟩
abbrev HWY_FABRIC_STATUS_COORDINATOR : Fld := ⟨26, 24⟩
abbrev HWY_FABRIC_STATUS_ALT : Fld := ⟨20, 20⟩
abbrev HWY_FABRIC_STATUS_TOPOLOGY : Fld := ⟨17, 16⟩
abbrev HWY_FABRIC_STATUS_FAIL_REASON : Fld := ⟨15, 12⟩
abbrev HWY_FABRIC_STATUS_FORMED : Fld := ⟨8, 8⟩
abbrev HWY_FABRIC_STATUS_PKG : Fld := ⟨2, 0⟩
abbrev HWY_WAVE_STATUS_LEDGER_FAULTS : Fld := ⟨63, 48⟩
abbrev HWY_WAVE_STATUS_DIGEST_MISMATCHES : Fld := ⟨47, 32⟩
abbrev HWY_WAVE_STATUS_WAVE : Fld := ⟨31, 16⟩
abbrev HWY_WAVE_STATUS_RESULT : Fld := ⟨9, 8⟩
abbrev HWY_WAVE_STATUS_STATE : Fld := ⟨1, 0⟩
abbrev HUB_EVR_STATUS_WIN_VALID : Fld := ⟨47, 40⟩
abbrev HUB_EVR_STATUS_HELD : Fld := ⟨36, 16⟩
abbrev HUB_EVR_STATUS_CAP_LOG2 : Fld := ⟨12, 8⟩
abbrev HUB_EVR_STATUS_LAYBY_FAULT : Fld := ⟨6, 6⟩
abbrev HUB_EVR_STATUS_OVERFLOW : Fld := ⟨5, 5⟩
abbrev HUB_EVR_STATUS_KIND : Fld := ⟨1, 1⟩
abbrev HUB_EVR_STATUS_CREATED : Fld := ⟨0, 0⟩
abbrev HUB_EVR_CTRL_THRESHOLD : Fld := ⟨31, 11⟩
abbrev HUB_EVR_CTRL_TAKE : Fld := ⟨0, 0⟩
abbrev HUB_EVR_MSI_DATA : Fld := ⟨55, 44⟩
abbrev HUB_EVR_MSI_ADDR : Fld := ⟨39, 0⟩
abbrev HUB_EVR_WIN_WORD : Fld := ⟨63, 0⟩
abbrev HUB_ERR_STATUS_PATH_LOST : Fld := ⟨31, 16⟩
abbrev HUB_ERR_STATUS_WAVE_FAULT : Fld := ⟨3, 3⟩
abbrev HUB_ERR_STATUS_SC_TAG_UE : Fld := ⟨2, 2⟩
abbrev HUB_ERR_STATUS_CATCHALL : Fld := ⟨1, 1⟩

/-! ## Counters (R121, R155) -/

def CNT_CRC_ERR (e : LinkId) : Nat := linkSet e + 0x40
def CNT_RETRY_REQ_SENT (e : LinkId) : Nat := linkSet e + 0x44
def CNT_RETRY_REQ_RCVD (e : LinkId) : Nat := linkSet e + 0x48
def CNT_FLITS_REPLAYED (e : LinkId) : Nat := linkSet e + 0x4c
def CNT_DISCARD_SEQ (e : LinkId) : Nat := linkSet e + 0x50
def CNT_WIDTH_MISMATCH (e : LinkId) : Nat := linkSet e + 0x54
def CNT_HDR_FAULT (e : LinkId) : Nat := linkSet e + 0x58
def CNT_DISCARD_EPOCH (e : LinkId) : Nat := linkSet e + 0x5c
def CNT_ATTEMPTS (e : LinkId) : Nat := linkSet e + 0x60
def CNT_MSG_NO_TOLL (e : LinkId) : Nat := tollSet e + 0xc0
def CNT_MSG_LEDGER_FAULT (e : LinkId) : Nat := tollSet e + 0xc4
def CNT_MSG_FRAME_FAULT (e : LinkId) : Nat := tollSet e + 0xc8
def CNT_MSG_BAD_OPCODE (e : LinkId) : Nat := tollSet e + 0xcc
def CNT_MSG_UNKNOWN_TAG (e : LinkId) : Nat := tollSet e + 0xd0
def CNT_MSG_BAD_DEST (e : LinkId) : Nat := tollSet e + 0xd4
def CNT_MSG_SRC_FAULT (e : LinkId) : Nat := tollSet e + 0xd8
def CNT_MSG_BAD_CHANNEL (e : LinkId) : Nat := tollSet e + 0xdc

/-! ## Counters of the slices, dies, spurs, channels and engines (R196, R223, R224, R247, R294, R363, R450, R525) -/

/-- Counter `i` of R196 (0 SNOOPS_SENT, 1 SNPBACK_SENT, 2 STALE_ANSWERS, 3 DATA_FORWARDED, 4 CU_CONVERTED, 5 WB_DECLINED,
6 ATOMICS, 7 SPEC_READ_WASTED). -/
def CNT_COH (h : Hub) (s i : Nat) : Nat := sliceSet h s + 0x40 + 4 * i
/-- Counter `i` of R223 (0 CONFLICT_WAITS, 1 BACKINV_WAITS, 2 HANDOVER_WAITS, 3 WB_STALE, 4 SYNTH_ANSWERS,
5 POISONED_LINES, 6 GUEST_TIMEOUTS, 7 DUP_ANSWERS). -/
def CNT_JCT (h : Hub) (s i : Nat) : Nat := sliceSet h s + 0x80 + 4 * i
/-- Counter `i` of R294 (0 SC_HITS, 1 SC_MISSES, 2 WB_ACCEPTED_CLEAN, 3 WB_ACCEPTED_DIRTY, 4 DIRTY_EVICTIONS,
5 NL_ISSUED, 6 NL_DROPPED, 7 NL_USED). -/
def CNT_SC (h : Hub) (s i : Nat) : Nat := sliceSet h s + 0xA0 + 4 * i
/-- Counter `i` of R224 (0 REQ_TIMEOUTS, 1 FWD_TIMEOUTS, 2 SNOOPS_HELD, 3 CU_RESENT). -/
def CNT_DIE (k i : Nat) : Nat := fcdBase k + 0x810 + 4 * i
/-- Counter `i` of R247 (0 CLASS_FAULT, 1 WORLD_FAULT, 2 SB_FAULT, 3 ORPHAN_MATCHED, 4 PIO_TIMEOUTS, 5 PWR_NO_ANSWER,
6 EARLY_REQ). -/
def CNT_SPUR (h : Hub) (i : Nat) : Nat := hubBase h + 0x420 + 4 * i
/-- Counter `i` of R363 (0 CORRECTED, 1 SCRUB_CORRECTED, 2 POISON_READS, 3 ROW_HITS, 4 ROW_MISSES, 5 URGENT_READS,
6 REFRESH_FORCED, 7 RETRAIN_PAUSES, 8 FROZEN_REFUSED). -/
def CNT_MC (h : Hub) (c i : Nat) : Nat := mcSet h c + 0x100 + 4 * i
/-- Counter `i` of R450 (0 DESC_DONE, 1 LINES_READ, 2 LINES_WRITTEN, 3 REVOKED, 4 FAILURES). -/
def CNT_DM (h : Hub) (e i : Nat) : Nat := engSet h e + 0x40 + 4 * i
/-- Count `i` of R525 (0 WRITTEN, 1 TAKEN, 2 LOST). -/
def CNT_EVR (r : RingId) (i : Nat) : Nat := evrSet r + 0x80 + 4 * i

/-- The counters as register rows: one read-only field of 32 bits each. -/
def counterRow (name : String) (place : Place) (off : Nat) (strides : List (Nat × Nat)) (n : Nat) : RegRow :=
  ⟨name, place, off, strides ++ [(4, n)], 32, 0, [⟨"COUNT", 31, 0, .ro, false⟩]⟩

def counterRows : List RegRow := [
  counterRow "HUB_LINK counters" .hub 0x10040 [(0x100, 8)] 9,
  counterRow "FCD_FEEDER counters" .fcd 0x440 [] 9,
  counterRow "HWY_LINK counters" .hub 0x50040 [(0x100, 2)] 9,
  counterRow "HUB_MSG counters" .hub 0x110C0 [(0x100, 8)] 8,
  counterRow "FCD_MSG counters" .fcd 0x6C0 [] 8,
  counterRow "HWY_MSG counters" .hub 0x510C0 [(0x100, 2)] 8,
  counterRow "HUB_SLICE counters of R196" .hub 0x20040 [(0x100, 32)] 8,
  counterRow "HUB_SLICE counters of R223" .hub 0x20080 [(0x100, 32)] 8,
  counterRow "HUB_SLICE counters of R294" .hub 0x200A0 [(0x100, 32)] 8,
  counterRow "FCD counters of R224" .fcd 0x810 [] 4,
  counterRow "SPUR counters" .hub 0x420 [] 7,
  counterRow "MC counters" .hub 0x30100 [(0x400, 8)] 9,
  counterRow "DM counters" .hub 0x40040 [(0x100, 16)] 5,
  counterRow "HUB_EVR counts" .hub 0x70080 [(0x100, 64)] 3,
  counterRow "HUB_EVR_AO counts" .hub 0x74080 [(0x100, 2)] 3]

/-- What a CNT_CLEAR field clears: the register's block and offset, its bit, the distance from the register to the first counter
and how many 32-bit counters there are. CNT_CLEAR fields that clear fields of their own register are in `clearFields`. -/
def cntClearTable : List (Place × Nat × Nat × Nat × Nat) := [
  (.hub, 0x10000, 27, 0x40, 9), (.fcd, 0x400, 27, 0x40, 9), (.hub, 0x50000, 27, 0x40, 9),
  (.hub, 0x110a0, 31, 0x20, 8), (.fcd, 0x6a0, 31, 0x20, 8), (.hub, 0x510a0, 31, 0x20, 8),
  (.hub, 0x20000, 31, 0x40, 8), (.hub, 0x20010, 31, 0x70, 8), (.hub, 0x20020, 63, 0x80, 8),
  (.fcd, 0x800, 31, 0x10, 4), (.hub, 0x418, 9, 0x8, 7), (.hub, 0x30010, 47, 0xF0, 9),
  (.hub, 0x40000, 31, 0x40, 5)]

/-- CNT_CLEAR fields that clear fields of their own register: block, offset, bit, the fields cleared (R270, R327, R477). -/
def clearFields : List (Place × Nat × Nat × List Fld) := [
  (.fcd, 0xa00, 31, [⟨15, 0⟩]), (.hub, 0x508, 0, [⟨63, 32⟩, ⟨31, 16⟩]),
  (.hub, 0x490000, 7, [⟨63, 48⟩, ⟨47, 32⟩])]

def regRows0 : List RegRow := [
  ⟨"HUB_HOME_GROUP", .hub, 0x1000, [(0x8, 32)], 64, 0x0, [⟨"PKG", 58, 56, .rwl, false⟩, ⟨"QMASK", 55, 52, .rwl, false⟩, ⟨"BASE", 51, 30, .rwl, false⟩, ⟨"PART", 17, 16, .rwl, false⟩, ⟨"SIZE_GIB", 15, 0, .rwl, false⟩]⟩,
  ⟨"HUB_LOCK", .hub, 0x20, [], 32, 0x0, [⟨"LOCK", 0, 0, .ro, false⟩]⟩,
  ⟨"FCD_LOCK", .fcd, 0x20, [], 32, 0x0, [⟨"LOCK", 0, 0, .ro, false⟩]⟩,
  ⟨"TH_MBX_DOORBELL", .page, 0x0, [], 32, 0x0, [⟨"ABORT", 1, 1, .wo, false⟩, ⟨"RING", 0, 0, .wo, false⟩]⟩,
  ⟨"TH_MBX_STATE", .page, 0x8, [], 32, 0x0, [⟨"LAST_SEQ", 31, 16, .ro, false⟩, ⟨"HAVE_LAST", 4, 4, .ro, false⟩, ⟨"IRQ_PENDING", 3, 3, .rw1c, false⟩, ⟨"OVERRUN", 2, 2, .rw1c, false⟩, ⟨"STATE", 1, 0, .ro, false⟩]⟩,
  ⟨"TH_MBX_REQ_HDR0", .page, 0x20, [], 64, 0x0, [⟨"FLAGS", 63, 48, .rw, false⟩, ⟨"LENGTH", 47, 32, .rw, false⟩, ⟨"SEQUENCE", 31, 16, .rw, false⟩, ⟨"COMMAND", 15, 0, .rw, false⟩]⟩,
  ⟨"TH_MBX_REQ_HDR1", .page, 0x28, [], 64, 0x0, [⟨"HANDLE", 31, 0, .rw, false⟩]⟩,
  ⟨"TH_MBX_RSP_HDR0", .page, 0x30, [], 64, 0x0, [⟨"DETAIL", 63, 48, .ro, false⟩, ⟨"LENGTH", 47, 32, .ro, false⟩, ⟨"SEQUENCE", 31, 16, .ro, false⟩, ⟨"STATUS", 15, 0, .ro, false⟩]⟩,
  ⟨"TH_MBX_RSP_HDR1", .page, 0x38, [], 64, 0x0, [⟨"HANDLE", 31, 0, .ro, false⟩]⟩,
  ⟨"TH_MBX_MSI", .page, 0x40, [], 64, 0x0, [⟨"DATA", 55, 44, .rw, false⟩, ⟨"ADDR", 39, 0, .rw, false⟩]⟩,
  ⟨"HUB_MILEPOST_DIES", .hub, 0x200, [], 32, 0x0, [⟨"HOME", 8, 8, .ro, false⟩, ⟨"CAUSEWAY", 7, 7, .ro, false⟩, ⟨"SPUR", 6, 6, .ro, false⟩, ⟨"DIE", 5, 0, .ro, false⟩]⟩,
  ⟨"HUB_MILEPOST_IO", .hub, 0x208, [], 32, 0x0, [⟨"HWY", 25, 24, .ro, false⟩, ⟨"ROOT_PORT", 23, 8, .ro, false⟩, ⟨"CHANNEL", 7, 0, .ro, false⟩]⟩,
  ⟨"HUB_MILEPOST_DM", .hub, 0x210, [], 32, 0x0, [⟨"ENGINE", 15, 0, .ro, false⟩]⟩,
  ⟨"HUB_MILEPOST_TH", .hub, 0x218, [], 32, 0x0, [⟨"CACHE", 11, 11, .ro, false⟩, ⟨"WORLD", 10, 10, .ro, false⟩, ⟨"LINK", 9, 9, .ro, false⟩, ⟨"FABRIC", 8, 8, .ro, false⟩, ⟨"ENDPOINT", 7, 7, .ro, false⟩, ⟨"DATA_MOVER", 6, 6, .ro, false⟩, ⟨"EVENT", 5, 5, .ro, false⟩, ⟨"POWER", 4, 4, .ro, false⟩, ⟨"PARTITION", 3, 3, .ro, false⟩, ⟨"MEMORY", 2, 2, .ro, false⟩, ⟨"MAILBOX", 1, 1, .ro, false⟩, ⟨"FIRMWARE", 0, 0, .ro, false⟩]⟩]

def regRows1 : List RegRow := [
  ⟨"FCD_MILEPOST", .fcd, 0x100, [], 32, 0x0, [⟨"FEEDER", 21, 21, .ro, false⟩, ⟨"RING", 20, 20, .ro, false⟩, ⟨"CORE", 19, 0, .ro, false⟩]⟩,
  ⟨"HUB_LINK_CTRL", .hub, 0x10000, [(0x0100, 8)], 32, 0x321480, [⟨"RESTART", 28, 28, .wo, true⟩, ⟨"CNT_CLEAR", 27, 27, .wo, true⟩, ⟨"TAKE_DOWN", 26, 26, .wo, true⟩, ⟨"RETRAIN", 25, 25, .wo, true⟩, ⟨"START", 24, 24, .wo, true⟩, ⟨"TRAIN_TIMEOUT", 23, 16, .rw, true⟩, ⟨"RETRY_TIMER", 15, 8, .rw, true⟩, ⟨"RETRY_LIMIT", 7, 4, .rw, true⟩, ⟨"SEGMENT", 3, 2, .rw, true⟩, ⟨"WIDTH_CAP", 1, 0, .rw, true⟩]⟩,
  ⟨"HUB_LINK_STATUS", .hub, 0x10008, [(0x0100, 8)], 32, 0x0, [⟨"LAST_RETRAIN_CAUSE", 27, 24, .ro, false⟩, ⟨"LAST_TRAIN_FAIL", 23, 20, .ro, false⟩, ⟨"DOWN_REASON", 19, 16, .ro, false⟩, ⟨"FAILED_ATTEMPTS", 9, 8, .ro, false⟩, ⟨"RESUMED", 7, 7, .ro, false⟩, ⟨"SEGMENT", 6, 5, .ro, false⟩, ⟨"WIDTH", 4, 3, .ro, false⟩, ⟨"STATE", 2, 0, .ro, false⟩]⟩,
  ⟨"HUB_LINK_LANE_TEST", .hub, 0x10010, [(0x0100, 8)], 64, 0x0, [⟨"PARTNER_QFAIL", 47, 44, .ro, false⟩, ⟨"PARTNER_QTESTED", 43, 40, .ro, false⟩, ⟨"QFAIL", 39, 36, .ro, false⟩, ⟨"QTESTED", 35, 32, .ro, false⟩, ⟨"FAIL_COUNT", 26, 16, .ro, false⟩, ⟨"FIRST_FAIL_LANE", 9, 0, .ro, false⟩]⟩,
  ⟨"HUB_LINK_EPOCH", .hub, 0x10018, [(0x0100, 8)], 32, 0x0, [⟨"EPOCH", 31, 16, .ro, false⟩, ⟨"REPLAY_OCC", 9, 0, .ro, false⟩]⟩,
  ⟨"HUB_LINK_ERR", .hub, 0x10020, [(0x0100, 8)], 32, 0x0, [⟨"CAP_INVALID", 8, 8, .rw1c, false⟩, ⟨"HDR_FAULT", 7, 7, .rw1c, false⟩, ⟨"EPOCH_NEW", 6, 6, .rw1c, false⟩, ⟨"LINK_DOWN", 5, 5, .rw1c, false⟩, ⟨"TRAIN_FAIL", 4, 4, .rw1c, false⟩, ⟨"SEQ_FAULT", 3, 3, .rw1c, false⟩, ⟨"WIDTH_MISMATCH", 2, 2, .rw1c, false⟩, ⟨"RETRY_LIMIT", 1, 1, .rw1c, false⟩, ⟨"CRC_RATE", 0, 0, .rw1c, false⟩]⟩,
  ⟨"HUB_LINK_CRC_LIMIT", .hub, 0x10028, [(0x0100, 8)], 32, 0x3e8, [⟨"THRESHOLD", 15, 0, .rw, true⟩]⟩,
  ⟨"HUB_TOLL_TX", .hub, 0x11000, [(0x0100, 8), (0x18, 6)], 64, 0x0, [⟨"DATA_ALLOT", 59, 48, .ro, false⟩, ⟨"DATA_HELD", 43, 32, .ro, false⟩, ⟨"HDR_ALLOT", 27, 16, .ro, false⟩, ⟨"HDR_HELD", 11, 0, .ro, false⟩]⟩,
  ⟨"HUB_TOLL_RX", .hub, 0x11008, [(0x0100, 8), (0x18, 6)], 64, 0x0, [⟨"DATA_PEND", 59, 48, .ro, false⟩, ⟨"DATA_OCC", 43, 32, .ro, false⟩, ⟨"HDR_PEND", 27, 16, .ro, false⟩, ⟨"HDR_OCC", 11, 0, .ro, false⟩]⟩,
  ⟨"HUB_TOLL_FLOW", .hub, 0x11010, [(0x0100, 8), (0x18, 6)], 64, 0x0, [⟨"DATA_RETURNED", 63, 48, .ro, false⟩, ⟨"DATA_SPENT", 47, 32, .ro, false⟩, ⟨"HDR_RETURNED", 31, 16, .ro, false⟩, ⟨"HDR_SPENT", 15, 0, .ro, false⟩]⟩,
  ⟨"HUB_MSG_ERR", .hub, 0x110a0, [(0x0100, 8)], 32, 0x0, [⟨"CNT_CLEAR", 31, 31, .wo, true⟩, ⟨"BAD_CHANNEL", 7, 7, .rw1c, false⟩, ⟨"SRC_FAULT", 6, 6, .rw1c, false⟩, ⟨"BAD_DEST", 5, 5, .rw1c, false⟩, ⟨"UNKNOWN_TAG", 4, 4, .rw1c, false⟩, ⟨"BAD_OPCODE", 3, 3, .rw1c, false⟩, ⟨"FRAME_FAULT", 2, 2, .rw1c, false⟩, ⟨"LEDGER_FAULT", 1, 1, .rw1c, false⟩, ⟨"NO_TOLL", 0, 0, .rw1c, false⟩]⟩,
  ⟨"HUB_COH_CTRL", .hub, 0x300, [], 32, 0x3, [⟨"SC_F_DIRECT", 1, 1, .rw, true⟩, ⟨"SPEC_MEM_READ", 0, 0, .rw, true⟩]⟩,
  ⟨"HUB_SLICE_SF_STAT", .hub, 0x20000, [(0x0100, 32)], 32, 0x0, [⟨"CNT_CLEAR", 31, 31, .wo, true⟩, ⟨"BACKINV_ACTIVE", 25, 18, .ro, false⟩, ⟨"VALID_ENTRIES", 17, 0, .ro, false⟩]⟩,
  ⟨"HUB_JCT_TIMEOUT", .hub, 0x310, [], 32, 0x280a, [⟨"DIE_ANSWER", 15, 8, .rw, true⟩, ⟨"GUEST_ANSWER", 7, 0, .rw, true⟩]⟩]

def regRows2 : List RegRow := [
  ⟨"HUB_JCT_LOST", .hub, 0x318, [], 64, 0x0, [⟨"DROPPED", 63, 32, .ro, false⟩, ⟨"LAST_CAUSE", 31, 30, .ro, false⟩, ⟨"SCRUB", 29, 16, .ro, false⟩, ⟨"FAR_HUB", 14, 14, .ro, false⟩, ⟨"LOST", 13, 0, .ro, false⟩]⟩,
  ⟨"HUB_SLICE_JCT_STAT", .hub, 0x20010, [(0x0100, 32)], 32, 0x0, [⟨"CNT_CLEAR", 31, 31, .wo, true⟩, ⟨"TRACKERS_ACTIVE", 23, 12, .ro, false⟩, ⟨"WAITING", 11, 0, .ro, false⟩]⟩,
  ⟨"FCD_REQ_TIMEOUT", .fcd, 0x800, [], 32, 0x140a, [⟨"CNT_CLEAR", 31, 31, .wo, true⟩, ⟨"QUARANTINED", 27, 16, .ro, false⟩, ⟨"FWD_WAIT", 15, 8, .rw, true⟩, ⟨"REQ_LIMIT", 7, 0, .rw, true⟩]⟩,
  ⟨"SPUR_GUEST_CTRL", .hub, 0x400, [], 32, 0x100, [⟨"ASSIGNED", 19, 19, .rwl, true⟩, ⟨"PART", 17, 16, .rwl, true⟩, ⟨"RESET", 8, 8, .rw, true⟩, ⟨"SECURE_OK", 4, 4, .rwl, true⟩, ⟨"CLASS_ALLOW", 1, 0, .rwl, true⟩]⟩,
  ⟨"SPUR_BRINGUP", .hub, 0x408, [], 32, 0x0, [⟨"REVISION", 19, 16, .ro, false⟩, ⟨"CLASS", 8, 8, .ro, false⟩, ⟨"OFFER_FAULT", 4, 4, .ro, false⟩, ⟨"FAULT_VC", 3, 1, .ro, false⟩, ⟨"OFFER_SEEN", 0, 0, .ro, false⟩]⟩,
  ⟨"SPUR_VIOL_LIMIT", .hub, 0x410, [], 32, 0x1000010, [⟨"DOWN_AT", 31, 16, .rw, true⟩, ⟨"WARN_AT", 15, 0, .rw, true⟩]⟩,
  ⟨"SPUR_VIOL_STATUS", .hub, 0x418, [], 32, 0x0, [⟨"COUNT", 31, 16, .ro, false⟩, ⟨"DOWN_CAUSE", 15, 12, .ro, false⟩, ⟨"DOWN", 11, 11, .rw1c, false⟩, ⟨"WARN", 10, 10, .rw1c, false⟩, ⟨"CNT_CLEAR", 9, 9, .wo, true⟩, ⟨"ORPHANS", 8, 0, .ro, false⟩]⟩,
  ⟨"FCD_CORE_DRAIN", .fcd, 0xa00, [(0x8, 20)], 32, 0x0, [⟨"CNT_CLEAR", 31, 31, .wo, true⟩, ⟨"LAST_DRAIN", 24, 16, .ro, false⟩, ⟨"DISCARDED", 15, 0, .ro, false⟩]⟩,
  ⟨"HUB_SC_CTRL", .hub, 0x320, [], 32, 0x80101, [⟨"NL_MIN_FREE", 23, 16, .rw, true⟩, ⟨"CLEAN_MIN_REUSE", 9, 8, .rw, true⟩, ⟨"NL_ENABLE", 0, 0, .rw, true⟩]⟩,
  ⟨"HUB_SC_LOCK", .hub, 0x328, [], 32, 0x0, [⟨"WAYS_HI", 7, 4, .ro, false⟩, ⟨"WAYS_LO", 3, 0, .ro, false⟩]⟩,
  ⟨"HUB_SLICE_SC_STAT", .hub, 0x20020, [(0x0100, 32)], 64, 0x0, [⟨"CNT_CLEAR", 63, 63, .wo, true⟩, ⟨"DIRTY_LINES", 49, 32, .ro, false⟩, ⟨"VALID_LINES", 17, 0, .ro, false⟩]⟩,
  ⟨"HUB_WORLD_REGION_BASE", .hub, 0x2000, [(0x10, 64)], 64, 0x0, [⟨"ENABLE", 63, 63, .ro, false⟩, ⟨"PART_MASK", 59, 56, .ro, false⟩, ⟨"BASE", 51, 12, .ro, false⟩]⟩,
  ⟨"HUB_WORLD_REGION_SIZE", .hub, 0x2008, [(0x10, 64)], 64, 0x0, [⟨"PAGES", 39, 0, .ro, false⟩]⟩,
  ⟨"HUB_WORLD_CTRL", .hub, 0x500, [], 32, 0x0, [⟨"COUNT_SECURE", 0, 0, .rw, true⟩]⟩]

def regRows3 : List RegRow := [
  ⟨"HUB_WORLD_STAT", .hub, 0x508, [], 64, 0x0, [⟨"DENIED", 63, 32, .ro, false⟩, ⟨"PWR_REFUSED", 31, 16, .ro, false⟩, ⟨"CNT_CLEAR", 0, 0, .wo, true⟩]⟩,
  ⟨"HUB_PIN_WORLD", .hub, 0x510, [], 32, 0x0, [⟨"SECURE", 31, 0, .ro, false⟩]⟩,
  ⟨"MC_CONFIG", .hub, 0x30000, [(0x0400, 8)], 32, 0x0, [⟨"SPEED_MTS", 31, 16, .ro, false⟩, ⟨"LRANKS", 15, 12, .ro, false⟩, ⟨"STACK", 9, 8, .ro, false⟩, ⟨"PRANKS", 6, 6, .ro, false⟩, ⟨"DENSITY", 5, 5, .ro, false⟩, ⟨"DPC", 4, 4, .ro, false⟩, ⟨"TYPE", 3, 2, .ro, false⟩]⟩,
  ⟨"MC_SCHED", .hub, 0x30008, [(0x0400, 8)], 32, 0x20602001, [⟨"OPEN_TIMER", 31, 24, .rw, true⟩, ⟨"WQ_HIGH", 23, 16, .rw, true⟩, ⟨"WQ_LOW", 15, 8, .rw, true⟩, ⟨"PAGE_POLICY", 0, 0, .rw, true⟩]⟩,
  ⟨"MC_MAINT", .hub, 0x30010, [(0x0400, 8)], 64, 0x1840000000000000, [⟨"SCRUB_HOURS", 63, 56, .rw, true⟩, ⟨"INTERVAL", 55, 48, .rw, true⟩, ⟨"CNT_CLEAR", 47, 47, .wo, true⟩, ⟨"DRIFT_ALARM", 40, 40, .rw1c, false⟩, ⟨"LAST_PAUSE", 39, 32, .ro, false⟩, ⟨"RATE_2X", 12, 12, .ro, false⟩, ⟨"POSTPONED", 11, 8, .ro, false⟩, ⟨"FGR", 0, 0, .rw, true⟩]⟩,
  ⟨"MC_FREEZE_STATUS", .hub, 0x30018, [(0x0400, 8)], 64, 0x0, [⟨"MORE_ERRORS", 63, 48, .ro, false⟩, ⟨"RQ_CAPTURED", 40, 32, .ro, false⟩, ⟨"WQ_HELD", 31, 24, .ro, false⟩, ⟨"CAUSE", 3, 1, .ro, false⟩, ⟨"FROZEN", 0, 0, .ro, false⟩]⟩,
  ⟨"MC_FREEZE_ADDR", .hub, 0x30020, [(0x0400, 8)], 64, 0x0, [⟨"VALID", 63, 63, .ro, false⟩, ⟨"RANK", 55, 52, .ro, false⟩, ⟨"BG", 51, 49, .ro, false⟩, ⟨"BA", 48, 47, .ro, false⟩, ⟨"SUBCHANNEL", 46, 46, .ro, false⟩, ⟨"ROW", 45, 29, .ro, false⟩, ⟨"COLUMN", 28, 18, .ro, false⟩]⟩,
  ⟨"MC_QOS_TARGET_LO", .hub, 0x600, [], 64, 0x2828282828282828, [⟨"TARGET_0", 7, 0, .rw, true⟩, ⟨"TARGET_1", 15, 8, .rw, true⟩, ⟨"TARGET_2", 23, 16, .rw, true⟩, ⟨"TARGET_3", 31, 24, .rw, true⟩, ⟨"TARGET_4", 39, 32, .rw, true⟩, ⟨"TARGET_5", 47, 40, .rw, true⟩, ⟨"TARGET_6", 55, 48, .rw, true⟩, ⟨"TARGET_7", 63, 56, .rw, true⟩]⟩,
  ⟨"MC_QOS_TARGET_HI", .hub, 0x608, [], 64, 0x3cc864, [⟨"TARGET_12", 39, 32, .rw, true⟩, ⟨"TARGET_11", 31, 24, .rw, true⟩, ⟨"TARGET_10", 23, 16, .rw, true⟩, ⟨"TARGET_9", 15, 8, .rw, true⟩, ⟨"TARGET_8", 7, 0, .rw, true⟩]⟩,
  ⟨"HUB_CLK_STATUS", .hub, 0x700, [], 32, 0x0, [⟨"FALLBACK_OK", 11, 11, .ro, false⟩, ⟨"PRIMARY_OK", 10, 10, .ro, false⟩, ⟨"SOURCE", 9, 8, .ro, false⟩, ⟨"HOLDOVER_EXPIRED", 3, 3, .rw1c, false⟩, ⟨"SWITCHED", 2, 2, .rw1c, false⟩, ⟨"PLL_UNLOCK", 1, 1, .rw1c, false⟩, ⟨"REF_LOST", 0, 0, .rw1c, false⟩]⟩,
  ⟨"HUB_SPLIT_STATUS", .hub, 0x708, [], 64, 0x0, [⟨"ENTRY_TIME", 63, 32, .ro, false⟩, ⟨"SPLIT", 8, 8, .ro, false⟩, ⟨"CAUSE", 3, 2, .ro, false⟩, ⟨"SPLIT_SEEN", 0, 0, .rw1c, false⟩]⟩,
  ⟨"HUB_PART_STATE", .hub, 0x710, [], 32, 0x0, [⟨"OWNER", 31, 24, .ro, false⟩, ⟨"IN_USE", 23, 20, .ro, false⟩, ⟨"MODE", 15, 8, .ro, false⟩, ⟨"STATE", 7, 0, .ro, false⟩]⟩,
  ⟨"FCD_RESET_STATUS", .fcd, 0xc08, [], 32, 0xfffff, [⟨"LAST_SCOPE", 26, 24, .ro, false⟩, ⟨"EVACUATED", 20, 20, .ro, false⟩, ⟨"CORE_HELD", 19, 0, .ro, false⟩]⟩,
  ⟨"HUB_PWR_CTRL", .hubN, 0x800, [], 32, 0xa013205, [⟨"ENTRY_LIMIT", 31, 24, .rw, true⟩, ⟨"RETRY_INTERVAL", 23, 16, .rw, true⟩, ⟨"IDLE_DWELL", 15, 8, .rw, true⟩, ⟨"PKG_CEILING", 2, 0, .ro, false⟩]⟩]

def regRows4 : List RegRow := [
  ⟨"HUB_PWR_STATUS", .hubN, 0x808, [], 64, 0x0, [⟨"WAKE_SOURCE", 55, 52, .ro, false⟩, ⟨"IMMEDIATE", 51, 51, .rw1c, false⟩, ⟨"CODE", 47, 40, .ro, false⟩, ⟨"BLOCK_INDEX", 39, 32, .ro, false⟩, ⟨"BLOCK_KIND", 31, 28, .ro, false⟩, ⟨"LAST_OUTCOME", 22, 20, .ro, false⟩, ⟨"LAST_TARGET", 18, 16, .ro, false⟩, ⟨"STATE", 2, 0, .ro, false⟩]⟩,
  ⟨"HUB_WAKE_CTRL", .hub, 0x810, [], 32, 0x1ff, [⟨"PINS", 8, 8, .rw, true⟩, ⟨"HIGHWAY", 7, 7, .rw, true⟩, ⟨"PCIE_INBAND", 6, 6, .rw, true⟩, ⟨"PCIE_WAKE", 5, 5, .rw, true⟩, ⟨"TIMER", 4, 4, .rw, true⟩, ⟨"IMSIC", 3, 3, .rw, true⟩, ⟨"APLIC", 2, 2, .rw, true⟩, ⟨"ADDR_PLATFORM", 1, 1, .rw, true⟩, ⟨"ADDR_BMC", 0, 0, .rw, true⟩]⟩,
  ⟨"HUB_WAKE_PINS", .hub, 0x818, [], 64, 0x0, [⟨"EDGE", 63, 32, .rw, false⟩, ⟨"ENABLE", 31, 0, .rw, false⟩]⟩,
  ⟨"HUB_WAKE_TIMER", .hub, 0x820, [], 64, 0xffffffffffffffff, [⟨"COMPARE", 63, 0, .rw, true⟩]⟩,
  ⟨"DM_CH_DOORBELL", .hub, 0x2000000, [(0x1000, 2048)], 32, 0x0, [⟨"TAIL", 31, 0, .rw, false⟩]⟩,
  ⟨"DM_CH_CTRL", .hub, 0x2000008, [(0x1000, 2048)], 32, 0x0, [⟨"SKIP", 3, 3, .wo, false⟩, ⟨"RESTART", 2, 2, .wo, false⟩, ⟨"RUN", 1, 1, .wo, false⟩, ⟨"STOP", 0, 0, .wo, false⟩]⟩,
  ⟨"DM_CH_STATUS", .hub, 0x2000010, [(0x1000, 2048)], 64, 0x0, [⟨"HEAD", 63, 32, .ro, false⟩, ⟨"ERROR", 31, 24, .ro, false⟩, ⟨"DIRTY_LOG", 16, 16, .ro, false⟩, ⟨"STATE", 3, 0, .ro, false⟩]⟩,
  ⟨"DM_CH_RING", .hub, 0x2000018, [(0x1000, 2048)], 64, 0x0, [⟨"BASE", 63, 12, .rw, false⟩, ⟨"ORDER", 4, 0, .rw, false⟩]⟩,
  ⟨"DM_CH_MSI_ADDR", .hub, 0x2000020, [(0x1000, 2048)], 64, 0x0, [⟨"ADDR", 63, 2, .rw, false⟩, ⟨"ENABLE", 0, 0, .rw, false⟩]⟩,
  ⟨"DM_CH_MSI_DATA", .hub, 0x2000028, [(0x1000, 2048)], 32, 0x0, [⟨"DATA", 31, 0, .rw, false⟩]⟩,
  ⟨"DM_ENG_STATUS", .hub, 0x40000, [(0x0100, 16)], 32, 0x0, [⟨"CNT_CLEAR", 31, 31, .wo, true⟩, ⟨"CLAIMED", 27, 27, .ro, false⟩, ⟨"CHANNELS", 26, 16, .ro, false⟩, ⟨"TAGS", 8, 0, .ro, false⟩]⟩,
  ⟨"HUB_HPW_BASE", .hub, 0x3000, [(0x10, 64)], 64, 0x0, [⟨"ENABLE", 63, 63, .rw, false⟩, ⟨"KIND", 59, 58, .rw, false⟩, ⟨"PORT", 55, 52, .rw, false⟩, ⟨"BASE", 51, 12, .rw, false⟩]⟩,
  ⟨"HUB_HPW_SIZE", .hub, 0x3008, [(0x10, 64)], 64, 0x0, [⟨"PAGES", 39, 0, .rw, false⟩]⟩,
  ⟨"EP_WIN_STG_LO", .hub, 0x400400, [(0x800, 256), (0x10, 64)], 64, 0x0, [⟨"VALID", 63, 63, .rw, true⟩, ⟨"GRANULE", 62, 58, .rw, true⟩, ⟨"PART", 55, 54, .rw, true⟩, ⟨"TARGET", 51, 12, .rw, true⟩]⟩]

def regRows5 : List RegRow := [
  ⟨"EP_WIN_STG_HI", .hub, 0x400408, [(0x800, 256), (0x10, 64)], 64, 0x0, [⟨"OFFSET", 39, 12, .rw, true⟩]⟩,
  ⟨"EP_WIN_COMMIT", .hub, 0x480000, [(0x8, 256)], 64, 0x0, [⟨"COMMITS", 63, 32, .ro, false⟩, ⟨"FAULT_INDEX", 13, 8, .ro, false⟩, ⟨"RESULT", 5, 4, .ro, false⟩, ⟨"PENDING", 1, 1, .ro, false⟩, ⟨"COMMIT", 0, 0, .wo, true⟩]⟩,
  ⟨"EP_STATUS", .hub, 0x490000, [], 64, 0x0, [⟨"UNMAPPED", 63, 48, .ro, false⟩, ⟨"ACT_WRITES", 47, 32, .ro, false⟩, ⟨"NUM_VFS", 31, 24, .ro, false⟩, ⟨"TAGS_IN_USE", 20, 8, .ro, false⟩, ⟨"CNT_CLEAR", 7, 7, .wo, true⟩, ⟨"VF_ENABLE", 3, 3, .ro, false⟩, ⟨"CXL_MEM", 2, 2, .ro, false⟩, ⟨"LINK_UP", 1, 1, .ro, false⟩, ⟨"ENDPOINT", 0, 0, .ro, false⟩]⟩,
  ⟨"HWY_ROUTE", .hub, 0x60000, [(0x8, 256)], 32, 0x0, [⟨"ALT1", 7, 4, .ro, false⟩, ⟨"ALT0", 3, 0, .ro, false⟩]⟩,
  ⟨"HWY_FABRIC_CTRL", .hub, 0x900, [], 32, 0x555a0000, [⟨"PROXY_ANSWER", 31, 24, .rw, true⟩, ⟨"REMOTE_WAIT", 23, 16, .rw, true⟩]⟩,
  ⟨"HWY_FABRIC_STATUS", .hub, 0x908, [], 64, 0x0, [⟨"LOST", 63, 56, .ro, false⟩, ⟨"FAB_SCRUB", 55, 48, .ro, false⟩, ⟨"DIRECT", 47, 40, .ro, false⟩, ⟨"MEMBERS", 39, 32, .ro, false⟩, ⟨"COORDINATOR", 26, 24, .ro, false⟩, ⟨"ALT", 20, 20, .ro, false⟩, ⟨"TOPOLOGY", 17, 16, .ro, false⟩, ⟨"FAIL_REASON", 15, 12, .ro, false⟩, ⟨"FORMED", 8, 8, .ro, false⟩, ⟨"PKG", 2, 0, .ro, false⟩]⟩,
  ⟨"HWY_WAVE_STATUS", .hub, 0x910, [], 64, 0x0, [⟨"LEDGER_FAULTS", 63, 48, .ro, false⟩, ⟨"DIGEST_MISMATCHES", 47, 32, .ro, false⟩, ⟨"WAVE", 31, 16, .ro, false⟩, ⟨"RESULT", 9, 8, .ro, false⟩, ⟨"STATE", 1, 0, .ro, false⟩]⟩,
  ⟨"HUB_EVR_STATUS", .hub, 0x70000, [(0x0100, 64)], 64, 0x0, [⟨"WIN_VALID", 47, 40, .ro, false⟩, ⟨"HELD", 36, 16, .ro, false⟩, ⟨"CAP_LOG2", 12, 8, .ro, false⟩, ⟨"LAYBY_FAULT", 6, 6, .rw1c, false⟩, ⟨"OVERFLOW", 5, 5, .rw1c, false⟩, ⟨"KIND", 1, 1, .ro, false⟩, ⟨"CREATED", 0, 0, .ro, false⟩]⟩,
  ⟨"HUB_EVR_CTRL", .hub, 0x70008, [(0x0100, 64)], 32, 0x0, [⟨"THRESHOLD", 31, 11, .rw, false⟩, ⟨"TAKE", 0, 0, .wo, false⟩]⟩,
  ⟨"HUB_EVR_MSI", .hub, 0x70010, [(0x0100, 64)], 64, 0x0, [⟨"DATA", 55, 44, .rw, false⟩, ⟨"ADDR", 39, 0, .rw, false⟩]⟩,
  ⟨"HUB_EVR_WIN", .hub, 0x70040, [(0x0100, 64), (0x8, 8)], 64, 0x0, [⟨"WORD", 63, 0, .ro, false⟩]⟩,
  ⟨"HUB_ERR_STATUS", .hub, 0xa00, [], 32, 0x0, [⟨"PATH_LOST", 31, 16, .ro, false⟩, ⟨"WAVE_FAULT", 3, 3, .rw1c, false⟩, ⟨"SC_TAG_UE", 2, 2, .rw1c, false⟩, ⟨"CATCHALL", 1, 1, .rw1c, false⟩]⟩,
  ⟨"FCD_FEEDER_CTRL", .fcd, 0x400, [], 32, 0x321480, [⟨"RESTART", 28, 28, .wo, true⟩, ⟨"CNT_CLEAR", 27, 27, .wo, true⟩, ⟨"TAKE_DOWN", 26, 26, .wo, true⟩, ⟨"RETRAIN", 25, 25, .wo, true⟩, ⟨"START", 24, 24, .wo, true⟩, ⟨"TRAIN_TIMEOUT", 23, 16, .rw, true⟩, ⟨"RETRY_TIMER", 15, 8, .rw, true⟩, ⟨"RETRY_LIMIT", 7, 4, .rw, true⟩, ⟨"SEGMENT", 3, 2, .rw, true⟩, ⟨"WIDTH_CAP", 1, 0, .rw, true⟩]⟩,
  ⟨"HWY_LINK_CTRL", .hub, 0x50000, [(0x100, 2)], 32, 0x321480, [⟨"RESTART", 28, 28, .wo, true⟩, ⟨"CNT_CLEAR", 27, 27, .wo, true⟩, ⟨"TAKE_DOWN", 26, 26, .wo, true⟩, ⟨"RETRAIN", 25, 25, .wo, true⟩, ⟨"START", 24, 24, .wo, true⟩, ⟨"TRAIN_TIMEOUT", 23, 16, .rw, true⟩, ⟨"RETRY_TIMER", 15, 8, .rw, true⟩, ⟨"RETRY_LIMIT", 7, 4, .rw, true⟩, ⟨"SEGMENT", 3, 2, .rw, true⟩, ⟨"WIDTH_CAP", 1, 0, .rw, true⟩]⟩]

def regRows6 : List RegRow := [
  ⟨"FCD_FEEDER_STATUS", .fcd, 0x408, [], 32, 0x0, [⟨"LAST_RETRAIN_CAUSE", 27, 24, .ro, false⟩, ⟨"LAST_TRAIN_FAIL", 23, 20, .ro, false⟩, ⟨"DOWN_REASON", 19, 16, .ro, false⟩, ⟨"FAILED_ATTEMPTS", 9, 8, .ro, false⟩, ⟨"RESUMED", 7, 7, .ro, false⟩, ⟨"SEGMENT", 6, 5, .ro, false⟩, ⟨"WIDTH", 4, 3, .ro, false⟩, ⟨"STATE", 2, 0, .ro, false⟩]⟩,
  ⟨"HWY_LINK_STATUS", .hub, 0x50008, [(0x100, 2)], 32, 0x0, [⟨"LAST_RETRAIN_CAUSE", 27, 24, .ro, false⟩, ⟨"LAST_TRAIN_FAIL", 23, 20, .ro, false⟩, ⟨"DOWN_REASON", 19, 16, .ro, false⟩, ⟨"FAILED_ATTEMPTS", 9, 8, .ro, false⟩, ⟨"RESUMED", 7, 7, .ro, false⟩, ⟨"SEGMENT", 6, 5, .ro, false⟩, ⟨"WIDTH", 4, 3, .ro, false⟩, ⟨"STATE", 2, 0, .ro, false⟩]⟩,
  ⟨"FCD_FEEDER_LANE_TEST", .fcd, 0x410, [], 64, 0x0, [⟨"PARTNER_QFAIL", 47, 44, .ro, false⟩, ⟨"PARTNER_QTESTED", 43, 40, .ro, false⟩, ⟨"QFAIL", 39, 36, .ro, false⟩, ⟨"QTESTED", 35, 32, .ro, false⟩, ⟨"FAIL_COUNT", 26, 16, .ro, false⟩, ⟨"FIRST_FAIL_LANE", 9, 0, .ro, false⟩]⟩,
  ⟨"HWY_LINK_LANE_TEST", .hub, 0x50010, [(0x100, 2)], 64, 0x0, [⟨"PARTNER_QFAIL", 47, 44, .ro, false⟩, ⟨"PARTNER_QTESTED", 43, 40, .ro, false⟩, ⟨"QFAIL", 39, 36, .ro, false⟩, ⟨"QTESTED", 35, 32, .ro, false⟩, ⟨"FAIL_COUNT", 26, 16, .ro, false⟩, ⟨"FIRST_FAIL_LANE", 9, 0, .ro, false⟩]⟩,
  ⟨"FCD_FEEDER_EPOCH", .fcd, 0x418, [], 32, 0x0, [⟨"EPOCH", 31, 16, .ro, false⟩, ⟨"REPLAY_OCC", 9, 0, .ro, false⟩]⟩,
  ⟨"HWY_LINK_EPOCH", .hub, 0x50018, [(0x100, 2)], 32, 0x0, [⟨"EPOCH", 31, 16, .ro, false⟩, ⟨"REPLAY_OCC", 9, 0, .ro, false⟩]⟩,
  ⟨"FCD_FEEDER_ERR", .fcd, 0x420, [], 32, 0x0, [⟨"CAP_INVALID", 8, 8, .rw1c, false⟩, ⟨"HDR_FAULT", 7, 7, .rw1c, false⟩, ⟨"EPOCH_NEW", 6, 6, .rw1c, false⟩, ⟨"LINK_DOWN", 5, 5, .rw1c, false⟩, ⟨"TRAIN_FAIL", 4, 4, .rw1c, false⟩, ⟨"SEQ_FAULT", 3, 3, .rw1c, false⟩, ⟨"WIDTH_MISMATCH", 2, 2, .rw1c, false⟩, ⟨"RETRY_LIMIT", 1, 1, .rw1c, false⟩, ⟨"CRC_RATE", 0, 0, .rw1c, false⟩]⟩,
  ⟨"HWY_LINK_ERR", .hub, 0x50020, [(0x100, 2)], 32, 0x0, [⟨"CAP_INVALID", 8, 8, .rw1c, false⟩, ⟨"HDR_FAULT", 7, 7, .rw1c, false⟩, ⟨"EPOCH_NEW", 6, 6, .rw1c, false⟩, ⟨"LINK_DOWN", 5, 5, .rw1c, false⟩, ⟨"TRAIN_FAIL", 4, 4, .rw1c, false⟩, ⟨"SEQ_FAULT", 3, 3, .rw1c, false⟩, ⟨"WIDTH_MISMATCH", 2, 2, .rw1c, false⟩, ⟨"RETRY_LIMIT", 1, 1, .rw1c, false⟩, ⟨"CRC_RATE", 0, 0, .rw1c, false⟩]⟩,
  ⟨"FCD_FEEDER_CRC_LIMIT", .fcd, 0x428, [], 32, 0x3e8, [⟨"THRESHOLD", 15, 0, .rw, true⟩]⟩,
  ⟨"HWY_LINK_CRC_LIMIT", .hub, 0x50028, [(0x100, 2)], 32, 0x3e8, [⟨"THRESHOLD", 15, 0, .rw, true⟩]⟩,
  ⟨"FCD_TOLL_TX", .fcd, 0x600, [(0x18, 6)], 64, 0x0, [⟨"DATA_ALLOT", 59, 48, .ro, false⟩, ⟨"DATA_HELD", 43, 32, .ro, false⟩, ⟨"HDR_ALLOT", 27, 16, .ro, false⟩, ⟨"HDR_HELD", 11, 0, .ro, false⟩]⟩,
  ⟨"HWY_TOLL_TX", .hub, 0x51000, [(0x100, 2), (0x18, 6)], 64, 0x0, [⟨"DATA_ALLOT", 59, 48, .ro, false⟩, ⟨"DATA_HELD", 43, 32, .ro, false⟩, ⟨"HDR_ALLOT", 27, 16, .ro, false⟩, ⟨"HDR_HELD", 11, 0, .ro, false⟩]⟩,
  ⟨"FCD_TOLL_RX", .fcd, 0x608, [(0x18, 6)], 64, 0x0, [⟨"DATA_PEND", 59, 48, .ro, false⟩, ⟨"DATA_OCC", 43, 32, .ro, false⟩, ⟨"HDR_PEND", 27, 16, .ro, false⟩, ⟨"HDR_OCC", 11, 0, .ro, false⟩]⟩,
  ⟨"HWY_TOLL_RX", .hub, 0x51008, [(0x100, 2), (0x18, 6)], 64, 0x0, [⟨"DATA_PEND", 59, 48, .ro, false⟩, ⟨"DATA_OCC", 43, 32, .ro, false⟩, ⟨"HDR_PEND", 27, 16, .ro, false⟩, ⟨"HDR_OCC", 11, 0, .ro, false⟩]⟩]

def regRows7 : List RegRow := [
  ⟨"FCD_TOLL_FLOW", .fcd, 0x610, [(0x18, 6)], 64, 0x0, [⟨"DATA_RETURNED", 63, 48, .ro, false⟩, ⟨"DATA_SPENT", 47, 32, .ro, false⟩, ⟨"HDR_RETURNED", 31, 16, .ro, false⟩, ⟨"HDR_SPENT", 15, 0, .ro, false⟩]⟩,
  ⟨"HWY_TOLL_FLOW", .hub, 0x51010, [(0x100, 2), (0x18, 6)], 64, 0x0, [⟨"DATA_RETURNED", 63, 48, .ro, false⟩, ⟨"DATA_SPENT", 47, 32, .ro, false⟩, ⟨"HDR_RETURNED", 31, 16, .ro, false⟩, ⟨"HDR_SPENT", 15, 0, .ro, false⟩]⟩,
  ⟨"FCD_MSG_ERR", .fcd, 0x6a0, [], 32, 0x0, [⟨"CNT_CLEAR", 31, 31, .wo, true⟩, ⟨"BAD_CHANNEL", 7, 7, .rw1c, false⟩, ⟨"SRC_FAULT", 6, 6, .rw1c, false⟩, ⟨"BAD_DEST", 5, 5, .rw1c, false⟩, ⟨"UNKNOWN_TAG", 4, 4, .rw1c, false⟩, ⟨"BAD_OPCODE", 3, 3, .rw1c, false⟩, ⟨"FRAME_FAULT", 2, 2, .rw1c, false⟩, ⟨"LEDGER_FAULT", 1, 1, .rw1c, false⟩, ⟨"NO_TOLL", 0, 0, .rw1c, false⟩]⟩,
  ⟨"HWY_MSG_ERR", .hub, 0x510a0, [(0x100, 2)], 32, 0x0, [⟨"CNT_CLEAR", 31, 31, .wo, true⟩, ⟨"BAD_CHANNEL", 7, 7, .rw1c, false⟩, ⟨"SRC_FAULT", 6, 6, .rw1c, false⟩, ⟨"BAD_DEST", 5, 5, .rw1c, false⟩, ⟨"UNKNOWN_TAG", 4, 4, .rw1c, false⟩, ⟨"BAD_OPCODE", 3, 3, .rw1c, false⟩, ⟨"FRAME_FAULT", 2, 2, .rw1c, false⟩, ⟨"LEDGER_FAULT", 1, 1, .rw1c, false⟩, ⟨"NO_TOLL", 0, 0, .rw1c, false⟩]⟩,
  ⟨"EP_WIN_ACT_LO", .hub, 0x400000, [(0x800, 256), (0x10, 64)], 64, 0x0, [⟨"VALID", 63, 63, .ro, false⟩, ⟨"GRANULE", 62, 58, .ro, false⟩, ⟨"PART", 55, 54, .ro, false⟩, ⟨"TARGET", 51, 12, .ro, false⟩]⟩,
  ⟨"EP_WIN_ACT_HI", .hub, 0x400008, [(0x800, 256), (0x10, 64)], 64, 0x0, [⟨"OFFSET", 39, 12, .ro, false⟩]⟩,
  ⟨"FCD_CLK_STATUS", .fcd, 0xc00, [], 32, 0x0, [⟨"PRIMARY_OK", 10, 10, .ro, false⟩, ⟨"SOURCE", 9, 8, .ro, false⟩, ⟨"HOLDOVER_EXPIRED", 3, 3, .rw1c, false⟩, ⟨"SWITCHED", 2, 2, .rw1c, false⟩, ⟨"PLL_UNLOCK", 1, 1, .rw1c, false⟩, ⟨"REF_LOST", 0, 0, .rw1c, false⟩]⟩,
  ⟨"HUB_EVR_AO_STATUS", .hub, 0x74000, [(0x100, 2)], 64, 0x0, [⟨"WIN_VALID", 47, 40, .ro, false⟩, ⟨"HELD", 36, 16, .ro, false⟩, ⟨"CAP_LOG2", 12, 8, .ro, false⟩, ⟨"LAYBY_FAULT", 6, 6, .rw1c, false⟩, ⟨"OVERFLOW", 5, 5, .rw1c, false⟩, ⟨"KIND", 1, 1, .ro, false⟩, ⟨"CREATED", 0, 0, .ro, false⟩]⟩,
  ⟨"HUB_EVR_AO_CTRL", .hub, 0x74008, [(0x100, 2)], 32, 0x0, [⟨"THRESHOLD", 31, 11, .rw, true⟩, ⟨"TAKE", 0, 0, .wo, true⟩]⟩,
  ⟨"HUB_EVR_AO_MSI", .hub, 0x74010, [(0x100, 2)], 64, 0x0, [⟨"DATA", 55, 44, .rw, true⟩, ⟨"ADDR", 39, 0, .rw, true⟩]⟩,
  ⟨"HUB_EVR_AO_WIN", .hub, 0x74040, [(0x100, 2), (0x8, 8)], 64, 0x0, [⟨"WORD", 63, 0, .ro, false⟩]⟩]

/-- Every register of the control space whose fields the spec lists, with the sets of R118, R153, R372, R476, R481 and
R524 that repeat a layout elsewhere. -/
def regTable : List RegRow :=
  regRows0 ++ regRows1 ++ regRows2 ++ regRows3 ++ regRows4 ++ regRows5 ++ regRows6 ++ regRows7 ++ counterRows

/-- The custom CSRs of a hart: name, number, reset value, fields. -/
def csrTable : List CsrRow := [
  ⟨"FCD_MS_CTRL", 0x7c0, 0x1f4, [⟨"TIMEOUT", 15, 0, .rw, false⟩]⟩,
  ⟨"FCD_MS_RESULT", 0xcc0, 0x0, [⟨"LOST_CLASSES", 39, 36, .ro, false⟩, ⟨"PENDING", 35, 32, .ro, false⟩, ⟨"LOST_COUNT", 31, 0, .ro, false⟩]⟩,
  ⟨"FCD_L2_CTRL", 0x7c1, 0x1811, [⟨"LOCK_WAYS", 19, 16, .rw, false⟩, ⟨"FILL_LOCKED", 15, 15, .rw, false⟩, ⟨"CLEAN_OFFER", 13, 12, .rw, false⟩, ⟨"PF_MAX", 11, 6, .rw, false⟩, ⟨"PF_DISTANCE", 5, 2, .rw, false⟩, ⟨"PF_ENABLE", 0, 0, .rw, false⟩]⟩,
  ⟨"FCD_L2_SETWAY", 0x7c2, 0x0, [⟨"OP", 37, 36, .wo, false⟩, ⟨"WAY", 35, 32, .wo, false⟩, ⟨"SET", 26, 16, .wo, false⟩]⟩,
  ⟨"FCD_WALK_FAULT", 0xdc0, 0x0, [⟨"CAUSE", 59, 57, .ro, false⟩, ⟨"STAGE", 56, 56, .ro, false⟩, ⟨"LEVEL", 55, 53, .ro, false⟩, ⟨"VALID", 52, 52, .ro, false⟩, ⟨"PTE_PA", 51, 3, .ro, false⟩]⟩,
  ⟨"FCD_BINV_ADDR", 0x5c0, 0x0, [⟨"ADDR", 63, 0, .rw, false⟩]⟩,
  ⟨"FCD_BINV", 0x5c1, 0x0, [⟨"GO", 63, 63, .wo, false⟩, ⟨"VMID", 45, 32, .rw, false⟩, ⟨"ASID", 31, 16, .rw, false⟩, ⟨"REACH", 8, 8, .rw, false⟩, ⟨"OUTSTANDING", 7, 5, .ro, false⟩, ⟨"OP", 3, 0, .rw, false⟩]⟩,
  ⟨"FCD_WORLD", 0x7c3, 0x1, [⟨"COUNT_SECURE", 1, 1, .rw, false⟩, ⟨"WORLD", 0, 0, .rw, false⟩]⟩,
  ⟨"FCD_CORE_PWR", 0x7c4, 0xa010c1e, [⟨"C3_DELAY", 31, 24, .rw, false⟩, ⟨"C3_ENABLE", 16, 16, .rw, false⟩, ⟨"GRANTED", 15, 8, .ro, false⟩, ⟨"PERF_REQ", 7, 0, .rw, false⟩]⟩]

/-! ## Finding a register -/

/-- Does the distance `d` lie at a multiple of the strides, one index for each, each below its count? The strides are
listed outermost first. -/
def onStrides : List (Nat × Nat) → Nat → Bool
  | [], d => d == 0
  | (s, n) :: r, d => onStrides r (if d / s < n then d % s else d - s * (n - 1))

/-- The base of the block an offset of the control space lies in, with its kind: hub blocks, FCDk blocks and mailbox pages
(R29). -/
def placeOf (off : Nat) : Option (Place × Nat) :=
  if off < 0x1000_0000 then some (.hub, 0)
  else if off < 0x2000_0000 then some (.hub, 0x1000_0000)
  else if off < 0x20C0_0000 then some (.fcd, off - off % 0x10_0000)
  else if 0x4000_0000 ≤ off ∧ off < 0x4100_0000 then some (.page, off - off % 0x1_0000)
  else none

/-- Does a row describe the register at relative offset `rel` of a block of kind `p`? -/
def rowHits (p : Place) (base rel : Nat) (r : RegRow) : Bool :=
  (decide (r.place = p) || (decide (r.place = .hubN) && decide (p = .hub) && base == 0)) &&
    decide (r.off ≤ rel) && onStrides r.strides (rel - r.off)

/-- The first row that describes the register starting at an offset of the control space. -/
def rowAt (off : Nat) : Option RegRow :=
  match placeOf off with
  | none => none
  | some (p, base) => regTable.find? (rowHits p base (off - base))

/-- Reset value of HWY_ROUTE_n (R505). -/
def routeReset (n : Nat) : Nat := if n < 14 ∨ (16 ≤ n ∧ n < 24) then 0x11 else 0

/-- The rows whose reset value is not 0. -/
def resetRows : List RegRow := regTable.filter fun r => r.reset != 0

/-- Reset value of the register at an offset: as its description gives, 0 where it gives none. -/
def regReset (off : Nat) : Word :=
  match placeOf off with
  | none => 0
  | some (p, base) =>
    let rel := off - base
    if p = .hub ∧ 0x6_0000 ≤ rel ∧ rel < 0x6_0800 then BitVec.ofNat 64 (routeReset ((rel - 0x6_0000) / 8))
    else match resetRows.find? (rowHits p base rel) with
      | none => 0
      | some r => BitVec.ofNat 64 r.reset

/-- The row of a custom CSR. -/
def csrRow (num : Nat) : Option CsrRow := csrTable.find? fun r => r.num == num

/-- Reset value of a CSR: the custom CSRs as described; those of the RISC-V specification 0 (log entry 6). -/
def csrReset (key : Nat) : Word :=
  match csrRow (key % 4096) with
  | none => 0
  | some r => BitVec.ofNat 64 r.reset

end Sys2Proof.Machine
end

