-- ==== Sys2Proof/Config.lean ====
section
/-! DEFINITION. What an individual part or its firmware fixes and the spec gives no value, and the free values. None has
a body: a claim that holds, holds whatever they are. -/

namespace Sys2Proof

/-- A free value: applied to the model's own counter `State.freeIx`, which every use advances (log entry 3). -/
opaque Config.freeNat : Nat → Nat

/-- A free 64-bit value, applied likewise (log entry 3). -/
opaque Config.freeWord : Nat → Word

/-- A free 64-byte line, applied likewise (log entry 3). -/
opaque Config.freeLine : Nat → LineData

/-- Variant code nnn held in fuses (R4). -/
opaque Config.variant : BitVec 16

/-- Serial number of the package, reported by TH_IDENTITY_GET (R71). -/
opaque Config.serial : BitVec 64

/-- Fuse security version (R47, R71). -/
opaque Config.fuseVersion : BitVec 32

/-- Byte `i` of the partition loader carried in the accepted image; the firmware release defines it (R390). -/
opaque Config.loaderByte : Nat → Byte

/-- Length of the partition loader in bytes (R390). -/
opaque Config.loaderLength : Nat

/-- Bits of an IOMMU's capabilities register that R324 does not state. -/
opaque Config.iommuCaps : BitVec 64

end Sys2Proof
end

