-- ==== Sys2Proof/Machine/Tab.lean ====
section
/-! DEFINITION. Sparse tables with natural keys: a list of cells in rising key order that lists no cell equal to the
table's default. The registers, the slices, the cache ways and every other family of like things are such tables. -/

namespace Sys2Proof.Machine

/-- A sparse table: the cells that differ from the default. -/
structure Tab (α : Type) where
  cells : List (Nat × α) := []
deriving DecidableEq, Repr

/-- The value of the first cell with key `k`. -/
def cellLook {α : Type} (k : Nat) : List (Nat × α) → Option α
  | [] => none
  | (k', v) :: r => if k' = k then some v else cellLook k r

/-- Put a cell in its place, replacing the cell of the same key. -/
def cellPut {α : Type} (k : Nat) (v : α) : List (Nat × α) → List (Nat × α)
  | [] => [(k, v)]
  | (k', v') :: r =>
    if k' = k then (k, v) :: r
    else if k < k' then (k, v) :: (k', v') :: r
    else (k', v') :: cellPut k v r

/-- Remove the cells of key `k`. -/
def cellDel {α : Type} (k : Nat) : List (Nat × α) → List (Nat × α)
  | [] => []
  | (k', v') :: r => if k' = k then cellDel k r else (k', v') :: cellDel k r

/-- Read a table at a key; `d` is the default of that key. -/
def Tab.get {α : Type} (t : Tab α) (d : α) (k : Nat) : α := (cellLook k t.cells).getD d

/-- Write a table at a key; writing the default removes the cell. -/
def Tab.set {α : Type} [DecidableEq α] (t : Tab α) (d : α) (k : Nat) (v : α) : Tab α :=
  if v = d then { cells := cellDel k t.cells } else { cells := cellPut k v t.cells }

/-- Change one cell by a function. -/
def Tab.upd {α : Type} [DecidableEq α] (t : Tab α) (d : α) (k : Nat) (f : α → α) : Tab α :=
  t.set d k (f (t.get d k))

/-- Keys strictly rising from `lo`. -/
def cellsRise {α : Type} (lo : Nat) : List (Nat × α) → Bool
  | [] => true
  | (k, _) :: r => decide (lo ≤ k) && cellsRise (k + 1) r

/-- The canonical form: keys strictly rising, and no cell equal to its key's default. -/
def Tab.wf {α : Type} [DecidableEq α] (d : Nat → α) (t : Tab α) : Bool :=
  cellsRise 0 t.cells && t.cells.all fun c => decide (c.2 ≠ d c.1)

/-- Replace element `i` of a list by a function of it. -/
def listUpd {α : Type} : List α → Nat → (α → α) → List α
  | [], _, _ => []
  | x :: r, 0, f => f x :: r
  | x :: r, i + 1, f => x :: listUpd r i f

/-- The first element that satisfies `p`, and the list without it. -/
def takeFirst {α : Type} (p : α → Bool) : List α → Option (α × List α)
  | [] => none
  | x :: r =>
    if p x then some (x, r)
    else match takeFirst p r with
      | none => none
      | some (y, r') => some (y, x :: r')

/-- Change the first element that satisfies `p`. -/
def updFirst {α : Type} (p : α → Bool) (f : α → α) : List α → List α
  | [] => []
  | x :: r => if p x then f x :: r else x :: updFirst p f r

/-- Fold a step over a list, left to right. -/
def forEach {α σ : Type} (xs : List α) (f : α → σ → σ) (s : σ) : σ := xs.foldl (fun t x => f x t) s

end Sys2Proof.Machine
end

