-- ==== Sys2Proof/Machine/State.lean ====
section
/-! DEFINITION. The state of the block as plain data: the queue of waiting commands, the registers, and every structure the
spec gives the dies, hubs, links and always-on islands. -/

namespace Sys2Proof.Machine

/-! ## Messages and links (chapters 3 and 4) -/

/-- A message held in a buffer: its header slot, its 64 data bytes where it is a data message, and the link end by which it
entered the die that holds it (R131, R150 row 7). -/
structure Msg where
  hdr : Hdr
  data : LineData := 0
  via : Option LinkId := none
deriving DecidableEq, Repr

/-- A flit kept in the replay buffer, with the header slots of the messages whose last slot it carries (R90, R200). -/
structure SentFlit where
  bits : FlitBits
  ends : List Hdr
deriving DecidableEq, Repr

/-- A data message that has begun to arrive: its header, the data slots received so far, and whether it was discarded under
row 3 of R150. -/
structure RxOpen where
  hdr : Hdr
  slots : List Hdr
  noToll : Bool
deriving DecidableEq, Repr

/-- A slot that waits to be placed in a message flit: its bits, its SLOT_USE code, and whether it ends its message. -/
structure TxSlot where
  bits : Hdr
  use : Nat
  last : Option Hdr
deriving DecidableEq, Repr

/-- Where a link attempt stands (R98 to R106). -/
structure Attempt where
  /-- The offer this end sends, with the RESUME bit that it will send. -/
  resume : Bool := false
  /-- Agreed width code and segment. -/
  agreed : Option (Nat × Nat) := none
  /-- INIT control flits sent in this attempt, up to eight. -/
  initSent : Nat := 0
  /-- The control word of the partner's INIT (R104). -/
  initGot : Option Hdr := none
deriving DecidableEq, Repr

/-- The link-layer state of one link end beyond its registers (R90 to R113). -/
structure LinkEnd where
  /-- FSN of the next message flit (R90). -/
  nextFsn : Nat := 0
  /-- The replay buffer, oldest first (R90). -/
  replay : List SentFlit := []
  /-- Index in `replay` of the next flit to send again (R94). -/
  replayAt : Option Nat := none
  /-- E of R92. -/
  expect : Nat := 0
  retryWait : Bool := false
  retryCount : Nat := 0
  /-- Control words waiting to be sent (R88). -/
  ctl : List Hdr := []
  rxOpen : Option RxOpen := none
  /-- A run of stray data slots is open (R150 row 1). -/
  stray : Bool := false
  /-- Messages waiting to be sent, per channel (R127). -/
  txq : Tab (List Msg) := {}
  /-- Slots of messages whose tolls are spent, not yet placed (R131, R142). -/
  txSlots : List TxSlot := []
  /-- The channel whose turn comes next (R127). -/
  turn : Nat := 0
  /-- Whole messages in the receive buffers, per channel (R133). -/
  rxq : Tab (List Msg) := {}
  /-- How many of the oldest messages in `rxq` arrived in an earlier epoch and hold no toll of this one, per channel (R107,
  R145, R219). -/
  rxOld : Tab Nat := {}
  /-- CRC failures in the current 1 ms window, and whether CRC_RATE was set in it (R97). -/
  crcCount : Nat := 0
  crcOver : Bool := false
  /-- ACTIVE for 1 ms without a break (R100). -/
  stable : Bool := false
  att : Attempt := {}
  /-- This end sent PARK_REQ (R112). -/
  parkReq : Bool := false
  /-- PARK_ACK was sent or received: PARKED at the next flit time (R112). -/
  parking : Bool := false
  /-- NODE of the partner's INIT in the current ACTIVE (R104). -/
  partnerNode : Nat := 0
  /-- The link-layer state survives since the last ACTIVE (R105). -/
  survives : Bool := false
  /-- Tolls under which messages were stored, and tolls placed in TOLL_RET fields, in this epoch (R500): key channel × 2 +
  type, 1 for data. -/
  stored : Tab Nat := {}
  retSent : Tab Nat := {}
  /-- Waymark that this end is to send in its next message flit (R498). -/
  way : Option Hdr := none
  /-- Flits this end has sent that have not reached its partner (R95). -/
  wire : List FlitBits := []
deriving DecidableEq, Repr

/-! ## Event records and rings (chapter 17) -/

/-- An event record of four 8-byte words (R508). -/
structure EvRec where
  w0 : Word
  w1 : Word
  w2 : Word
  w3 : Word
deriving DecidableEq, Repr

/-- A record on the event path of its source's hub: its owner, a partition or package-scope (R514), and whether it goes to
always-on ring 0 only (R515). -/
structure EvItem where
  ev : EvRec
  owner : Option Nat
  aoOnly : Bool := false
deriving DecidableEq, Repr

/-- What a ring holds beyond its registers (R517, R523). The lay-by lies between head and tail. -/
structure Ring where
  /-- Owning partition; none for a package-scope ring. -/
  part : Option Nat := none
  secure : Bool := false
  classMask : Nat := 0
  sevMask : Nat := 0
  laybyPa : Nat := 0
  /-- The oldest records, oldest first: all of them for a fall-through or always-on ring. -/
  head : List EvRec := []
  /-- Lay-by lines of two records each, oldest first. -/
  lay : List (EvRec × EvRec) := []
  tail : List EvRec := []
deriving DecidableEq, Repr

/-! ## Home slices (chapters 5, 6 and 9) -/

/-- A snoop-filter entry (R173) with its use bit (R549). -/
structure FEnt where
  valid : Bool := false
  tag : Nat := 0
  present : BitVec 14 := 0
  pkgs : BitVec 8 := 0
  resp : Nat := 0x1F
  kind : Nat := 0
  world : Bool := false
  used : Bool := false
deriving DecidableEq, Repr

/-- A system-cache way (R159, R272, R285, R286). -/
structure ScLine where
  valid : Bool := false
  dirty : Bool := false
  line : Nat := 0
  data : LineData := 0
  poison : Poison := 0
  age : Nat := 0
  /-- Brought by a next-line fetch and not yet hit (NL_USED of R294). -/
  next : Bool := false
  reserved : Bool := false
deriving DecidableEq, Repr

/-- A snoop of a flow: its target node, opcode and FWD, and where it stands (R178, R201, R209). -/
structure Snoop where
  node : Nat
  op : Nat
  fwd : Bool
  sent : Bool := false
  answered : Bool := false
deriving DecidableEq, Repr

/-- What a tracker serves: a REQ, an IoRd or IoWr to memory (R191), a next-line fetch (R282), a back-invalidation (R176),
one line of a TH_SC_LOCK preload (R289), the deferred TH_SC_MAINT of a line (R292), or a line of the scrub (R221). -/
inductive TKind | req | io | nextLine | backInv | preload | maint | scrub
deriving DecidableEq, Repr

/-- What a WrBack's data becomes (R187, R207). -/
inductive WbPlan | none | discard | noWrite | dirty | clean | refused
deriving DecidableEq, Repr

/-- A home tracker (R177). -/
structure Tracker where
  id : Nat
  kind : TKind
  line : Nat
  /-- Header slot of the request; for back-invalidations and next-line fetches the WORLD and tag alone. -/
  hdr : Hdr := 0
  /-- Data of an IoWr. -/
  data : LineData := 0
  /-- Partition under which the request was decoded (R34). -/
  part : Nat := 0
  /-- Link end by which the request entered the hub. -/
  via : Option LinkId := none
  /-- Mailbox page of the command that a preload or maint tracker works for, and the OP of TH_SC_MAINT. -/
  page : Nat := 0
  op : Nat := 0
  /-- The tracker serves its line; otherwise it waits in the line's queue (R197). -/
  active : Bool := false
  /-- Waits for a filter way (R176, R198). -/
  needWay : Bool := false
  /-- Its snoops wait for a delivery (R201). -/
  handover : Bool := false
  snoops : List Snoop := []
  /-- The flow is looked up: snoops chosen and reads started (R177). -/
  looked : Bool := false
  /-- An answer carried FWD 1: the forwarder's final state code (R171, R193). -/
  fwd : Option Nat := none
  /-- Responder of the entry at lookup, with its kind (R181, R193). -/
  resp : Nat := 0x1F
  respKind : Nat := 0
  /-- Dirty data of a SnpRespData, with its poison marks (R182, R183). -/
  dirty : Option (LineData × Poison) := none
  /-- A memory read is under way (R179). -/
  reading : Bool := false
  /-- The answer of the read: data and poison. -/
  memData : Option (LineData × Poison) := none
  /-- WbGrant was sent (R184, R187). -/
  granted : Bool := false
  /-- WrData: bytes, enables and poison (R184). -/
  wr : Option (LineData × Word × Poison) := none
  /-- The WrData was synthesised as missing (R210). -/
  wrMissing : Bool := false
  wb : WbPlan := .none
  /-- System-cache way reserved for the result (R285). -/
  scWay : Option Nat := none
  /-- Memory writes of the flow that no channel has accepted yet (R186). -/
  writes : Nat := 0
  /-- A channel refused a write of the flow (R357). -/
  refused : Bool := false
  /-- The last message of the flow, held until its writes are accepted (R159, R186). -/
  out : Option Msg := none
  /-- An answer of the flow was synthesised (R211). -/
  synth : Bool := false
  /-- A CleanUnique served as RdUnique (R180). -/
  converted : Bool := false
  /-- The flow's result is placed; only the acceptance of its writes and its last message remain. -/
  placed : Bool := false
deriving DecidableEq, Repr

/-- A completing message whose delivery snoops of the line wait for (R201). -/
structure Handover where
  line : Nat
  node : Nat
  tag : Nat
deriving DecidableEq, Repr

/-- A home slice. -/
structure Slice where
  /-- Filter ways, key set × 16 + way. -/
  filter : Tab FEnt := {}
  /-- System-cache ways, key set × 16 + way. -/
  sc : Tab ScLine := {}
  /-- Keys of system-cache ways out of use after an uncorrectable tag error (R293). -/
  dead : List Nat := []
  /-- Trackers in arrival order. -/
  trackers : List Tracker := []
  /-- Own tags in use by back-invalidations, 0 to 127 (R22). -/
  ownTags : List Nat := []
  handovers : List Handover := []
  /-- Memory answers on their way back: tracker, data and poison, or none for an error completion (R179, R357). -/
  memBack : List (Nat × Option (LineData × Poison)) := []
  /-- Writes that a channel has accepted, or refused, whose tracker has not been told (R341, R357). -/
  accepted : List (Nat × Bool) := []
  /-- Number of the next tracker: how many requests have arrived. -/
  nextId : Nat := 0
  /-- How many have completed (R500). -/
  completed : Nat := 0
  /-- Next-line fetches waiting at this slice: line, partition and WORLD (R282). -/
  nextIn : List (Nat × Nat × Bool) := []
deriving DecidableEq, Repr

/-! ## Harts and compute dies (chapters 5, 6, 8, 9 and 10) -/

/-- Privilege levels of a hart (R253, R390). -/
inductive Priv | m | hs | u | vs | vu
deriving DecidableEq, Repr

/-- Core power states (R401). -/
inductive CoreState | c0 | c1 | c3
deriving DecidableEq, Repr

/-- How an address is reached (R27, R248): cached main memory, non-cacheable main memory, or I/O. -/
inductive MemType | pma | nc | io
deriving DecidableEq, Repr

/-- A TLB entry (R298): a leaf translation of one stage or of both. -/
structure TlbEnt where
  vpn : Nat
  /-- log2 of the page size. -/
  size : Nat
  pa : Nat
  /-- Guest page and size, for entries with V = 1. -/
  gpn : Nat := 0
  asid : Nat := 0
  vmid : Nat := 0
  virt : Bool := false
  global : Bool := false
  world : Bool := false
  /-- Leaf permission bits V R W X U G A D. -/
  perm : BitVec 8 := 0
  /-- Permission bits of the G-stage leaf. -/
  gperm : BitVec 8 := 0
  mtype : MemType := .pma
deriving DecidableEq, Repr

/-- A walk-cache entry: a non-leaf entry of a stage (R297). -/
structure WalkEnt where
  vpn : Nat
  size : Nat
  stage : Nat
  asid : Nat := 0
  vmid : Nat := 0
  virt : Bool := false
  world : Bool := false
  table : Nat
deriving DecidableEq, Repr

/-- A committed store in the store buffer (R267): its bytes, its kind and its world. `issued` marks a store whose request
is on its way. -/
structure SbEnt where
  id : Nat
  va : Word
  pa : Nat
  len : Nat
  value : Word
  mtype : MemType
  world : Bool
  zero : Bool := false
  issued : Bool := false
deriving DecidableEq, Repr

/-- A line in an L2 way (R156, R272, R283, R315, R549). -/
structure L2Line where
  /-- State code of R136. -/
  st : Nat := 0
  line : Nat := 0
  data : LineData := 0
  poison : Poison := 0
  sec : Bool := false
  reuse : Nat := 0
  /-- Filled by the hardware prefetcher. -/
  pf : Bool := false
  /-- The L1I may hold the line (R274). -/
  inL1i : Bool := false
  used : Bool := false
  /-- Reserved for the fill of this tag (R277). -/
  reserved : Option Nat := none
deriving DecidableEq, Repr

/-- A write-back buffer (R206). -/
structure WbBuf where
  line : Nat
  /-- The held state, which starts at VSTATE. -/
  st : Nat
  data : LineData
  poison : Poison
  sec : Bool
  tag : Nat
  /-- WbGrant has come and WrData was sent. -/
  granted : Bool := false
  /-- Caused by a CBO of the hart, so the milestone's class 2 covers it (R253). -/
  cmo : Bool := false
  /-- What waits for its WbAck: a set-and-way operation or an access by R161. -/
  retire : Bool := false
deriving DecidableEq, Repr

/-- A load, or the part of a misaligned load that lies in one line (R248): `len` bytes at `pa`, after the `got` bytes `low`
of an earlier part, before the part at `next`. It sees the stores that its hart committed before number `snap`. -/
structure LoadAcc where
  dest : LoadDest
  va : Word
  pa : Nat
  len : Nat
  size : Size
  snap : Nat
  pc : Word
  got : Nat := 0
  low : Nat := 0
  next : Option (Nat × MemType) := none
deriving DecidableEq, Repr

/-- What an L2 does for its core when a request completes (R204), with the pc of the instruction. -/
inductive Access
  | load (a : LoadAcc)
  | store (id : Nat)
  | amo (op : AmoOp) (rd : Fin 32) (va : Word) (pa : Nat) (wide : Bool) (value : Word) (pc : Word)
  | lr (rd : Fin 32) (va : Word) (pa : Nat) (wide : Bool) (pc : Word)
  | fetch (va : Word) (pa : Nat)
  /-- A walk waits for the entry at `pte`; `cause` is the access fault of the access that walks (R301). -/
  | walk (cause : Nat) (va : Word) (pte : Nat) (stage level : Nat) (pc : Word)
deriving DecidableEq, Repr

/-- Why a request was sent (R276, R280, R281, R300). -/
inductive Purpose | demand | prefetch | hint | hintI | walk | cmo | wb | nc | io | flush | binv
deriving DecidableEq, Repr

/-- An outstanding request of a compute die, an I/O agent, a data mover or a Tollhouse under its tag (R21, R160, R163). -/
structure Req where
  tag : Nat
  /-- Package-relative hart, for a die's L2 request. -/
  hart : Option Nat := none
  line : Nat := 0
  /-- Partition under which its requester decoded it (R34). -/
  part : Nat := 0
  hdr : Hdr := 0
  /-- The request has been sent; a second request for a line is held (R160). -/
  sent : Bool := true
  purpose : Purpose := .demand
  accs : List Access := []
  /-- Data of DataFwd, with its STATE (R164). -/
  fwd : Option (LineData × Poison × Nat) := none
  /-- Header of the Comp received (R164). -/
  comp : Option Hdr := none
  /-- Write data waiting for WbGrant. -/
  wr : Option (LineData × Word × Poison) := none
  granted : Bool := false
deriving DecidableEq, Repr

/-- A node of a hart's destination set, with the tag of the MsFlush sent after the hart's last IoWr to it (R256). -/
structure DestEnt where
  node : Nat
  flush : Option Nat := none
deriving DecidableEq, Repr

/-- A milestone that waits (R254, R264). -/
structure MsWait where
  rd : Fin 32
  mask : Nat
  expired : Bool := false
deriving DecidableEq, Repr

/-- A stream of the L2 prefetcher (R280): latest demand line, direction and state. -/
structure Stream where
  last : Nat
  up : Bool := true
  trained : Bool := false
  world : Bool := false
deriving DecidableEq, Repr

/-- An instruction fetched and not yet executed (R274, R310). -/
structure Fetched where
  va : Word
  poisoned : Bool
  asid : Nat := 0
  virt : Bool := false
deriving DecidableEq, Repr

/-- A miss that waits for a way, a miss entry or a write-back buffer (R276, R278). -/
structure WaitMiss where
  op : Nat
  line : Nat
  hint : Nat
  world : Bool
  purpose : Purpose
  accs : List Access
deriving DecidableEq, Repr

/-- One core: registers, store buffer, translation and caches. -/
structure HartSt where
  x : Tab Word := {}
  v : Tab (BitVec 256) := {}
  pc : Word := 0
  priv : Priv := .m
  core : CoreState := .c0
  sb : List SbEnt := []
  sbNext : Nat := 0
  resv : Option Nat := none
  fetched : List Fetched := []
  ms : Option MsWait := none
  /-- Pending lost counts, key class (R260, R262, R263, R312). -/
  lost : Tab Nat := {}
  /-- Marked by R260. -/
  lostMark : Bool := false
  /-- Destination set: the nodes with an IoWr not yet reported, in the order of the last one (R256). -/
  dest : List DestEnt := []
  itlb : List TlbEnt := []
  dtlb : List TlbEnt := []
  tlb2 : List TlbEnt := []
  walk : List WalkEnt := []
  streams : List Stream := []
  /-- Lines of the L1s plus one, 0 for an empty way; key set × 8 + way. -/
  l1i : Tab Nat := {}
  l1d : Tab Nat := {}
  l2 : Tab L2Line := {}
  wbs : List WbBuf := []
  waiting : List WaitMiss := []
  /-- Fences not yet met: the classes of earlier accesses that each waits for and of later accesses that it holds, four bits
  iorw each (R249). -/
  fences : List (Nat × Nat) := []
  /-- mtimecmp (R410). -/
  mtimecmp : Word := 0
deriving DecidableEq, Repr

/-- The part of a die's answer that one L2 has given to a snoop (R171). -/
structure Part where
  hart : Nat
  st : Nat
  fwd : Bool := false
  data : Option (LineData × Poison) := none
  /-- Returned to the feeder stop. -/
  back : Bool := false
deriving DecidableEq, Repr

/-- A snoop on the ring road (R170, R171). -/
structure DieSnoop where
  hdr : Hdr
  /-- Harts that have not yet acted. -/
  left : List Nat
  parts : List Part := []
  /-- Harts that hold the snoop under the third row of R203. -/
  held : List Nat := []
deriving DecidableEq, Repr

/-- A broadcast invalidation copy at a die (R310). -/
structure BinvCopy where
  hdr : Hdr
  /-- Harts that have not acknowledged. -/
  left : List Nat
deriving DecidableEq, Repr

/-- A compute die beyond its registers and harts. -/
structure DieSt where
  reqs : List Req := []
  quarantine : List Nat := []
  snoops : List DieSnoop := []
  copies : List BinvCopy := []
  /-- RSP and DAT messages delivered and not yet accepted by their L2 are the die's inbox; the feeder stop freezes by
  R279. -/
  frozen : Bool := false
  /-- A planned reset evacuates the die; its cores are halted (R379). -/
  evacuating : Bool := false
  /-- Held in reset; a die in its reset state is. -/
  inReset : Bool := true
  clockOff : Bool := false
  /-- Cores draining for a warm reset (R270). -/
  draining : List Nat := []
  /-- Cores whose drain has ended and whose L2 is being written back before their state is cleared (R268). -/
  flushing : List Nat := []
  /-- Lost counts that the Comps of an evacuation reported (R379 step 3). -/
  evacLost : Nat := 0
  /-- An attempt at PK5 writes back its L2s (R407). -/
  leaving : Bool := false
deriving DecidableEq, Repr

/-! ## Memory channels (chapter 11) -/

/-- A memory request of a home slice: the slice that sent it and its tracker, or none for a victim (R339, R342). -/
structure MemReq where
  slice : Nat
  tracker : Option Nat
  write : Bool
  /-- Media address of the line (R42). -/
  ma : Nat
  /-- Line number of its physical address, for event records. -/
  line : Nat := 0
  data : LineData := 0
  poison : Poison := 0
  port : Nat := 0xF
  hint : Nat := 0
  world : Bool := false
  /-- Mailbox page of the TH_SC_MAINT that writes the line; 20 for every other request (R292). -/
  page : Nat := 20
deriving DecidableEq, Repr

/-- A queue entry (R339). `num` names it; `issued` marks a read whose command has been issued. -/
structure McEnt where
  num : Nat
  req : MemReq
  urgency : Nat := 0
  issued : Bool := false
deriving DecidableEq, Repr

/-- The capture of a freeze (R356, R359): syndrome, time, and the entry words of the dump. -/
structure McDump where
  syndrome : Hdr := 0
  time : Word := 0
  reads : List Word := []
  writes : List Word := []
deriving DecidableEq, Repr

/-- A memory channel beyond its registers. -/
structure Chan where
  /-- Requests waiting at the homes for a queue entry, oldest first (R339). -/
  input : List MemReq := []
  reads : List McEnt := []
  writes : List McEnt := []
  nextNum : Nat := 0
  /-- Write drain, and whether it began with no read queued (R345). -/
  drain : Bool := false
  drainEmpty : Bool := false
  /-- Open rows, key bank number (rank, subchannel, group, bank): row plus one, 0 closed (R346). -/
  rows : Tab Nat := {}
  /-- Postponed refreshes per rank (R348). -/
  postponed : Tab Nat := {}
  /-- FGR takes effect after the next pause (MC_MAINT). -/
  fgrNow : Bool := false
  dump : McDump := {}
  /-- Retention mask (R352), all ones after package cold reset. -/
  retain : Nat := 0xFFFF
  selfRefresh : Bool := false
  /-- A zero fill is running (R332, R353). -/
  filling : Bool := false
  /-- Ranks that keep their contents through the fill or retrain under way. -/
  keep : Nat := 0
  /-- A pause is due before the first request is served (R349). -/
  pauseDue : Bool := false
  /-- TH_MC_RETRAIN or TH_MC_RELEASE trains the channel. -/
  training : Bool := false
  /-- Capacity in bytes of the DIMMs the last cold boot found (R329). -/
  capacity : Nat := 0
  /-- Claimed by the secure world (R321). -/
  claimed : Bool := false
deriving DecidableEq, Repr

/-- The DRAM of the sixteen channels: bytes, key package channel × 2 ^ 40 + media address, in canonical form with 0 for
every unlisted byte (R332), and the poison marks of 8-byte words, keys rising (R337). -/
structure Dram where
  bytes : Tab Byte := {}
  poison : Tab Bool := {}
deriving DecidableEq, Repr

/-! ## I/O agents, root ports, endpoint (chapters 7, 10 and 15) -/

/-- An entry of the orphan table (R212, R233). -/
inductive Orphan
  | snoop (slice src tag : Nat) (fwdOpen : Bool)
  | wr (slice tag : Nat)
  | pio (src tag : Nat)
deriving DecidableEq, Repr

/-- A TLP, MSI, sideband message or interrupt that leaves the model. -/
inductive Out
  /-- A memory read or write TLP downstream on a root port, or upstream from the endpoint (`port` none). -/
  | mrd (hub : Hub) (port : Option (Fin 16)) (addr : Nat) (len : Nat) (tag : Nat)
  | mwr (hub : Hub) (port : Option (Fin 16)) (addr : Nat) (data : LineData) (be : Word) (poison : Poison)
  | cfgRd (hub : Hub) (port : Fin 16) (bdf reg : Nat) (tag : Nat)
  | cfgWr (hub : Hub) (port : Fin 16) (bdf reg : Nat) (data : LineData) (be : Word) (tag : Nat)
  /-- A completion to a device, a CXL peer or the foreign host: `bad` for UR. -/
  | cpl (hub : Hub) (port : Option (Fin 16)) (data : LineData) (poison : Poison) (bad : Bool)
  | biRsp (hub : Hub) (port : Fin 16) (pa : Nat)
  | intx (hub : Hub) (level : Bool)
  | msix (hub : Hub) (fn vec : Nat)
  | ibi
  /-- A highway end signals exit from its low-power state again (R412). -/
  | hwyExit (hub : Hub) (k : Fin 2)
  /-- An address header on a target port: acknowledged or not (R413). -/
  | i3cAck (port : I3cPort) (ack : Bool)
  /-- An MSI write to the interrupt file at a physical address (R54, R322, R437, R522). -/
  | msi (hub : Hub) (pa data : Nat) (world : Bool)
  /-- A sideband message to a guest (R234). -/
  | sideband (hub : Hub) (payload : Word)
  /-- A memory message for a CXL.mem device of a KIND 1 window (R459). -/
  | cxlRd (hub : Hub) (port : Fin 16) (pa : Nat) (tag : Nat)
  | cxlWr (hub : Hub) (port : Fin 16) (pa : Nat) (data : LineData) (poison : Poison) (tag : Nat)
  /-- Answer bytes of the baseboard controller's read transfer (R52). -/
  | i3cBytes (bytes : List Byte)
deriving DecidableEq, Repr

/-- A transaction an I/O agent has on the PCIe side (R454, R459): tag, requester and what it answers. -/
structure PcieReq where
  port : Option (Fin 16)
  tag : Nat
  /-- SRC, TAG, DST and WORLD of the fabric request: its header slot; 0 where the requester is the data mover. -/
  hdr : Hdr
  write : Bool := false
  /-- Window of the request, for the flush counts of R258. -/
  window : Nat := 0
  /-- A CXL.mem request of a home slice (R459): the slice and its tracker. -/
  mem : Option (Nat × Option Nat) := none
deriving DecidableEq, Repr

/-- What waits at an I/O agent for the answer to its own request: a device or host read, or write, with its port. -/
structure IoWait where
  tag : Nat
  port : Option (Fin 16)
  /-- Waits for an answer to send a completion TLP. -/
  reply : Bool
  /-- A posted write without Relaxed Ordering whose WbGrant has not come (R464). -/
  ordered : Bool := false
  /-- BIRsp instead of a completion (R460). -/
  bi : Option Nat := none
  /-- Endpoint function of a BAR2 read or of a commit's MsFlush. -/
  fn : Option Nat := none
deriving DecidableEq, Repr

/-- An inbound request of a port that waits for the order of R464, with the message it sends. -/
structure IoHeld where
  port : Option (Fin 16)
  msg : Msg
  /-- Partition under which its address was decoded. -/
  part : Nat
  wr : Option (LineData × Word × Poison) := none
  reply : Bool := false
  /-- A posted write without Relaxed Ordering: later ones wait for its WbGrant. -/
  ordered : Bool := false
  /-- Waits for the earlier posted writes of its port. -/
  after : Bool := false
  bi : Option Nat := none
  fn : Option Nat := none
  /-- Came before the last commit point of its function (R471). -/
  old : Bool := false
deriving DecidableEq, Repr

/-- Posted writes of a source node to a window that are not confirmed (R258): count and last address. -/
structure WinWrites where
  src : Nat
  window : Nat
  count : Nat
  last : Nat
deriving DecidableEq, Repr

/-- An MsFlush that waits at an I/O agent for flush reads (R257, R258). -/
structure FlushWait where
  hdr : Hdr
  /-- Windows whose flush read is outstanding, each with the IoWr that it confirms, and tags of the configuration writes that
  the answer waits for. -/
  windows : List (Nat × Nat)
  cfgs : List Nat
  lost : Nat
deriving DecidableEq, Repr

/-- A root port (R453, R454). -/
structure Port where
  up : Bool := false
  claimed : Bool := false
  lowPower : Bool := false
deriving DecidableEq, Repr

/-- An endpoint function (R465 to R469). -/
structure EpFn where
  live : Bool := false
  channels : List Nat := []
  bar2Log : Nat := 0
  vfBar2Log : Nat := 0
  tagBudget : Nat := 0
  vectors : Nat := 0
  /-- Nodes written under the old mapping whose MsFlush is not sent, and the tags of those not answered (R471). -/
  toFlush : List Nat := []
  flushTags : List Nat := []
  /-- Nodes written since the last commit point. -/
  written : List Nat := []
  /-- Reads under the old mapping not yet completed, by tag. -/
  oldReads : List Nat := []
deriving DecidableEq, Repr

/-- The endpoint face of a hub (R465 to R474). -/
structure Endpoint where
  fns : Tab EpFn := {}
  msixOn : Bool := false
  intxOff : Bool := false
  intxSent : Bool := false
  hdm : Bool := false
  /-- Upstream tags that the foreign host's tag size allows (R468). -/
  tagTotal : Nat := 256
  /-- Lent range: partition, base and size (R472). -/
  lent : Option (Nat × Nat × Nat) := none
deriving DecidableEq, Repr

/-- Highway proxy transaction (R490): the requester's header, and the proxy's own tag once sent. -/
structure ProxyReq where
  hdr : Hdr
  tag : Option Nat := none
deriving DecidableEq, Repr

/-- A remote snoop at the proxy with the copies that are open (R492). -/
structure ProxySnp where
  hdr : Hdr
  left : List Nat
  parts : List Part := []
deriving DecidableEq, Repr

/-- The I/O agent of a hub. -/
structure IoAgent where
  reqs : List Req := []
  pcie : List PcieReq := []
  nextPcie : Nat := 0
  waits : List IoWait := []
  held : List IoHeld := []
  wins : List WinWrites := []
  flushes : List FlushWait := []
  ports : Tab Port := {}
  ep : Endpoint := {}
  proxy : List ProxyReq := []
  /-- Requests that the proxy has taken, and completed (R500). -/
  proxyIn : Nat := 0
  /-- Completing messages that the proxy has forwarded and that are not delivered (R493). -/
  proxyOut : List Handover := []
  proxyDone : Nat := 0
  proxySnoops : List ProxySnp := []
  /-- IOMMU words, key set × 8192 + word (R324). -/
  iommu : Tab Word := {}
  /-- APLIC: partition of a source plus one, key source number (R322); secure claims of sources and the input levels of
  pins and sources. -/
  aplicPart : Tab Nat := {}
  aplicSecure : Tab Bool := {}
  pinLevel : Tab Bool := {}
  sourceLevel : Tab Bool := {}
deriving DecidableEq, Repr

/-- A spur end beyond its link and registers (chapter 7). -/
structure Spur where
  orphans : List Orphan := []
  /-- IoRd and MsFlush delivered to the guest and not answered (R233). -/
  pio : List Hdr := []
  /-- The guest's OFFER of the current attempt. -/
  offer : Option Word := none
  /-- The guest's RESULT of the current attempt has arrived (R236 step 5). -/
  result : Bool := false
  /-- Allotments of the current bring-up, by channel: header and data tolls (R235). -/
  allots : List (Nat × Nat) := []
  rejoined : Bool := false
  /-- The first bring-up after RESET was cleared (R236 step 8). -/
  fresh : Bool := false
  /-- PWR_REQ outstanding: target and SEQ (R241). -/
  pwrReq : Option (Nat × Nat) := none
  pwrSeq : Nat := 0
  /-- Answer of the guest to the last PWR_REQ: none waiting, or its code. -/
  pwrAns : Option (Nat × Nat) := none
  powerGood : Bool := true
  /-- Claimed by the secure world (R321). -/
  claimed : Bool := false
deriving DecidableEq, Repr

/-! ## Data mover (chapter 14) -/

/-- A descriptor (R428). -/
structure Desc where
  ctrl : BitVec 32
  length : BitVec 32
  src : Word
  dst : Word
  cmpl : Word
deriving DecidableEq, Repr

/-- A stretch under way (R422): its place in the descriptor, the physical addresses of its first bytes, the lines issued
(R424), the lines read, and the bytes written or consumed. -/
structure DmStretch where
  off : Nat
  len : Nat
  src : Option Nat := none
  dst : Option Nat := none
  rdSrc : Nat := 0
  rdDst : Nat := 0
  wrote : Nat := 0
  gotSrc : List (Nat × LineData × Poison) := []
  gotDst : List (Nat × LineData × Poison) := []
  count : Nat := 0
  /-- A dirty-bitmap update is under way (R446). -/
  logging : Bool := false
  /-- The update's AtomCas waits to be sent: its bit and compare value. -/
  logKey : Option (Nat × Nat) := none
deriving DecidableEq, Repr

/-- Progress of the descriptor at HEAD (R422, R448). -/
structure Progress where
  desc : Option Desc := none
  /-- Bytes done before the stretch under way. -/
  done : Nat := 0
  /-- Address of the current list entries, bytes used of them, and their contents: address, length and END. -/
  srcEnt : Nat := 0
  srcUsed : Nat := 0
  dstEnt : Nat := 0
  dstUsed : Nat := 0
  srcCur : Option (Nat × Nat × Bool) := none
  dstCur : Option (Nat × Nat × Bool) := none
  crc : BitVec 32 := 0xFFFFFFFF
  poisoned : Bool := false
  /-- COMPARE found a difference at this offset. -/
  mismatch : Option Nat := none
  /-- Failure that waits for the issued requests (R437). -/
  fail : Option Nat := none
  st : Option DmStretch := none
  /-- Nodes written by IoWr whose MsFlush has not been sent (R432). -/
  wrote : List Nat := []
  /-- Last address written on the endpoint's bus (R467). -/
  lastWr : Option Nat := none
deriving DecidableEq, Repr

/-- What a request of the data mover is for (R422, R431, R432, R446). -/
inductive DmKind | fetch | srcList | dstList | src | dst | write | flush | log | record
deriving DecidableEq, Repr

/-- A request in flight: its tag, and what its answer brings: the byte address, and a length or old value. -/
structure DmPart where
  tag : Nat
  kind : DmKind
  pa : Nat
  len : Nat
deriving DecidableEq, Repr

/-- A completion record and MSI that are still due: status, RESULT, BYTES_DONE and CMPL (R432, R437). -/
structure DmDue where
  status : Nat
  result : Nat := 0
  bytes : Nat := 0
  cmpl : Nat := 0
  irq : Bool := false
  /-- Physical address of the MSI, once translated. -/
  msi : Option Nat := none
  sent : Bool := false
deriving DecidableEq, Repr

/-- A data-mover channel beyond its page (R421 to R449). -/
structure DmChan where
  live : Bool := false
  part : Option Nat := none
  secure : Bool := false
  engine : Nat := 0
  group : Nat := 0
  pasid : Option Nat := none
  /-- Endpoint function it backs, and its slot (R467). -/
  fn : Option (Nat × Nat) := none
  prog : Progress := {}
  parts : List DmPart := []
  due : Option DmDue := none
  stopping : Bool := false
  freezing : Bool := false
  /-- Being destroyed, or returned to created by an FLR (R445, R474), once its requests have completed. -/
  flr : Bool := false
  /-- State before a freeze (R435). -/
  before : Nat := 0
  /-- Logging (R446): IOVA base, pages and bitmap; bits newly set and stretches outside since the last command. -/
  log : Option (Nat × Nat × Nat) := none
  newBits : Nat := 0
  outside : Nat := 0
deriving DecidableEq, Repr

/-- A data mover of a hub. -/
structure Mover where
  chans : Tab DmChan := {}
  reqs : List Req := []
  /-- Ranks of the bulk port arbiter, highest first (R425). -/
  ranks : List Nat := [0, 1, 2, 3, 4, 5, 6, 7, 8, 9, 10, 11, 12, 13, 14, 15]
  holder : Option Nat := none
  /-- Channel that each engine served last, plus one (R422). -/
  turn : Tab Nat := {}
deriving DecidableEq, Repr
/-! ## Tollhouses, resets, partitions, power, fabric (chapters 2, 12, 13, 16 and 18) -/

/-- An invalidation relay operation (R309, R311). -/
structure RelayOp where
  num : Nat
  /-- Message that the relay answers, and the partition of its issuer. -/
  hdr : Hdr
  part : Nat
  /-- The nodes that have not answered, each with the relay's own tag of its copy. -/
  left : List (Nat × Nat)
deriving DecidableEq, Repr

/-- A mailbox page beyond its registers (R55 to R62). -/
structure Mbx where
  /-- Payload window of 4 KiB (R54), key byte offset: what has been written since the last DONE, and the response. -/
  window : Tab (Option Byte) := {}
  /-- Free value of the bytes that a DONE leaves undefined (R57), plus one; 0 before the first DONE. -/
  seed : Nat := 0
  /-- Copy of the request taken at RING (R55): headers and payload. -/
  req0 : Word := 0
  req1 : Word := 0
  payload : List Byte := []
  /-- World of the RING write. -/
  world : Bool := false
  /-- Place of the RING in the order of all (R61). -/
  order : Nat := 0
  /-- HUB-S serves the command (R395). -/
  south : Bool := false
  /-- The command has passed the checks of R60 and acts; it may then have changed state (R62). -/
  admitted : Bool := false
  changed : Bool := false
  /-- It waits for the condition of its card. -/
  waiting : Bool := false
  /-- Status, DETAIL, handle and response payload of the result, once known. -/
  result : Option (Nat × Nat × Nat × List Byte) := none
  /-- What the command works on and has counted, by the card. -/
  waitA : Nat := 0
  waitB : Nat := 0
  cursor : Nat := 0
  limit : Nat := 0
  counts : List Nat := [0, 0, 0]
  /-- Stored response (R58): the request's DRY_RUN, the response headers and payload. -/
  storedDry : Bool := false
  stored0 : Word := 0
  stored1 : Word := 0
  storedPayload : List Byte := []
  /-- Last page offset written by the baseboard controller (R52). -/
  pointer : Nat := 0
deriving DecidableEq, Repr

/-- An index of the resource pools (R65 to R70, R554). -/
structure Obj where
  gen : Nat := 1
  live : Bool := false
  destroying : Bool := false
  part : Nat := 0
  world : Bool := false
  created : Word := 0
  /-- Serial number of its last release; indices never used are ordered by index (R69). -/
  freed : Nat := 0
deriving DecidableEq, Repr

/-- A Tollhouse (R44 to R49). -/
structure Tollhouse where
  stopped : Bool := false
  running : Bool := false
  recovery : Bool := false
  slotB : Bool := false
  build : BitVec 32 := 0
  reqs : List Req := []
  relay : List RelayOp := []
  nextRelay : Nat := 0
  /-- MgtMsg received and not yet read by the firmware. -/
  mail : List Msg := []
deriving DecidableEq, Repr

/-- An entry of a partition plan (R374, R398). -/
structure PlanEnt where
  qmask : Nat := 0
  mode : Nat := 0
  memBase : Nat := 0
  vector : Nat := 0
deriving DecidableEq, Repr

/-- A partition plan (R374, R398): four entries and the two site bytes. -/
structure Plan where
  ents : List PlanEnt := [{ qmask := 15 }, {}, {}, {}]
  spurN : Nat := 0
  spurS : Nat := 0
deriving DecidableEq, Repr

/-- A fabric plan (R482, R505). -/
structure FabricPlan where
  topology : Nat := 0
  members : Nat := 0
  join : List Nat := [0xFF, 0xFF, 0xFF, 0xFF, 0xFF, 0xFF, 0xFF, 0xFF]
deriving DecidableEq, Repr

/-- A ceiling (R403) with the world that set it and the resume address. -/
structure Ceiling where
  deepest : Nat := 1
  secure : Bool := false
  resume : Nat := 0
deriving DecidableEq, Repr

/-- The always-on island and the power controller (chapters 13 and 18). -/
structure Power where
  aoGood : Bool := false
  mainGood : Bool := false
  enMain : Bool := false
  enCore : Bool := false
  coldHigh : Bool := true
  /-- Package cold reset is held. -/
  coldHeld : Bool := true
  /-- A low pulse on COLD_RST_N must come before PWR_EN_MAIN rises again (R530). -/
  needPulse : Bool := false
  clocksStopped : Bool := false
  /-- PWR_EN_CORE has dropped, and PWR_EN_MAIN drops 1 ms later (R531, R532). -/
  mainOffDue : Bool := false
  thermTrip : Bool := false
  /-- A warm reset follows the exit from PK3 or PK5 (R535). -/
  warmAfterWake : Bool := false
  spiOff : Bool := false
  /-- Package state 0, 1, 3 or 5 (R400). -/
  pk : Nat := 0
  /-- Attempt: target, rank asked and the blocks that have accepted (R405). -/
  attempt : Option (Nat × Nat × List Nat) := none
  /-- Blocks that delay, with their codes. -/
  delays : List (Nat × Nat) := []
  /-- An attempt failed and nothing has changed since (R404); the harts that refused it with STORE_BUFFER. -/
  blocked : Bool := false
  draining : List Nat := []
  /-- Commit is done and the six always-on cycles run (R412). -/
  window : Bool := false
  /-- A wake event held until PWR_EN_MAIN is off (R532). -/
  heldWake : Option Nat := none
  pkgCeil : Ceiling := { deepest := 5 }
  partCeil : Tab Ceiling := {}
  sustained : Nat := 900
  fast : Nat := 900
  windowMs : Nat := 1000
  average : Nat := 0
  /-- Power grants per hart in units of 100 MHz, 0 for the highest (R417). -/
  grants : Tab Nat := {}
  /-- Thermal caps per die or hub, units of 100 MHz, 0 for 38, and the count of cooler samples (R539). -/
  caps : Tab Nat := {}
  cooler : Tab Nat := {}
  /-- Latest sample of each die or hub in °C plus 41, 0 for none (R418). -/
  temps : Tab Nat := {}
  /-- Match flags of the two I3C target ports (R413). -/
  matchBmc : Bool := false
  matchPlt : Bool := false
deriving DecidableEq, Repr

/-- A record of one link end in a wave (R500): at its own Waymark, and at the partner's. -/
structure WaveEnd where
  sent : Bool := false
  got : Bool := false
  /-- HELD, SPENT and RETURNED of each channel and toll type, in the order of the ledger. -/
  held : List Nat := []
  spent : List Nat := []
  returned : List Nat := []
  /-- OCC, PEND, STORED and RET_SENT likewise. -/
  occ : List Nat := []
  pend : List Nat := []
  stored : List Nat := []
  retSent : List Nat := []
  replayOcc : Nat := 0
  nextFsn : Nat := 0
  oldest : Nat := 0
  txEpoch : Nat := 0
  rxEpoch : Nat := 0
  argEpoch : Nat := 0
deriving DecidableEq, Repr

/-- A waymark wave (R498 to R504). -/
structure Wave where
  running : Bool := false
  number : Nat := 0
  fabric : Bool := false
  origin : Nat := 0
  start : Word := 0
  /-- Page whose TH_WAVE_RUN started it. -/
  page : Option Nat := none
  /-- Agents that know of the wave: hubs 16 and 17, dies 0 to 11. -/
  known : List Nat := []
  ends : Tab WaveEnd := {}
  /-- Tracker and event checks that failed when a hub first learned of the wave, key hub. -/
  trackFaults : Tab Nat := {}
deriving DecidableEq, Repr

/-- Package-wide state of the Tollhouses and the fabric. -/
structure Pkg where
  plan : Plan := {}
  running : Plan := { ents := [{}, {}, {}, {}] }
  /-- Lane-group modes stored and in force (R451, R452). -/
  portModes : List Nat := [0, 0, 0, 0, 0, 0, 0, 0]
  modesNow : List Nat := [0, 0, 0, 0, 0, 0, 0, 0]
  fabricPlan : FabricPlan := {}
  /-- The plan before a TH_FABRIC_PLAN_SET that applies one, until its roll call ends. -/
  fabricOld : FabricPlan := {}
  /-- A roll call is under way (R483): 1 at a package reset, 2 by TH_FABRIC_PLAN_SET. -/
  rolling : Nat := 0
  /-- JOIN bytes of the running fabric, and the quarters of each member's joined partition (R488, R496). -/
  joinNow : List Nat := []
  memberQuarters : Tab Nat := {}
  /-- Neighbour reached through each highway link, package number plus one (R488), and the package at the far end of every link
  of the roll call, spares included. -/
  neighbours : Tab Nat := {}
  far : Tab Nat := {}
  /-- Position and far ends are the coordinator's; a route drain (R487) with the alternative wanted. -/
  draining : Option Nat := none
  /-- Guests and dies admitted by firmware (R383). -/
  admitted : List Nat := []
  /-- Declared lost by hub but the wait of R219 has not ended. -/
  lostWait : List Nat := []
  /-- Epoch of the link at the declaration plus one, key agent (R383). -/
  lostEpoch : Tab Nat := {}
  /-- Lines poisoned by a scrub, key hub × 32 + agent (KIND 9, TH_RESET). -/
  scrubPoison : Tab Nat := {}
  /-- Resets of agents under way by TH_RESET, key agent (R379, R399): 2 an evacuation, 4 the 10 µs hold, 6 the wait for
  R383, 8 an evacuation that failed; one more where the cores stay held. -/
  resetRun : Tab Nat := {}
  /-- LOST_WRITES and lines poisoned that the last TH_RESET of an agent caused, key agent (R399). -/
  resetLost : Tab Nat := {}
  /-- A package reset that was requested: 1 cold, 2 warm (R376). -/
  resetDue : Nat := 0
  startPa : Tab Nat := {}
  /-- Partition release waits (R390): resume after PK5. -/
  releaseDue : List Nat := []
  resumePk5 : Bool := false
  wakeCode : Nat := 0
  freeSerial : Nat := 0
  /-- How many RING writes the Tollhouses have taken (R61). -/
  rung : Nat := 0
deriving DecidableEq, Repr

/-! ## The machine -/

/-- Everything of the block but its command queue and its DRAM. -/
structure Block where
  /-- Registers of the control space, key byte offset; unlisted cells hold their reset values (R29). -/
  regs : Tab Word := {}
  /-- CSRs, key hart × 4096 + number. -/
  csrs : Tab Word := {}
  /-- Coalescing counts of RW1C fields, key (offset × 64 + bit) (R513). -/
  coal : Tab Nat := {}
  /-- Copies of the 100 MHz time counter, key die 0 to 11, hub 16 or 17 (R366). -/
  time : Tab Word := {}
  /-- Uses made of free values (log entry 3). -/
  freeIx : Nat := 0
  harts : Tab HartSt := {}
  dies : Tab DieSt := {}
  /-- Link ends, key hub × 8 + L, 16 + die, 28 + hub × 2 + k. -/
  links : Tab LinkEnd := {}
  /-- Home slices, key hub × 32 + slice. -/
  slices : Tab Slice := {}
  /-- Memory channels, key package channel. -/
  chans : Tab Chan := {}
  /-- I/O agents, spur ends, data movers and Tollhouses, key hub index. -/
  io : Tab IoAgent := {}
  spurs : Tab Spur := {}
  movers : Tab Mover := {}
  tolls : Tab Tollhouse := {}
  /-- Messages that have reached an agent, key (agent key × 8 + channel): slices 0 to 63, I/O agents 64 and 65, data movers
  66 and 67, Tollhouses 68 and 69, dies 70 to 81, home agents 82 and 83. -/
  inbox : Tab (List Msg) := {}
  /-- Delivery reports waiting at a hub: destination node and tag (R200). -/
  reports : Tab (List (Nat × Nat)) := {}
  mbx : Tab Mbx := {}
  /-- Objects, key type × 65536 + index. -/
  objs : Tab Obj := {}
  /-- Sequence numbers of event sources, key agent × 256 + unit (R510). -/
  evSeq : Tab Nat := {}
  /-- Records on the event path of each hub. -/
  evPath : Tab (List EvItem) := {}
  /-- Rings, key hub × 64 + ring, and 128 + hub × 2 + always-on ring. -/
  rings : Tab Ring := {}
  /-- IoWr discarded against a source and destination node (R257, R259), key holder × 65536 + SRC × 256 + DST; the holder is
  0 for the destination itself and 1 or 2 for the link ends and the I/O agent's checks of HUB-N or HUB-S. -/
  lostWrites : Tab Nat := {}
  pkg : Pkg := {}
  power : Power := {}
  wave : Wave := {}
  outbox : List Out := []
deriving DecidableEq, Repr

/-- Where the behaviour is not specified at all. -/
inductive Fault
  /-- Raised by THERMAL_SAMPLE: a junction temperature below −40 °C, for which no behaviour is specified (R538). Safe: the
  model stops where the hardware may do anything. -/
  | belowMinusForty
deriving DecidableEq, Repr

/-- What the model does not run. -/
inductive Refusal
  /-- Raised by no meaning: an arm of `exec` without its meaning. Safe. -/
  | notModelled (mnemonic : String)
deriving DecidableEq, Repr

/-- The machine: the waiting commands, first in, first out; the block; its DRAM. -/
structure State where
  pending : List Instr := []
  blk : Block := {}
  dram : Dram := {}
deriving DecidableEq, Repr

/-- Right after reset: no command waits, every register holds its reset value, every table its default. -/
def State.reset : State := {}

end Sys2Proof.Machine
end

