-- ==== Sys2Proof/Machine/Flags.lean ====
section
/-! DEFINITION. Registers and their fields (R11, R12), status bits with their coalescing counts (R513), counters, milepost
bits (R72), and event records on their way to a ring (R506 to R514). -/

namespace Sys2Proof.Machine

/-! ## Registers -/

/-- A register of the control space, by offset. -/
def rd (b : Block) (off : Nat) : Nat := (b.regs.get (regReset off) off).toNat

/-- Store a register whole. -/
def wr (b : Block) (off v : Nat) : Block :=
  { b with regs := b.regs.set (regReset off) off (BitVec.ofNat 64 v) }

/-- A field of a register. -/
def fget (b : Block) (off : Nat) (f : Fld) : Nat := bitsOf (rd b off) f.hi f.lo

/-- Store a field of a register, cut to its width. -/
def fset (b : Block) (off : Nat) (f : Fld) (v : Nat) : Block := wr b off (putBits (rd b off) f.hi f.lo v)

/-- Is a field nonzero? -/
def fon (b : Block) (off : Nat) (f : Fld) : Bool := fget b off f != 0

/-- A CSR of a hart. -/
def rdCsr (b : Block) (hart num : Nat) : Nat := (b.csrs.get (csrReset (csrKey hart num)) (csrKey hart num)).toNat

/-- Store a CSR of a hart whole. -/
def wrCsr (b : Block) (hart num v : Nat) : Block :=
  { b with csrs := b.csrs.set (csrReset (csrKey hart num)) (csrKey hart num) (BitVec.ofNat 64 v) }

def cget (b : Block) (hart num : Nat) (f : Fld) : Nat := bitsOf (rdCsr b hart num) f.hi f.lo
def cset (b : Block) (hart num : Nat) (f : Fld) (v : Nat) : Block :=
  wrCsr b hart num (putBits (rdCsr b hart num) f.hi f.lo v)

/-! ## Identity -/

/-- This package's number (R19). -/
def pkgNo (b : Block) : Nat := fget b (HWY_FABRIC_STATUS .n) HWY_FABRIC_STATUS_PKG

/-- Node ID of an agent of this package. -/
def myNode (b : Block) (agent : Nat) : Nat := nodeId (pkgNo b) agent

/-- Hub that holds a quarter (R15). -/
def quarterHub (q : Nat) : Hub := hubOf (q / 2)

/-- Partition that owns a quarter, as its hub's HUB_PART_STATE shows it (R389). -/
def quarterPart (b : Block) (q : Nat) : Option Nat :=
  let r := HUB_PART_STATE (quarterHub q)
  if bitOf (fget b r HUB_PART_STATE_IN_USE) q then
    some (bitsOf (fget b r HUB_PART_STATE_OWNER) (2 * q + 1) (2 * q)) else none

/-- Partition of a compute die. -/
def diePart (b : Block) (k : Nat) : Option Nat := quarterPart b (dieQuarter k)

/-- Partition to which the guest site beside a hub is assigned (R17). -/
def sitePart (b : Block) (h : Hub) : Option Nat :=
  if fon b (SPUR_GUEST_CTRL h) SPUR_GUEST_CTRL_ASSIGNED then some (fget b (SPUR_GUEST_CTRL h) SPUR_GUEST_CTRL_PART)
  else none

/-- Quarters of a partition, as the two hubs show them. -/
def partQuarters (b : Block) (p : Nat) : List Nat := (List.range 4).filter fun q => quarterPart b q == some p

/-- STATE of a partition at a hub: 0 absent, 1 held, 2 running, 3 in reset (R389). -/
def partState (b : Block) (h : Hub) (p : Nat) : Nat :=
  bitsOf (fget b (HUB_PART_STATE h) HUB_PART_STATE_STATE) (2 * p + 1) (2 * p)

/-- A partition exists where it has a quarter. -/
def partExists (b : Block) (p : Nat) : Bool := !(partQuarters b p).isEmpty

/-- Hubs that a partition touches. -/
def partHubs (b : Block) (p : Nat) : List Hub :=
  [Hub.n, Hub.s].filter fun h => (partQuarters b p).any fun q => quarterHub q == h

/-- Index of the die's or hub's copy of the time counter (R366). -/
def timeKey (agent : Nat) : Nat := if agent < 12 then agent else 16 + agent % 2

/-- The copy of the 100 MHz time counter at an agent's die. -/
def timeAt (b : Block) (agent : Nat) : Word := b.time.get 0 (timeKey agent)

/-! ## Event records (R508 to R514) -/

/-- Severities (R508). -/
abbrev sevInfo : Nat := 0
abbrev sevCorr : Nat := 1
abbrev sevDefer : Nat := 2
abbrev sevUncorr : Nat := 3
abbrev sevFatal : Nat := 4

/-- Key of a ring in `Block.rings`. -/
def ringKey : RingId → Nat
  | .ring h r => h.idx * 64 + r.val
  | .ao h a => 128 + h.idx * 2 + a.val

/-- Owner of a record by the first rows of R514: agent and unit of its source. -/
def evOwner (b : Block) (ag unit : Nat) : Option Nat :=
  if ag < 12 then diePart b ag
  else
    let h := hubOf (ag % 2)
    let quarter (west : Bool) := quarterPart b (h.idx * 2 + (if west then 0 else 1))
    if ag = 16 ∨ ag = 17 then
      if unit < 32 then quarter (decide (unit < 16))
      else if unit < 38 then quarter (decide (unit < 35))
      else if unit = 38 then sitePart b h
      else if 40 ≤ unit ∧ unit < 48 then quarter (decide (unit < 44))
      else if unit = 48 ∨ unit = 49 then quarter (decide (unit = 48))
      else none
    else if ag = 18 ∨ ag = 19 then if unit < 16 then quarter (decide (unit < 8)) else none
    else if ag = 20 ∨ ag = 21 then quarter (decide (unit < 8))
    else none

/-- Raise a record with a given owner: word 0 to 3 by R508, SEQ by R510; it joins the event path of its source's hub. -/
def raiseOwned (b : Block) (owner : Option Nat) (ag unit cls kind sev flags d0 d1 : Nat) (aoOnly : Bool := false) :
    Block :=
  let key := ag * 256 + unit
  let seq := b.evSeq.get 0 key
  let src := place (pkgNo b) 15 13 + place ag 12 8 + place unit 7 0
  let w0 := place seq 63 32 + place src 31 16 + place cls 15 12 + place kind 11 8 + place sev 7 5 + place flags 4 0
  let ev : EvRec := { w0 := BitVec.ofNat 64 w0, w1 := timeAt b ag, w2 := BitVec.ofNat 64 d0, w3 := BitVec.ofNat 64 d1 }
  { b with
    evSeq := b.evSeq.set 0 key ((seq + 1) % 2 ^ 32)
    evPath := b.evPath.upd [] (agentHub ag).idx fun l => l ++ [{ ev := ev, owner := owner, aoOnly := aoOnly }] }

/-- Raise a record whose owner follows from its source (R514). -/
def raise (b : Block) (ag unit cls kind sev flags d0 d1 : Nat) (aoOnly : Bool := false) : Block :=
  raiseOwned b (evOwner b ag unit) ag unit cls kind sev flags d0 d1 aoOnly

/-! ## Status bits (R513) -/

/-- Source, class and severity of the records of a status bit. -/
structure BitSrc where
  ag : Nat
  unit : Nat
  cls : Nat
  sev : Nat
deriving DecidableEq, Repr

/-- Severity of a bit of HUB_LINK_ERR (R507; log entry 20). -/
def linkErrSev (bit : Nat) : Nat :=
  if bit = 6 ∨ bit = 5 then sevUncorr else if bit = 7 then sevDefer else if bit = 8 then sevInfo else sevCorr

/-- Source, class and severity of a status bit of a hub's registers, by relative offset (R507, R509; log entry 20). -/
def hubBitSrc (h rel bit : Nat) : BitSrc :=
  if rel = 0x418 then ⟨16 + h, 38, 2, if bit = 11 then sevUncorr else sevInfo⟩
  else if rel = 0x700 then ⟨16 + h, 50, 9, if bit = 0 then sevCorr else if bit = 2 then sevInfo else sevUncorr⟩
  else if rel = 0x708 then ⟨16 + h, 50, 9, sevUncorr⟩
  else if rel = 0x808 then ⟨16 + h, 51, 10, sevInfo⟩
  else if rel = 0xA00 then
    if bit = 3 then ⟨22 + h, 3, 11, sevFatal⟩ else if bit = 2 then ⟨16 + h, 0, 4, sevFatal⟩ else ⟨16 + h, 53, 14, sevInfo⟩
  else if 0x1_0000 ≤ rel ∧ rel < 0x1_0800 then ⟨16 + h, 32 + (rel - 0x1_0000) / 0x100, 1, linkErrSev bit⟩
  else if 0x1_1000 ≤ rel ∧ rel < 0x1_1800 then ⟨16 + h, 32 + (rel - 0x1_1000) / 0x100, 2, sevDefer⟩
  else if 0x3_0000 ≤ rel ∧ rel < 0x3_2000 then ⟨16 + h, 40 + (rel - 0x3_0000) / 0x400, 5, sevInfo⟩
  else if 0x5_0000 ≤ rel ∧ rel < 0x5_0200 then ⟨16 + h, 48 + (rel - 0x5_0000) / 0x100, 1, linkErrSev bit⟩
  else if 0x5_1000 ≤ rel ∧ rel < 0x5_1200 then ⟨16 + h, 48 + (rel - 0x5_1000) / 0x100, 2, sevDefer⟩
  else ⟨16 + h, 53, 14, sevInfo⟩

/-- Source, class and severity of a status bit at an offset of the control space. -/
def bitSrc (off bit : Nat) : BitSrc :=
  if off < 0x2000_0000 then hubBitSrc (off / 0x1000_0000) (off % 0x1000_0000) bit
  else if off < 0x20C0_0000 then
    let k := (off - 0x2000_0000) / 0x10_0000
    let rel := (off - 0x2000_0000) % 0x10_0000
    if 0x400 ≤ rel ∧ rel < 0x500 then ⟨k, 20, 1, linkErrSev bit⟩
    else if 0x600 ≤ rel ∧ rel < 0x700 then ⟨k, 20, 2, sevDefer⟩
    else ⟨k, 21, 9, if bit = 0 then sevCorr else sevUncorr⟩
  else ⟨if off / 0x1_0000 % 256 = 19 then 23 else 22, 1, 0, sevInfo⟩

/-- Owner of the records of a status bit: a ring's bits belong to the ring's owner (R514). -/
def bitOwner (b : Block) (off bit : Nat) : Option Nat :=
  let rel := off % 0x1000_0000
  if off < 0x2000_0000 ∧ 0x7_0000 ≤ rel ∧ rel < 0x7_4000 then
    (b.rings.get {} (off / 0x1000_0000 * 64 + (rel - 0x7_0000) / 0x100)).part
  else evOwner b (bitSrc off bit).ag (bitSrc off bit).unit

/-- Word 2 of a KIND 1 record (R511). -/
def kind1Detail (count off bit : Nat) : Nat := place count 63 48 + place off 43 8 + place bit 5 0

/-- Store a status bit and its coalescing count. -/
def putStatus (b : Block) (off bit : Nat) (v : Bool) (count : Nat) : Block :=
  let b := wr b off (putBits (rd b off) bit bit (b2n v))
  { b with coal := b.coal.set 0 (off * 64 + bit) count }

/-- A hardware set of a status bit: the count advances where the bit was 1, and a KIND 1 record follows (R513). `aoOnly`
sends it to always-on ring 0 alone (R515); `world` is its WORLD flag (R508). -/
def setStatus (b : Block) (off bit : Nat) (d1 : Nat := 0) (aoOnly : Bool := false) (world : Bool := false) : Block :=
  let was := bitOf (rd b off) bit
  let count := b.coal.get 0 (off * 64 + bit)
  let count := if was then min 0xFFFF (count + 1) else count
  let s := bitSrc off bit
  raiseOwned (putStatus b off bit true count) (bitOwner b off bit) s.ag s.unit s.cls 1 s.sev
    (b2n was + 4 * b2n world) (kind1Detail count off bit) d1 aoOnly

/-- A hardware set that raises no record: CLASS 14 records by R546. -/
def setStatusQuiet (b : Block) (off bit : Nat) : Block :=
  let was := bitOf (rd b off) bit
  let count := b.coal.get 0 (off * 64 + bit)
  putStatus b off bit true (if was then min 0xFFFF (count + 1) else count)

/-- A set that meets a software clear in one cycle: the set wins, and the record carries COALESCED and CLEAR_RACE (R513). -/
def setStatusRace (b : Block) (off bit : Nat) : Block :=
  let count := min 0xFFFF (b.coal.get 0 (off * 64 + bit) + 1)
  let s := bitSrc off bit
  raiseOwned (putStatus b off bit true count) (bitOwner b off bit) s.ag s.unit s.cls 1 s.sev 3
    (kind1Detail count off bit) 0

/-- A software clear of a status bit that no set meets: bit and count clear (R513). -/
def clearStatus (b : Block) (off bit : Nat) : Block := putStatus b off bit false 0

/-! ## Counters -/

/-- Advance a 32-bit counter that saturates. -/
def bumpBy (b : Block) (off n : Nat) : Block := wr b off (min 0xFFFF_FFFF (rd b off + n))

def bump (b : Block) (off : Nat) : Block := bumpBy b off 1

/-- Advance a counter by which an error is reported without a status bit: a KIND 2 record follows (R506, R511). -/
def bumpErr (b : Block) (off ag unit cls sev : Nat) (d1 : Nat := 0) : Block :=
  raise (bump b off) ag unit cls 2 sev 0 (place off 43 8) d1

/-- Does a hub count an event of this WORLD in the counters of R326? -/
def countsWorld (b : Block) (h : Hub) (world : Bool) : Bool :=
  !world || fon b (HUB_WORLD_CTRL h) HUB_WORLD_CTRL_COUNT_SECURE

/-- Advance a counter that R326 keeps from WORLD 1 events. -/
def bumpW (h : Hub) (world : Bool) (b : Block) (off : Nat) : Block := if countsWorld b h world then bump b off else b

/-- Advance such a counter where it reports an error (R506). -/
def bumpErrW (h : Hub) (world : Bool) (b : Block) (off ag unit cls sev : Nat) (d1 : Nat := 0) : Block :=
  if countsWorld b h world then raise (bump b off) ag unit cls 2 sev (4 * b2n world) (place off 43 8) d1 else b

/-- Advance a field that saturates at its width. -/
def bumpFld (b : Block) (off : Nat) (f : Fld) (n : Nat := 1) : Block :=
  fset b off f (min (2 ^ (f.hi + 1 - f.lo) - 1) (fget b off f + n))

/-- Advance a field modulo its width. -/
def addFld (b : Block) (off : Nat) (f : Fld) (n : Nat) : Block := fset b off f (fget b off f + n)

/-- Lower a field, not below 0. -/
def subFld (b : Block) (off : Nat) (f : Fld) (n : Nat) : Block := fset b off f (fget b off f - n)

/-! ## Mileposts (R72) -/

/-- Give a milepost bit a value; a change raises a KIND 3 record of the function's class and source. -/
def setMilepost (b : Block) (off bit : Nat) (v : Bool) (ag unit cls : Nat) : Block :=
  if bitOf (rd b off) bit = v then b
  else raise (wr b off (putBits (rd b off) bit bit (b2n v))) ag unit cls 3 sevInfo 0
    (place off 43 8 + place bit 5 0) (b2n v)

/-- Milepost of the die or guest behind a hub end: DIE bit p, SPUR or CAUSEWAY, numbered as the link ends (R76). -/
def setEndMilepost (b : Block) (h : Hub) (l : Nat) (v : Bool) : Block :=
  setMilepost b (HUB_MILEPOST_DIES h) l v (agHome h) (32 + l) 1

def endMilepost (b : Block) (h : Hub) (l : Nat) : Bool := bitOf (rd b (HUB_MILEPOST_DIES h)) l

/-- HOME milepost of a hub. -/
def homeReady (b : Block) (h : Hub) : Bool := fon b (HUB_MILEPOST_DIES h) HUB_MILEPOST_DIES_HOME

/-- Milepost of memory channel `c` of a hub. -/
def chanReady (b : Block) (h : Hub) (c : Nat) : Bool := bitOf (rd b (HUB_MILEPOST_IO h)) c

def setChanReady (b : Block) (h : Hub) (c : Nat) (v : Bool) : Block :=
  setMilepost b (HUB_MILEPOST_IO h) c v (agHome h) (40 + c) 5

/-- Milepost of root port `n` of a hub. -/
def portReady (b : Block) (h : Hub) (n : Nat) : Bool := bitOf (rd b (HUB_MILEPOST_IO h)) (8 + n)

def setPortReady (b : Block) (h : Hub) (n : Nat) (v : Bool) : Block :=
  setMilepost b (HUB_MILEPOST_IO h) (8 + n) v (agIo h) n 7

/-- Milepost of a highway link of a hub. -/
def hwyReady (b : Block) (h : Hub) (k : Nat) : Bool := bitOf (rd b (HUB_MILEPOST_IO h)) (24 + k)

def setHwyReady (b : Block) (h : Hub) (k : Nat) (v : Bool) : Block :=
  setMilepost b (HUB_MILEPOST_IO h) (24 + k) v (agHome h) (48 + k) 11

def engineReady (b : Block) (h : Hub) (e : Nat) : Bool := bitOf (rd b (HUB_MILEPOST_DM h)) e

def setEngineReady (b : Block) (h : Hub) (e : Nat) (v : Bool) : Block :=
  setMilepost b (HUB_MILEPOST_DM h) e v (agDm h) e 8

def setThMilepost (b : Block) (h : Hub) (bit : Nat) (v : Bool) : Block :=
  setMilepost b (HUB_MILEPOST_TH h) bit v (agTh h) 0 13

def setDieMilepost (b : Block) (k bit : Nat) (v : Bool) : Block :=
  setMilepost b (FCD_MILEPOST k) bit v k (if bit < 20 then bit else if bit = 20 then 21 else 20)
    (if bit < 20 then 12 else 9)

/-! ## Free values (log entry 3) -/

/-- The next free number, with the counter advanced. -/
def freeNat (b : Block) : Nat × Block := (Config.freeNat b.freeIx, { b with freeIx := b.freeIx + 1 })

def freeWord (b : Block) : Word × Block := (Config.freeWord b.freeIx, { b with freeIx := b.freeIx + 1 })

/-- A record of an error that a cache array's protection finds, CLASS 4. No status bit or counter reports it, so its KIND and
its details are free values (R275, R279, R293, R506; log entry 116). -/
def raiseArray (b : Block) (ag unit sev : Nat) (world : Bool) : Block :=
  let (k, b) := freeNat b
  let (d0, b) := freeWord b
  let (d1, b) := freeWord b
  raise b ag unit 4 (1 + k % 9) sev (4 * b2n world) d0.toNat d1.toNat

def freeLine (b : Block) : LineData × Block := (Config.freeLine b.freeIx, { b with freeIx := b.freeIx + 1 })

/-- Choose among the items of a list: by a free number where there are several, and none of an empty list. -/
def freePick {α : Type} (b : Block) (xs : List α) : Option α × Block :=
  match xs with
  | [] => (none, b)
  | [x] => (some x, b)
  | _ => (xs[Config.freeNat b.freeIx % xs.length]?, { b with freeIx := b.freeIx + 1 })

end Sys2Proof.Machine
end

