-- ==== Sys2Proof/Machine/Ops.lean ====
section
/-! DEFINITION. The named operations that the meanings share: the memory of the channels, the address decode (R26, R34,
R41, R458), the checks of world regions and lent memory (R316, R472), the registers' owners, and the transport of messages
from hub to hub, link end and agent (R20, R126, R148 to R152, R220). -/

namespace Sys2Proof.Machine

/-! ## Answers -/

/-- The next state with the block `b`: the command queue and the DRAM stay. -/
def nextBlk (s : State) (b : Block) : Host.Outcome State Fault Refusal := .next { s with blk := b }

/-- The next state with the block `x.1` and the DRAM `x.2`. -/
def nextMem (s : State) (x : Block × Dram) : Host.Outcome State Fault Refusal :=
  .next { s with blk := x.1, dram := x.2 }

/-! ## DRAM (R332, R337) -/

/-- Address of a byte of DRAM: package channel and media address. -/
def dramAddr (chan ma : Nat) : Nat := chan * 2 ^ 40 + ma % 2 ^ 40

/-- One byte of DRAM; an unlisted byte reads 0, the value of the zero fill (R332). -/
def Dram.byte (d : Dram) (a : Nat) : Byte := d.bytes.get 0 a

/-- Write one byte of DRAM. -/
def Dram.setByte (d : Dram) (a : Nat) (v : Byte) : Dram := { d with bytes := d.bytes.set 0 a v }

/-- Write the low `n` bytes of a number from an address up (R9). -/
def Dram.setBytes (d : Dram) (a v : Nat) : Nat → Dram
  | 0 => d
  | n + 1 => (d.setBytes a v n).setByte (a + n) (BitVec.ofNat 8 (v >>> (8 * n)))

/-- `n` bytes of DRAM from an address up, as a number. -/
def Dram.getBytes (d : Dram) (a : Nat) : Nat → Nat
  | 0 => 0
  | n + 1 => d.getBytes a n + (d.byte (a + n)).toNat * 2 ^ (8 * n)

/-- Give the poison marks of words from a word index up. -/
def Dram.setMarks (d : Dram) (w p : Nat) : Nat → Dram
  | 0 => d
  | n + 1 =>
    let d := d.setMarks w p n
    { d with poison := d.poison.set false (w + n) (bitOf p n) }

/-- The poison marks of words from a word index up. -/
def Dram.getMarks (d : Dram) (w : Nat) : Nat → Nat
  | 0 => 0
  | n + 1 => d.getMarks w n + b2n (d.poison.get false (w + n)) * 2 ^ n

/-- Read a line of a channel with its poison marks (R337). -/
def Dram.readLine (d : Dram) (chan ma : Nat) : LineData × Poison :=
  let a := dramAddr chan (ma / 64 * 64)
  (BitVec.ofNat 512 (d.getBytes a 64), BitVec.ofNat 8 (d.getMarks (a / 8) 8))

/-- Write a line of a channel with its poison marks (R337). -/
def Dram.writeLine (d : Dram) (chan ma : Nat) (data : LineData) (p : Poison) : Dram :=
  let a := dramAddr chan (ma / 64 * 64)
  (d.setBytes a data.toNat 64).setMarks (a / 8) p.toNat 8

/-- Drop every cell of a channel: the zero fill of R332. -/
def Dram.clearChan (d : Dram) (chan : Nat) : Dram :=
  { bytes := { cells := d.bytes.cells.filter fun c => c.1 / 2 ^ 40 != chan }
    poison := { cells := d.poison.cells.filter fun c => c.1 / 2 ^ 37 != chan } }

/-- The canonical form of both lists. -/
def Dram.wf (d : Dram) : Bool := d.bytes.wf (fun _ => 0) && d.poison.wf (fun _ => false)

/-! ## Tables of the block -/

/-- Key of a link end. -/
def linkKey : LinkId → Nat
  | .hub h l => h.idx * 8 + l.val
  | .die k => 16 + k.val
  | .hwy h k => 28 + h.idx * 2 + k.val

def getLink (b : Block) (e : LinkId) : LinkEnd := b.links.get {} (linkKey e)
def updLink (b : Block) (e : LinkId) (f : LinkEnd → LinkEnd) : Block := { b with links := b.links.upd {} (linkKey e) f }

def getSlice (b : Block) (h : Hub) (s : Nat) : Slice := b.slices.get {} (h.idx * 32 + s)
def updSlice (b : Block) (h : Hub) (s : Nat) (f : Slice → Slice) : Block :=
  { b with slices := b.slices.upd {} (h.idx * 32 + s) f }

def getHart (b : Block) (i : Nat) : HartSt := b.harts.get {} i
def updHart (b : Block) (i : Nat) (f : HartSt → HartSt) : Block := { b with harts := b.harts.upd {} i f }

def getDie (b : Block) (k : Nat) : DieSt := b.dies.get {} k
def updDie (b : Block) (k : Nat) (f : DieSt → DieSt) : Block := { b with dies := b.dies.upd {} k f }

/-- Channel `c` of a hub is package channel 8 × hub + c. -/
def getChan (b : Block) (pc : Nat) : Chan := b.chans.get {} pc
def updChan (b : Block) (pc : Nat) (f : Chan → Chan) : Block := { b with chans := b.chans.upd {} pc f }

def getIo (b : Block) (h : Hub) : IoAgent := b.io.get {} h.idx
def updIo (b : Block) (h : Hub) (f : IoAgent → IoAgent) : Block := { b with io := b.io.upd {} h.idx f }
def getSpur (b : Block) (h : Hub) : Spur := b.spurs.get {} h.idx
def updSpur (b : Block) (h : Hub) (f : Spur → Spur) : Block := { b with spurs := b.spurs.upd {} h.idx f }
def getMover (b : Block) (h : Hub) : Mover := b.movers.get {} h.idx
def updMover (b : Block) (h : Hub) (f : Mover → Mover) : Block := { b with movers := b.movers.upd {} h.idx f }
def getTh (b : Block) (h : Hub) : Tollhouse := b.tolls.get {} h.idx
def updTh (b : Block) (h : Hub) (f : Tollhouse → Tollhouse) : Block := { b with tolls := b.tolls.upd {} h.idx f }
def getMbx (b : Block) (m : Nat) : Mbx := b.mbx.get {} m
def updMbx (b : Block) (m : Nat) (f : Mbx → Mbx) : Block := { b with mbx := b.mbx.upd {} m f }
def getRing (b : Block) (k : Nat) : Ring := b.rings.get {} k
def updRing (b : Block) (k : Nat) (f : Ring → Ring) : Block := { b with rings := b.rings.upd {} k f }
def getChanDm (b : Block) (h : Hub) (n : Nat) : DmChan := (getMover b h).chans.get {} n
def updChanDm (b : Block) (h : Hub) (n : Nat) (f : DmChan → DmChan) : Block :=
  updMover b h fun m => { m with chans := m.chans.upd {} n f }
def getPort (b : Block) (h : Hub) (p : Nat) : Port := (getIo b h).ports.get {} p
def updPort (b : Block) (h : Hub) (p : Nat) (f : Port → Port) : Block :=
  updIo b h fun i => { i with ports := i.ports.upd {} p f }

/-- Something leaves the block. -/
def emit (b : Block) (o : Out) : Block := { b with outbox := b.outbox ++ [o] }

/-- Has a block accepted in the power attempt under way, so that it starts no new work (R405)? The key is the BLOCK_KIND
times 256 plus the BLOCK_INDEX of R408. -/
def hasAccepted (b : Block) (key : Nat) : Bool :=
  match b.power.attempt with
  | some (_, _, acc) => acc.contains key
  | none => false

/-! ## Inboxes (R20) -/

/-- Keys of the agents that take messages. -/
def boxSlice (h : Hub) (s : Nat) : Nat := h.idx * 32 + s
def boxIo (h : Hub) : Nat := 64 + h.idx
def boxDm (h : Hub) : Nat := 66 + h.idx
def boxTh (h : Hub) : Nat := 68 + h.idx
def boxDie (k : Nat) : Nat := 70 + k
def boxHome (h : Hub) : Nat := 82 + h.idx

def getBox (b : Block) (key vc : Nat) : List Msg := b.inbox.get [] (key * 8 + vc)
def putBox (b : Block) (key vc : Nat) (l : List Msg) : Block := { b with inbox := b.inbox.set [] (key * 8 + vc) l }
def pushBox (b : Block) (key : Nat) (m : Msg) : Block :=
  putBox b key (hVc m.hdr) (getBox b key (hVc m.hdr) ++ [m])

/-! ## Address decode -/

/-- What an address decodes to (R26). -/
inductive Dec
  | ctl (off : Nat)
  | fab (pkg off : Nat)
  | group (g pkg : Nat) (spot : Spot)
  | win (h : Hub) (w kind port : Nat)
  | unmapped
deriving DecidableEq, Repr

abbrev ctlBase : Nat := 0xF_FFF0_0000_0000
abbrev fabBase : Nat := 0xF_FF00_0000_0000
abbrev fabEnd : Nat := 0xF_FF80_0000_0000

/-- Does group `g` of a hub match under a partition (R34, R35)? -/
def groupHits (b : Block) (h : Hub) (part pa g : Nat) : Bool :=
  let r := rd b (HUB_HOME_GROUP h g)
  let f (x : Fld) := bitsOf r x.hi x.lo
  let base := f HUB_HOME_GROUP_BASE * 2 ^ 30
  f HUB_HOME_GROUP_PART == part && qmaskOk (f HUB_HOME_GROUP_QMASK) &&
    decide (base ≤ pa ∧ pa < base + f HUB_HOME_GROUP_SIZE_GIB * 2 ^ 30)

/-- The lowest group that matches (R26). -/
def groupOf (b : Block) (h : Hub) (part pa : Nat) : Option Nat :=
  (List.range 32).find? (groupHits b h part pa)

/-- Mode of the lane group that holds a root port (R451). -/
def portMode (b : Block) (h : Hub) (port : Nat) : Nat := b.pkg.modesNow.getD (h.idx * 4 + port / 4) 0

/-- Does a root port exist in its group's mode (R451)? -/
def portExists (b : Block) (h : Hub) (port : Nat) : Bool :=
  match portMode b h port with
  | 0 => port % 4 == 0
  | 1 => port % 4 == 0 || port % 4 == 2
  | 2 => port % 4 != 1
  | 3 => true
  | _ => false

/-- Quarter of a hub's root port (R451), window (R457), data-mover channel or event ring: western or eastern. -/
def quarterOf (h : Hub) (west : Bool) : Nat := h.idx * 2 + (if west then 0 else 1)
def portQuarter (h : Hub) (port : Nat) : Nat := quarterOf h (decide (port < 8))
def winQuarter (h : Hub) (w : Nat) : Nat := quarterOf h (decide (w < 32))

/-- Can a window match any address (R458, R459)? -/
def winUsable (b : Block) (h : Hub) (w : Nat) : Bool :=
  let r := rd b (HUB_HPW_BASE h w)
  let port := bitsOf r 55 52
  bitOf r 63 && bitsOf r 59 58 != 3 && portExists b h port && portQuarter h port == winQuarter h w

/-- Does a window match under a partition (R458)? -/
def winHits (b : Block) (part pa : Nat) (x : Hub × Nat) : Bool :=
  let base := bitsOf (rd b (HUB_HPW_BASE x.1 x.2)) 51 12 * 4096
  winUsable b x.1 x.2 && quarterPart b (winQuarter x.1 x.2) == some part &&
    decide (base ≤ pa ∧ pa < base + fget b (HUB_HPW_SIZE x.1 x.2) HUB_HPW_SIZE_PAGES * 4096)

/-- The windows in matching order (R458). -/
def allWindows : List (Hub × Nat) :=
  ((List.range 64).map fun w => (Hub.n, w)) ++ (List.range 64).map fun w => (Hub.s, w)

/-- Decode an address at a hub under a partition (R26, R34, R41, R458). -/
def decodePa (b : Block) (h : Hub) (part pa : Nat) : Dec :=
  if ctlBase ≤ pa then .ctl (pa - ctlBase)
  else if fabEnd ≤ pa then .unmapped
  else if fabBase ≤ pa then
    let p := (pa - fabBase) / 2 ^ 36
    if p = pkgNo b then .ctl ((pa - fabBase) % 2 ^ 36) else .fab p ((pa - fabBase) % 2 ^ 36)
  else match groupOf b h part pa with
  | some g =>
    let r := rd b (HUB_HOME_GROUP h g)
    .group g (bitsOf r 58 56) (spotOf (bitsOf r 55 52) (bitsOf r 51 30 * 2 ^ 30) pa)
  | none =>
    match allWindows.find? (winHits b part pa) with
    | some (wh, w) =>
      let r := rd b (HUB_HPW_BASE wh w)
      .win wh w (bitsOf r 59 58) (bitsOf r 55 52)
    | none => .unmapped

/-- Guest space of a control-space offset (R29). -/
def guestSpace (off : Nat) : Option Hub :=
  if 0x3000_0000 ≤ off ∧ off < 0x3800_0000 then some .n
  else if 0x3800_0000 ≤ off ∧ off < 0x4000_0000 then some .s
  else none

/-- DST of a REQ (R551): none where the address admits no REQ. -/
def reqDst (b : Block) (d : Dec) : Option Nat :=
  match d with
  | .group _ pkg spot => some (nodeId pkg (16 + spot.hub))
  | .win h _ 1 _ => some (myNode b (agHome h))
  | _ => none

/-- DST of an IoRd or IoWr from a requester at hub `h` (R551). An access to a guest space goes to the guest's node (R227,
R231; log entry 21). -/
def pioDst (b : Block) (h : Hub) (d : Dec) : Option Nat :=
  match d with
  | .group _ pkg spot => some (nodeId pkg (16 + spot.hub))
  | .win wh _ 1 _ => some (myNode b (agHome wh))
  | .win wh _ _ _ => some (myNode b (agIo wh))
  | .ctl off =>
    match guestSpace off with
    | some gh => some (myNode b (agGuest gh))
    | none => some (myNode b (agIo h))
  | .fab pkg _ => some (nodeId pkg (agIo h))
  | .unmapped => none

/-- Is an address main memory for its requester (R27, R459)? -/
def isMain (d : Dec) : Bool :=
  match d with
  | .group _ _ _ => true
  | .win _ _ 1 _ => true
  | _ => false

/-! ## World regions and lent memory -/

/-- Is an address in an enabled world region of a hub for a partition (R316)? -/
def inRegion (b : Block) (h : Hub) (part pa : Nat) : Bool :=
  (List.range 64).any fun n =>
    let r := rd b (HUB_WORLD_REGION_BASE h n)
    bitOf r 63 && bitOf (bitsOf r 59 56) part &&
      decide (bitsOf r 51 12 * 4096 ≤ pa ∧
        pa < (bitsOf r 51 12 + fget b (HUB_WORLD_REGION_SIZE h n) HUB_WORLD_REGION_SIZE_PAGES) * 4096)

/-- Is an address in the range that an endpoint lends, for a request decoded under the lending partition whose SRC is not
that endpoint's I/O agent (R472)? -/
def inLent (b : Block) (part pa src : Nat) : Bool :=
  [Hub.n, Hub.s].any fun h =>
    match (getIo b h).ep.lent with
    | none => false
    | some (p, base, size) => p == part && decide (base ≤ pa ∧ pa < base + size) && src != myNode b (agIo h)

/-- Count and report a request refused by R317 at a hub's agent. -/
def countDenied (b : Block) (h : Hub) (ag unit pa : Nat) (hdr : Hdr) : Block :=
  raise (bumpFld b (HUB_WORLD_STAT h) HUB_WORLD_STAT_DENIED) ag unit 6 7 sevInfo (b2n (hWorld hdr) * 4) pa
    (hdr.toNat % 2 ^ 64)

/-! ## Lost writes (R28, R257, R259) -/

/-- Key of the count that a holder keeps against SRC and DST. -/
def lostKey (holder src dst : Nat) : Nat := holder * 65536 + src * 256 + dst

/-- Holder number of a hub's link ends and checks. -/
def hubHolder (h : Hub) : Nat := 1 + h.idx

def addLost (b : Block) (holder src dst : Nat) (n : Nat := 1) : Block :=
  { b with lostWrites := b.lostWrites.upd 0 (lostKey holder src dst) (· + n) }

def lostOf (b : Block) (holder src dst : Nat) : Nat := b.lostWrites.get 0 (lostKey holder src dst)

def clearLost (b : Block) (holder src dst : Nat) : Block :=
  { b with lostWrites := b.lostWrites.set 0 (lostKey holder src dst) 0 }

/-- A count as LOST_COUNT carries it. -/
def lostField (n : Nat) : Nat := min 0xFFFF n

/-! ## Routes and reachability -/

/-- Where the route from a hub to a node leads (R126, HWY_ROUTE_n). -/
inductive Hop
  | here
  | link (e : LinkId)
  | nowhere
deriving DecidableEq, Repr

/-- Is an agent of this package declared lost at a hub (R216, R217)? -/
def agentLost (b : Block) (h : Hub) (a : Nat) : Bool :=
  if a < 14 then bitOf (fget b (HUB_JCT_LOST h) HUB_JCT_LOST_LOST) a
  else fon b (HUB_JCT_LOST h) HUB_JCT_LOST_FAR_HUB && hubOf (a % 2) == h.other

/-- Is a package lost (R495), or outside the fabric? -/
def pkgLost (b : Block) (h : Hub) (p : Nat) : Bool :=
  bitOf (fget b (HWY_FABRIC_STATUS h) HWY_FABRIC_STATUS_LOST) p

/-- Route within the package. -/
def localHop (h : Hub) (a : Nat) : Hop :=
  if agentReserved a then .nowhere
  else if agentHub a = h then (if a < 14 then .link (hubEnd a) else .here)
  else .link (.hub h 7)

/-- Route from hub `h` to node `n`. -/
def hubHop (b : Block) (h : Hub) (n : Nat) : Hop :=
  if nodePkg n = pkgNo b then localHop h (nodeAgent n)
  else
    let r := rd b (HWY_ROUTE h n)
    let alt := fget b (HWY_FABRIC_STATUS h) HWY_FABRIC_STATUS_ALT
    match if alt = 1 then bitsOf r 7 4 else bitsOf r 3 0 with
    | 1 => localHop h (nodeAgent n)
    | 2 => .link (.hwy h 0)
    | 3 => .link (.hwy h 1)
    | 4 => .link (.hub h 7)
    | _ => .nowhere

/-- Can a hub reach a node with a request (row 6 of R150, R6, R17, R392, R485)? -/
def reachable (b : Block) (h : Hub) (n : Nat) : Bool :=
  let a := nodeAgent n
  if nodePkg n = pkgNo b then
    !agentReserved a && !agentLost b h a &&
      (if a = 12 ∨ a = 13 then endMilepost b (hubOf (a % 2)) 6 && (sitePart b (hubOf (a % 2))).isSome else true)
  else hubHop b h n != .nowhere && !pkgLost b h (nodePkg n) &&
    bitOf (fget b (HWY_FABRIC_STATUS h) HWY_FABRIC_STATUS_MEMBERS) (nodePkg n)

/-- An agent that never receives a message of this channel (row 6 of R150, R141). -/
def neverReceives (m : Hdr) : Bool :=
  let a := nodeAgent (hDst m)
  match hVc m with
  | 0 => !(a == 16 || a == 17 || a == 18 || a == 19)
  | 4 => decide (a < 12)
  | 5 => hOp m == opMgtMsg && !(a == 22 || a == 23)
  | _ => false

/-! ## Partition of a requester (R34) -/

/-- Partition under which an address of a hub's I/O agent or data mover was decoded: recorded with its outstanding request;
otherwise the lowest partition under which the address decodes here (log entry 22). -/
def agentReqPart (b : Block) (h : Hub) (a tag pa : Nat) : Nat :=
  let rs := if a < 20 then (getIo b (hubOf (a % 2))).reqs
    else if a < 22 then (getMover b (hubOf (a % 2))).reqs else (getTh b (hubOf (a % 2))).reqs
  match rs.find? (fun r => r.tag == tag) with
  | some r => r.part
  | none => ((List.range 4).find? fun p => decodePa b h p pa != .unmapped).getD 0

/-- The partition of this package that the fabric joins (R482, R489). -/
def joinedPart (b : Block) : Option Nat :=
  if fon b (HWY_FABRIC_STATUS .n) HWY_FABRIC_STATUS_FORMED then
    match b.pkg.joinNow.getD (pkgNo b) 0xFF with
    | 0xFF => none
    | p => some p
  else none

/-- Partition under which a message's address is decoded at hub `h`: a die's, a guest's, or by its agent. A message of
another package is decoded under the joined partition (R489). -/
def msgPart (b : Block) (h : Hub) (m : Hdr) (pa : Nat) : Nat :=
  let n := hSrc m
  let a := nodeAgent n
  if nodePkg n = pkgNo b then
    if a < 12 then (diePart b a).getD 0
    else if a < 14 then (sitePart b (hubOf (a % 2))).getD 0
    else agentReqPart b h a (hTag m) pa
  else (joinedPart b).getD (((List.range 4).find? fun p => (groupOf b h p pa).isSome).getD 0)

/-- Home slice of hub `h` that serves an address under a partition (R20, R41, R459); none where the address is not the
hub's (R192). -/
def homeSlice (b : Block) (h : Hub) (part pa : Nat) : Option Nat :=
  match decodePa b h part pa with
  | .group _ pkg spot => if pkg = pkgNo b ∧ spot.hub = h.idx then some spot.slice else none
  | .win wh _ 1 port => if wh = h then some ((if port < 8 then 0 else 16) + hashH pa % 16) else none
  | _ => none

/-! ## Transport -/

/-- Join the transmit queue of a link end. -/
def queueTx (b : Block) (e : LinkId) (m : Msg) : Block :=
  updLink b e fun l => { l with txq := l.txq.upd [] (hVc m.hdr) (· ++ [m]) }

/-- Reach an agent of hub `h`: requests and I/O messages for the home agent go to their slice. A message for a home slice
that no group of the hub holds goes to the home agent's own box and is answered by R192. -/
def arriveAt (b : Block) (h : Hub) (m : Msg) : Block :=
  match nodeAgent (hDst m.hdr) / 2 with
  | 8 =>
    match hVc m.hdr with
    | 0 =>
      let pa := hLine m.hdr * 64
      match homeSlice b h (msgPart b h m.hdr pa) pa with
      | some s => pushBox b (boxSlice h s) m
      | none => pushBox b (boxHome h) m
    | 2 => pushBox b (boxSlice h (rspSlice m.hdr)) m
    | 3 => pushBox b (boxSlice h (datSlice m.hdr)) m
    | 4 =>
      if hOp m.hdr = opMsFlush then pushBox b (boxHome h) m
      else match homeSlice b h (msgPart b h m.hdr (pioPa m.hdr)) (pioPa m.hdr) with
      | some s => pushBox b (boxSlice h s) m
      | none => pushBox b (boxHome h) m
    | _ => pushBox b (boxHome h) m
  | 9 => pushBox b (boxIo h) m
  | 10 => pushBox b (boxDm h) m
  | 11 => pushBox b (boxTh h) m
  | _ => b

/-- Is a message of a die or guest for a home of another package, which the highway proxy of the hub that holds the link
takes (R490)? -/
def forProxy (b : Block) (m : Hdr) : Bool :=
  nodePkg (hDst m) != pkgNo b && nodePkg (hSrc m) == pkgNo b && decide (nodeAgent (hSrc m) < 14) &&
    (nodeAgent (hDst m) == 16 || nodeAgent (hDst m) == 17) &&
    (hVc m == vcReq || (hVc m == vcDat && hOp m == opWrData))

/-- Put a message on its way from hub `h`; a message for a lost agent is dropped and counted (R220). -/
def hubPut (b : Block) (h : Hub) (m : Msg) : Block :=
  let n := hDst m.hdr
  let a := nodeAgent n
  if nodePkg n = pkgNo b ∧ a < 14 ∧ agentLost b h a = true then bumpFld b (HUB_JCT_LOST h) HUB_JCT_LOST_DROPPED
  else match hubHop b h n with
    | .here => arriveAt b h m
    | .link (.hwy x k) => if forProxy b m.hdr then pushBox b (boxIo h) m else queueTx b (.hwy x k) m
    | .link e => queueTx b e m
    | .nowhere => b

/-- The answer to a message that is refused or cannot be delivered, on behalf of its DST (R150, R548): error completions
for REQ and IoRd, Comp STATUS LOST for MsFlush with the holder's count. -/
def refusal (b : Block) (holder : Nat) (m : Hdr) : Option Hdr :=
  match hVc m with
  | 0 => some (mkComp (hWorld m) (hSrc m) (hDst m) (hTag m) stI stsError 0)
  | 4 =>
    if hOp m = opIoWr then none
    else if hOp m = opMsFlush then
      some (mkComp (hWorld m) (hSrc m) (hDst m) (hTag m) stI stsLost (lostField (lostOf b holder (hSrc m) (hDst m))))
    else some (mkComp (hWorld m) (hSrc m) (hDst m) (hTag m) stI stsError 0)
  | _ => none

/-- The answer to a request for an agent of the far half or for a home of a lost package (R392, R495): reads get poisoned
data in state I, a WrBack an error WbAck, the rest as `refusal`. -/
def farAnswer (b : Block) (holder : Nat) (m : Hdr) : Option Hdr :=
  let home := nodeAgent (hDst m) == 16 || nodeAgent (hDst m) == 17
  if (hVc m = vcReq ∧ (hOp m = opRdShared ∨ hOp m = opRdUnique ∨ hOp m = opRdOnce)) ∨
      (hVc m = vcPio ∧ hOp m = opIoRd ∧ home = true) then
    some (mkDat opCompData (hWorld m) (hSrc m) (hDst m) (hTag m) stI stsOk 0 beAll 0xFF)
  else if hVc m = vcReq ∧ hOp m = opWrBack then
    some (mkHdr vcRsp opWbAck (hWorld m) (hSrc m) (hDst m) (hTag m) (place stsError 41 40))
  else refusal b holder m

/-- What a refusal leaves in the lost-write counts: an IoWr counts, an MsFlush's answer clears (R259). -/
def refusalCount (b : Block) (holder : Nat) (m : Hdr) : Block :=
  if hVc m = vcPio ∧ hOp m = opIoWr then addLost b holder (hSrc m) (hDst m)
  else if hVc m = vcPio ∧ hOp m = opMsFlush then clearLost b holder (hSrc m) (hDst m)
  else b

/-- Is a request's DST in the far half of a split package, or in a lost package (R392, R495)? -/
def isFar (b : Block) (h : Hub) (n : Nat) : Bool :=
  if nodePkg n = pkgNo b then
    fon b (HUB_SPLIT_STATUS h) HUB_SPLIT_STATUS_SPLIT && agentHub (nodeAgent n) == h.other
  else pkgLost b h (nodePkg n)

/-- Refuse a message at hub `h` (R150, R192, R259, R392). The bytes of a poisoned answer are free. -/
def hubRefuse (b : Block) (h : Hub) (m : Hdr) : Block :=
  let far := isFar b h (hDst m)
  let c := if far then farAnswer b (hubHolder h) m else refusal b (hubHolder h) m
  let b := if far ∧ hVc m = vcReq ∧ hOp m = opWrBack then
    raise b (agHome h) 39 3 7 sevDefer (b2n (hWorld m) * 4) (hLine m * 64) (m.toNat % 2 ^ 64) else b
  let b := refusalCount b (hubHolder h) m
  match c with
  | none => b
  | some c => hubPut { b with freeIx := b.freeIx + 1 } h { hdr := c, data := Config.freeLine b.freeIx }

/-- PA of a message's address, for event records. -/
def msgPa (m : Hdr) : Nat := if hVc m = vcPio then pioPa m else if hVc m = vcReq ∨ hVc m = vcSnp then hLine m * 64 else 0

/-- Owner of a record about a message's access: the partition under which the access was decoded; none for the Tollhouse
(R514). -/
def msgOwner (b : Block) (h : Hub) (m : Hdr) : Option Nat :=
  let n := hSrc m
  let a := nodeAgent n
  if nodePkg n = pkgNo b then
    if a < 12 then diePart b a
    else if a < 14 then sitePart b (hubOf (a % 2))
    else if a / 2 = 11 then none
    else some (msgPart b h m (msgPa m))
  else joinedPart b

/-- A record of the control-space unit about a message that hub `h` refuses (R28, R509). -/
def reportPio (b : Block) (h : Hub) (m : Hdr) : Block :=
  raiseOwned b (msgOwner b h m) (agIo h) 20 0 7 sevInfo (b2n (hWorld m) * 4) (msgPa m) (m.toNat % 2 ^ 64)

/-- A hub's agent sends a message. A request whose DST cannot be reached is answered at once, and an I/O write is lost, with
an event record of the control-space unit (R28, R150, R192, R392). -/
def hubSend (b : Block) (h : Hub) (m : Msg) : Block :=
  if (hVc m.hdr = vcReq ∨ hVc m.hdr = vcPio) ∧ reachable b h (hDst m.hdr) = false then
    hubRefuse (reportPio b h m.hdr) h m.hdr
  else hubPut b h m

/-- A compute die's feeder stop sends a message: to its own die around the ring road (R172), otherwise on its feeder; a frozen
stop sends nothing (R279). -/
def dieSend (b : Block) (k : Die) (m : Msg) : Block :=
  if hDst m.hdr = myNode b k.val then pushBox b (boxDie k.val) m
  else if (getDie b k.val).frozen then b
  else queueTx b (.die k) m

/-! ## Answers without a waiting transaction (row 7 of R150) -/

/-- The set of a link end that counts a message error, with the source's unit. -/
def countMsgErr (b : Block) (e : LinkId) (cnt bit : Nat) (m : Hdr) : Block :=
  setStatus (bump b cnt) (MSG_ERR e) bit (m.toNat % 2 ^ 64) false (hWorld m)

/-- A violation by the guest at a spur end (R243, R244): the count, WARN and DOWN. The take-down itself is `takeDown`. -/
def isSpurEnd : LinkId → Option Hub
  | .hub h l => if l.val = 6 then some h else none
  | _ => none

/-- Take the front message of an inbox. -/
def popBox (b : Block) (key vc : Nat) : Option (Msg × Block) :=
  match getBox b key vc with
  | [] => none
  | m :: r => some (m, putBox b key vc r)

/-- Does the front message of an inbox have this opcode? -/
def boxHeadIs (b : Block) (key vc op : Nat) : Bool :=
  match getBox b key vc with
  | [] => false
  | m :: _ => hOp m.hdr == op

/-! ## MSI writes -/

/-- An MSI write of a hub's agent to an interrupt file (R54, R322, R522): a region of the hub refuses a normal-world one
(R316), which is then a lost write against the agent. -/
def sendMsi (b : Block) (h : Hub) (ag part pa data : Nat) (world : Bool) : Block :=
  if !world && inRegion b h part pa then
    countDenied (addLost b (hubHolder h) (myNode b ag) (myNode b (agIo h))) h (agIo h) 18 pa 0
  else emit b (.msi h pa data world)

/-! ## Tags (R21, R22, R552) -/

/-- Free tags of a source among `lo` to `hi`, given those in use. -/
def freeTags (lo hi : Nat) (used : List Nat) : List Nat :=
  ((List.range (hi + 1 - lo)).map (· + lo)).filter fun t => !used.contains t

/-- Has a source an outstanding REQ for a line, so that it holds a second one (R160)? -/
def lineBusy (reqs : List Req) (line : Nat) : Bool := reqs.any fun r => hVc r.hdr == vcReq && r.line == line

/-- Choose one of the free tags; the order of choice is not specified (R552). -/
def chooseTag (b : Block) (lo hi : Nat) (used : List Nat) : Option Nat × Block := freePick b (freeTags lo hi used)

end Sys2Proof.Machine
end

