-- ==== Sys2Proof/Machine/Loss.lean ====
section
/-! DEFINITION. Loss: what the hubs do when a link begins a new epoch or goes down, and when an answer never comes. Agents
are declared lost (R216), the package splits (R391), packages are lost (R495). -/

namespace Sys2Proof.Machine

/-- Entry of `Pkg.lostWait`: an agent whose wait of R219 runs at a hub; a package follows 32. -/
def waitKey (h : Hub) (a : Nat) : Nat := h.idx * 64 + a

/-- EPOCH of the link that leads to an agent, at its hub's end (R383). -/
def agentEpoch (b : Block) (a : Nat) : Nat := fget b (LINK_EPOCH (hubEnd a)) LINK_EPOCH_EPOCH

/-- Declare agent `a` lost at hub `h` (R216): the bit, LAST_CAUSE, the wait of R219 and a record of unit 54. -/
def declareLostAt (b : Block) (h : Hub) (a cause : Nat) : Block :=
  if bitOf (fget b (HUB_JCT_LOST h) HUB_JCT_LOST_LOST) a then b
  else
    let r := HUB_JCT_LOST h
    let b := fset b r HUB_JCT_LOST_LOST (putBits (fget b r HUB_JCT_LOST_LOST) a a 1)
    let b := fset b r HUB_JCT_LOST_LAST_CAUSE cause
    let b := { b with pkg := { b.pkg with
      lostWait := if b.pkg.lostWait.contains (waitKey h a) then b.pkg.lostWait else b.pkg.lostWait ++ [waitKey h a]
      admitted := b.pkg.admitted.filter fun x => x != a
      lostEpoch := b.pkg.lostEpoch.set 0 a (agentEpoch b a + 1) } }
    raise b (agHome h) 54 3 4 sevUncorr 0 (place r 43 8) (rd b r)

/-- Declare agent `a` lost: its milepost clears (R72) and both hubs set its bit (R216). -/
def declareLost (b : Block) (a cause : Nat) : Block :=
  let b := setEndMilepost b (agentHub a) (if a < 12 then a % 6 else 6) false
  declareLostAt (declareLostAt b .n a cause) .s a cause

/-- Agents 0 to 13 that a hub's half holds (R15, R18). -/
def halfAgents (h : Hub) : List Nat := (List.range 14).filter fun a => agentHub a == h

/-- Records of a die on its feeder's event path are lost when the feeder breaks (R516). -/
def losePath (b : Block) (h : Hub) (a : Nat) : Block :=
  let l := b.evPath.get [] h.idx
  let keep := l.filter fun e => bitsOf e.ev.w0.toNat 28 24 != a
  bumpFld { b with evPath := b.evPath.set [] h.idx keep } (HUB_ERR_STATUS h) HUB_ERR_STATUS_PATH_LOST
    (l.length - keep.length)

/-- Neighbour package at the far end of a highway link, once a roll call has formed the fabric (R483, R488). -/
def hwyNeighbour (b : Block) (h : Hub) (k : Fin 2) : Option Nat :=
  match b.pkg.neighbours.get 0 (h.idx * 2 + k.val) with
  | 0 => none
  | n + 1 => if fon b (HWY_FABRIC_STATUS h) HWY_FABRIC_STATUS_FORMED then some n else none

/-- Package that the roll call placed at the far end of a highway link, spare or not (R479). -/
def hwyFar (b : Block) (h : Hub) (k : Fin 2) : Option Nat :=
  match b.pkg.far.get 0 (h.idx * 2 + k.val) with
  | 0 => none
  | n + 1 => if fon b (HWY_FABRIC_STATUS h) HWY_FABRIC_STATUS_FORMED then some n else none

/-- Does a highway link of a hub lead to a package? -/
def hubReaches (b : Block) (h : Hub) (k : Nat) : Bool := (List.finRange 2).any fun x => hwyNeighbour b h x == some k

/-- In the split state: the packages whose proxy is the far hub's I/O agent alone (R217). -/
def farPkgs (b : Block) (h : Hub) : List Nat :=
  if fon b (HUB_SPLIT_STATUS h) HUB_SPLIT_STATUS_SPLIT then
    (List.range 8).filter fun k => hubReaches b h.other k && !hubReaches b h k else []

/-- One hub enters the split state (R391, R217): SPLIT with its time and cause, every far agent lost with LAST_CAUSE 3, the
far hub's agents in FAR_HUB. -/
def splitHub (cause : Nat) (b : Block) (h : Hub) : Block :=
  let r := HUB_SPLIT_STATUS h
  let b := fset b r HUB_SPLIT_STATUS_SPLIT 1
  let b := fset b r HUB_SPLIT_STATUS_CAUSE cause
  let b := fset b r HUB_SPLIT_STATUS_ENTRY_TIME (timeAt b (agHome h)).toNat
  let b := setStatus b r 0
  let b := setEndMilepost b h 7 false
  let b := raise b (agHome h) 50 9 4 sevUncorr 0 (place r 43 8) (rd b r)
  let b := forEach (halfAgents h.other) (fun a b => declareLostAt b h a 3) b
  let b := fset b (HUB_JCT_LOST h) HUB_JCT_LOST_FAR_HUB 1
  let waits := (farPkgs b h).map fun k => waitKey h (32 + k)
  let b := { b with pkg := { b.pkg with lostWait := b.pkg.lostWait ++ waits } }
  raise b (agHome h) 54 3 4 sevUncorr 0 (place (HUB_JCT_LOST h) 43 8) (rd b (HUB_JCT_LOST h))

/-- Enter the split state, once (R391). -/
def enterSplit (b : Block) (cause : Nat) : Block :=
  if fon b (HUB_SPLIT_STATUS .n) HUB_SPLIT_STATUS_SPLIT ∨ fon b (HUB_SPLIT_STATUS .s) HUB_SPLIT_STATUS_SPLIT then b
  else splitHub cause (splitHub cause b .n) .s

/-- Declare package `k` lost at both hubs (R495). -/
def declarePkgLostAt (b : Block) (h : Hub) (k : Nat) : Block :=
  let r := HWY_FABRIC_STATUS h
  if bitOf (fget b r HWY_FABRIC_STATUS_LOST) k then b
  else
    let b := fset b r HWY_FABRIC_STATUS_LOST (putBits (fget b r HWY_FABRIC_STATUS_LOST) k k 1)
    let b := { b with pkg := { b.pkg with lostWait := b.pkg.lostWait ++ [waitKey h (32 + k)] } }
    raise b (agHome h) 54 3 4 sevUncorr 0 (place r 43 8) (rd b r)

def declarePkgLost (b : Block) (k : Nat) : Block := declarePkgLostAt (declarePkgLostAt b .n k) .s k

/-- What a link end signals when a new epoch begins or it enters DOWN (R107, R108): the milepost clears, and the agents
behind it are lost. `cause` is CAUSE of HUB_SPLIT_STATUS. An end whose agent has not joined since the reset of its hub has
nothing to lose in its first epoch (R236 step 8, R375; log entry 23). -/
def endLost (b : Block) (e : LinkId) (cause : Nat) (down : Bool) : Block :=
  match e with
  | .die k => setDieMilepost b k.val 21 false
  | .hub h l =>
    if l.val = 7 then
      if endMilepost b h 7 || down then enterSplit (setEndMilepost b h 7 false) cause else b
    else
      let a := if l.val = 6 then agGuest h else h.idx * 6 + l.val
      if endMilepost b h l.val || down then
        declareLost (setEndMilepost (losePath b h a) h l.val false) a 1
      else b
  | .hwy h k =>
    let b := setHwyReady b h k.val false
    match hwyNeighbour b h k with
    | some p => declarePkgLost b p
    | none => b

/-! ## Entry to DOWN and the guest's violation count (R100, R119, R244) -/

/-- Enter DOWN with a reason; nothing where the end is OFF or DOWN already (R98, R100, R119). -/
def enterDown (b : Block) (e : LinkId) (reason : Nat) : Block :=
  let st := fget b (LINK_STATUS e) LINK_STATUS_STATE
  if st = 7 ∨ st = 0 then b
  else
    let b := fset b (LINK_STATUS e) LINK_STATUS_STATE 7
    let b := fset b (LINK_STATUS e) LINK_STATUS_DOWN_REASON reason
    let b := updLink b e fun l =>
      { l with att := {}, stable := false, ctl := [], retryWait := false, retryCount := 0, parkReq := false
               parking := false, survives := false }
    let b := setStatus b (LINK_ERR e) 5
    endLost b e (if reason = 1 then 3 else 2) true

/-- Count a violation of the guest (R243) and act on the limits (R244). -/
def violate (b : Block) (h : Hub) : Block :=
  let b := bumpFld b (SPUR_VIOL_STATUS h) SPUR_VIOL_STATUS_COUNT
  let n := fget b (SPUR_VIOL_STATUS h) SPUR_VIOL_STATUS_COUNT
  let warn := fget b (SPUR_VIOL_LIMIT h) SPUR_VIOL_LIMIT_WARN_AT
  let down := fget b (SPUR_VIOL_LIMIT h) SPUR_VIOL_LIMIT_DOWN_AT
  let b := if warn ≠ 0 ∧ n = warn then setStatus b (SPUR_VIOL_STATUS h) 10 else b
  if down ≠ 0 ∧ n = down then
    let b := fset b (SPUR_VIOL_STATUS h) SPUR_VIOL_STATUS_DOWN_CAUSE 1
    enterDown (setStatus b (SPUR_VIOL_STATUS h) 11) (.hub h 6) 1
  else b

/-- Count a violation where the link end is a spur end. -/
def violateAt (b : Block) (e : LinkId) : Block :=
  match isSpurEnd e with
  | some h => violate b h
  | none => b

/-- Count a message fault of R148 or R150 at a link end, with its status bit (R150, R152, R155). -/
def msgFault (b : Block) (e : LinkId) (cnt bit : Nat) (m : Hdr) : Block := violateAt (countMsgErr b e cnt bit m) e

/-- Row 7 of R150: a response that matches no transaction, counted at the end by which it entered its destination's die. A
response that never crossed a link has no such end and is dropped (log entry 24). -/
def unknownTag (b : Block) (m : Msg) : Block :=
  match m.via with
  | some e => msgFault b e (CNT_MSG_UNKNOWN_TAG e) 4 m.hdr
  | none => b

/-! ## Orphans (R212, R233) -/

/-- Add an entry to the orphan table of a spur end; a full table takes the spur down with DOWN_CAUSE 2 (R212, R244). -/
def addOrphan (b : Block) (h : Hub) (o : Orphan) : Block :=
  if 256 ≤ (getSpur b h).orphans.length then
    let b := fset b (SPUR_VIOL_STATUS h) SPUR_VIOL_STATUS_DOWN_CAUSE 2
    enterDown (setStatus b (SPUR_VIOL_STATUS h) 11) (.hub h 6) 1
  else updSpur b h fun s => { s with orphans := s.orphans ++ [o] }

end Sys2Proof.Machine
end

