-- ==== Sys2Proof/Machine/Links.lean ====
section
/-! DEFINITION. The link layer: training, flits, retry, epochs and parking (chapter 3), tolls and framing (chapter 4), and
the checks at the receiving end (R150, R212, R226 to R228, R237). -/

namespace Sys2Proof.Machine

/-! ## Ends and partners (R75, R76, R104) -/

/-- The end at the other side of a link inside the package. -/
def partner : LinkId → Option LinkId
  | .hub h l =>
    if l.val < 6 then some (.die ⟨h.idx * 6 + l.val % 6, by cases h <;> simp [Hub.idx] <;> omega⟩)
    else if l.val = 7 then some (.hub h.other 7) else none
  | .die k => some (.hub (dieHub k.val) ⟨k.val % 6, by omega⟩)
  | .hwy _ _ => none

/-- Hub whose die holds an end, or that serves its die. -/
def endHub : LinkId → Hub
  | .hub h _ => h
  | .die k => dieHub k.val
  | .hwy h _ => h

/-- Agent number in the offers and INIT flits of an end: a die's own, a hub's home agent (R101, R104). -/
def endAgent : LinkId → Nat
  | .hub h _ => agHome h
  | .die k => k.val
  | .hwy h _ => agHome h

/-- Is an agent number the one that an end expects of its partner (R104, R479)? -/
def expects (e : LinkId) (a : Nat) : Bool :=
  match e with
  | .hub h l =>
    if l.val < 6 then a == h.idx * 6 + l.val else if l.val = 6 then a == agGuest h else a == agHome h.other
  | .die k => a == agHome (dieHub k.val)
  | .hwy _ _ => a == 16 || a == 17

/-- LINK_KIND of an end: 0 feeder, 1 causeway or highway, 2 spur (R88, R479). -/
def endKind : LinkId → Nat
  | .hub _ l => if l.val < 6 then 0 else if l.val = 6 then 2 else 1
  | .die _ => 0
  | .hwy _ _ => 1

/-- Lanes per direction at full width (R75, R478). -/
def endLanes : LinkId → Nat
  | .hub _ l => if l.val < 6 then 256 else if l.val = 6 then 128 else 1024
  | .die _ => 256
  | .hwy _ _ => 8

def linkState (b : Block) (e : LinkId) : Nat := fget b (LINK_STATUS e) LINK_STATUS_STATE
def setLinkState (b : Block) (e : LinkId) (s : Nat) : Block := fset b (LINK_STATUS e) LINK_STATUS_STATE s
def linkWidth (b : Block) (e : LinkId) : Nat := fget b (LINK_STATUS e) LINK_STATUS_WIDTH

/-! ## Attempts (R98 to R100, R109) -/

/-- Enter LOCK for the next attempt of a run (R99, R100): `resume` is the RESUME bit that the end will send. -/
def enterLock (b : Block) (e : LinkId) (resume : Bool) : Block :=
  let b := updLink b e fun l =>
    { l with att := { resume := resume }, stable := false, ctl := [], retryWait := false, retryCount := 0
             parkReq := false, parking := false, replayAt := none, wire := [] }
  let b := match isSpurEnd e with
    | some h =>
      let r := SPUR_BRINGUP h
      fset (fset (fset (updSpur b h fun s => { s with offer := none, allots := [], result := false })
        r SPUR_BRINGUP_OFFER_SEEN 0) r SPUR_BRINGUP_OFFER_FAULT 0) r SPUR_BRINGUP_FAULT_VC 0
    | none => b
  bump (setLinkState b e 1) (CNT_ATTEMPTS e)

/-- Count the failure of an attempt with its reason; the third enters DOWN (R100). Answers whether the run ended. -/
def countFail (b : Block) (e : LinkId) (reason : Nat) : Bool × Block :=
  let b := fset b (LINK_STATUS e) LINK_STATUS_LAST_TRAIN_FAIL reason
  let b := setStatus b (LINK_ERR e) 4
  let n := fget b (LINK_STATUS e) LINK_STATUS_FAILED_ATTEMPTS + 1
  let b := fset b (LINK_STATUS e) LINK_STATUS_FAILED_ATTEMPTS n
  if 3 ≤ n then (true, enterDown b e 2) else (false, b)

/-- An attempt fails: DOWN after three, otherwise the next attempt of the run (R100). -/
def failAttempt (b : Block) (e : LinkId) (reason : Nat) : Block :=
  let resume := (getLink b e).att.resume
  match countFail b e reason with
  | (true, b) => b
  | (false, b) => enterLock b e resume

/-- A retrain trigger of R109 at an ACTIVE or PARKED end: a cause 1 to 4 within the first millisecond counts the attempt as
failed with reason 7 (R100). -/
def retrain (b : Block) (e : LinkId) (cause : Nat) (resume : Bool) : Block :=
  let st := linkState b e
  if st ≠ 5 ∧ st ≠ 6 then b
  else
    let l := getLink b e
    let b := fset b (LINK_STATUS e) LINK_STATUS_LAST_RETRAIN_CAUSE cause
    if (1 ≤ cause ∧ cause ≤ 4) ∧ l.stable = false then
      match countFail b e 7 with
      | (true, b) => b
      | (false, b) => enterLock b e (resume && l.survives)
    else enterLock b e (resume && l.survives)

/-- A sequence fault (R91, R94): the status bit, and a retrain with cause 3. -/
def seqFault (b : Block) (e : LinkId) : Block := retrain (setStatus b (LINK_ERR e) 3) e 3 true

/-- START at a hub or highway end in OFF or DOWN (R99, R118, R119): FAILED_ATTEMPTS clears, LOCK. -/
def linkStart (b : Block) (e : LinkId) : Block :=
  match e with
  | .die _ => b
  | _ =>
    let st := linkState b e
    if st = 0 ∨ st = 7 then
      enterLock (fset (fset b (LINK_STATUS e) LINK_STATUS_FAILED_ATTEMPTS 0) (LINK_STATUS e) LINK_STATUS_DOWN_REASON 0)
        e false
    else b

/-- RETRAIN or RESTART at an ACTIVE or PARKED end (R100, R109, R119). -/
def linkRetrain (b : Block) (e : LinkId) (resume : Bool) : Block :=
  let st := linkState b e
  if st = 5 ∨ st = 6 then retrain (fset b (LINK_STATUS e) LINK_STATUS_FAILED_ATTEMPTS 0) e 5 resume else b

/-- TAKE_DOWN (R119). -/
def linkTakeDown (b : Block) (e : LinkId) : Block := enterDown b e 1

/-- The WIDTH_CAP and SEGMENT of a write: held for the next attempt, or refused with CAP_INVALID (R119). -/
def linkCap (b : Block) (e : LinkId) (width segment : Nat) : Block :=
  if width = 3 ∨ (width = 1 ∧ 2 ≤ segment) then setStatus b (LINK_ERR e) 8
  else fset (fset b (LINK_CTRL e) LINK_CTRL_WIDTH_CAP width) (LINK_CTRL e) LINK_CTRL_SEGMENT segment

/-! ## Tolls (R143 to R148) -/

/-- Allotments that an end grants for the direction it receives: header and data tolls of channel `c` (R143, R480). -/
def grants (e : LinkId) (c : Nat) : Nat × Nat :=
  let t : List (Nat × Nat) :=
    match e with
    | .hub _ l =>
      if l.val < 6 then [(160, 0), (0, 0), (128, 0), (192, 160), (32, 16), (16, 4)]
      else if l.val = 6 then [(64, 0), (0, 0), (64, 0), (96, 64), (32, 16), (8, 2)]
      else [(512, 0), (256, 0), (512, 0), (1024, 768), (64, 32), (32, 8)]
    | .die _ => [(0, 0), (128, 0), (192, 0), (256, 192), (32, 16), (16, 4)]
    | .hwy _ _ => [(256, 0), (256, 0), (384, 0), (640, 512), (64, 32), (32, 8)]
  t.getD c (0, 0)

/-- Allotments that the partner of an end grants: the guest's are those it declared (R144). -/
def partnerGrants (b : Block) (e : LinkId) (c : Nat) : Nat × Nat :=
  match partner e with
  | some p => grants p c
  | none =>
    match isSpurEnd e with
    | some h => (getSpur b h).allots.getD c (0, 0)
    | none => grants e c

/-- Restart the ledger of one channel (R145, R154): nothing held, the full allotment to return. -/
def restartLedger (e : LinkId) (c : Nat) (b : Block) : Block :=
  let (ph, pd) := partnerGrants b e c
  let (gh, gd) := grants e c
  let b := wr b (TOLL_TX e c) (place pd 59 48 + place ph 27 16)
  let b := wr b (TOLL_RX e c) (place gd 59 48 + place gh 27 16)
  let b := updLink b e fun l => { l with
    stored := (l.stored.set 0 (2 * c) 0).set 0 (2 * c + 1) 0
    retSent := (l.retSent.set 0 (2 * c) 0).set 0 (2 * c + 1) 0 }
  wr b (TOLL_FLOW e c) 0

/-- Apply one TOLL_RET field (R147, R148). -/
def applyRet (e : LinkId) (f : Nat) (b : Block) : Block :=
  let count := bitsOf f 11 4
  let ty := bitsOf f 3 3
  let ch := bitsOf f 2 0
  if count = 0 ∧ ty = 0 ∧ ch = 0 then b
  else
    let held := fget b (TOLL_TX e ch) (if ty = 1 then TOLL_TX_DATA_HELD else TOLL_TX_HDR_HELD)
    let allot := fget b (TOLL_TX e ch) (if ty = 1 then TOLL_TX_DATA_ALLOT else TOLL_TX_HDR_ALLOT)
    if count = 0 ∨ 6 ≤ ch ∨ allot - held < count then msgFault b e (CNT_MSG_LEDGER_FAULT e) 1 0
    else
      let b := addFld b (TOLL_TX e ch) (if ty = 1 then TOLL_TX_DATA_HELD else TOLL_TX_HDR_HELD) count
      addFld b (TOLL_FLOW e ch) (if ty = 1 then TOLL_FLOW_DATA_RETURNED else TOLL_FLOW_HDR_RETURNED) count

/-- Store a message's tolls at the receiver (R146). -/
def takeTolls (b : Block) (e : LinkId) (vc : Nat) (data : Bool) : Block :=
  let b := addFld b (TOLL_RX e vc) TOLL_RX_HDR_OCC 1
  let b := updLink b e fun l => { l with stored := l.stored.upd 0 (2 * vc) (· + 1) }
  if data then
    addFld (updLink b e fun l => { l with stored := l.stored.upd 0 (2 * vc + 1) (· + 1) }) (TOLL_RX e vc) TOLL_RX_DATA_OCC 1
  else b

/-- Free a stored message's tolls: they wait to be returned (R146). -/
def freeTolls (b : Block) (e : LinkId) (vc : Nat) (data : Bool) : Block :=
  let b := addFld (subFld b (TOLL_RX e vc) TOLL_RX_HDR_OCC 1) (TOLL_RX e vc) TOLL_RX_HDR_PEND 1
  if data then addFld (subFld b (TOLL_RX e vc) TOLL_RX_DATA_OCC 1) (TOLL_RX e vc) TOLL_RX_DATA_PEND 1 else b

/-- Does a sender hold the tolls of one more message beyond `n` waiting ones with `d` data messages among them (R142)? The last
MGT header toll is kept for a Waymark (R499). -/
def holdsTolls (b : Block) (e : LinkId) (vc n d : Nat) (data : Bool) : Bool :=
  decide ((if vc = vcMgt then n + 1 else n) < fget b (TOLL_TX e vc) TOLL_TX_HDR_HELD) &&
    (!data || decide (d < fget b (TOLL_TX e vc) TOLL_TX_DATA_HELD))

/-- Spend a message's tolls (R142). -/
def spendTolls (b : Block) (e : LinkId) (vc : Nat) (data : Bool) : Block :=
  let b := addFld (subFld b (TOLL_TX e vc) TOLL_TX_HDR_HELD 1) (TOLL_FLOW e vc) TOLL_FLOW_HDR_SPENT 1
  if data then addFld (subFld b (TOLL_TX e vc) TOLL_TX_DATA_HELD 1) (TOLL_FLOW e vc) TOLL_FLOW_DATA_SPENT 1 else b

/-- Pending tolls of a channel and type. -/
def pendOf (b : Block) (e : LinkId) (x : Nat × Nat) : Nat :=
  fget b (TOLL_RX e x.1) (if x.2 = 1 then TOLL_RX_DATA_PEND else TOLL_RX_HDR_PEND)

/-- Channels and types in the order in which pending tolls are returned. -/
def tollKinds : List (Nat × Nat) := [(0, 0), (1, 0), (2, 0), (3, 0), (3, 1), (4, 0), (4, 1), (5, 0), (5, 1)]

/-- Take up to `n` TOLL_RET fields of at most 255 tolls each from the pending returns (R87, R145, R146). -/
def takeReturns (b : Block) (e : LinkId) : Nat → List Nat × Block
  | 0 => ([], b)
  | n + 1 =>
    match tollKinds.find? (fun x => pendOf b e x != 0) with
    | none => ([], b)
    | some x =>
      let c := min 255 (pendOf b e x)
      let b := subFld b (TOLL_RX e x.1) (if x.2 = 1 then TOLL_RX_DATA_PEND else TOLL_RX_HDR_PEND) c
      let b := updLink b e fun l => { l with retSent := l.retSent.upd 0 (2 * x.1 + x.2) (· + c) }
      let (r, b) := takeReturns b e n
      (tollRet c x.2 x.1 :: r, b)

/-! ## Sending (R80, R84, R90, R127, R142) -/

/-- ACK of an end: E − 1 (R91, R92). -/
def ackOf (l : LinkEnd) : Nat := (l.expect + 4095) % 4096

/-- The slots of a message (R131, R132). -/
def msgSlots (m : Msg) : List TxSlot :=
  if hasData (hVc m.hdr) (hOp m.hdr) then
    match lineSlots m.data with
    | [a, c, d, e] => [⟨m.hdr, 1, none⟩, ⟨a, 2, none⟩, ⟨c, 2, none⟩, ⟨d, 2, none⟩, ⟨e, 2, some m.hdr⟩]
    | _ => [⟨m.hdr, 1, none⟩]
  else [⟨m.hdr, 1, some m.hdr⟩]

/-- May a message start on a link now? While a route drain runs, messages of local agents do not start on a highway (R487). -/
def mayStart (b : Block) (e : LinkId) (m : Msg) : Bool :=
  match e with
  | .hwy _ _ => b.pkg.draining.isNone || nodePkg (hSrc m.hdr) != pkgNo b
  | _ => true

/-- The next channel, in rotating order from the end's turn, whose first message has its tolls (R127). -/
def readyVc (b : Block) (e : LinkId) : Option (Nat × Msg) :=
  let l := getLink b e
  ((List.range 6).map fun i => (l.turn + i) % 6).findSome? fun c =>
    match (l.txq.get [] c).find? (mayStart b e) with
    | none => none
    | some m => if holdsTolls b e c 0 0 (hasData (hVc m.hdr) (hOp m.hdr)) then some (c, m) else none

/-- Take whole messages into the waiting slots until `want` slots wait (R127, R131, R142). -/
def fillSlots (b : Block) (e : LinkId) (want : Nat) : Nat → Block
  | 0 => b
  | n + 1 =>
    if want ≤ (getLink b e).txSlots.length then b
    else match readyVc b e with
    | none => b
    | some (c, m) =>
      let b := spendTolls b e c (hasData (hVc m.hdr) (hOp m.hdr))
      let b := updLink b e fun l =>
        { l with txq := l.txq.upd [] c fun q => ((takeFirst (mayStart b e) q).map (·.2)).getD q, turn := (c + 1) % 6, txSlots := l.txSlots ++ msgSlots m }
      fillSlots b e want n

/-- SLOT_USE of slots 1 to 7. -/
def slotUses : Nat → List TxSlot → Nat
  | _, [] => 0
  | i, s :: r => s.use * 4 ^ i + slotUses (i + 1) r

/-- What an end records at the flit boundary before its own Waymark (R500). -/
def recordSent (b : Block) (e : LinkId) : Block :=
  let l := getLink b e
  let tx (x : Nat × Nat) (d h : Fld) : Nat := fget b (TOLL_TX e x.1) (if x.2 = 1 then d else h)
  let fl (x : Nat × Nat) (d h : Fld) : Nat := fget b (TOLL_FLOW e x.1) (if x.2 = 1 then d else h)
  let oldest := match l.replay with
    | [] => l.nextFsn
    | s :: _ => flitFsn s.bits
  let note (w : WaveEnd) : WaveEnd := { w with
    sent := true
    held := tollKinds.map fun x => tx x TOLL_TX_DATA_HELD TOLL_TX_HDR_HELD
    spent := tollKinds.map fun x => fl x TOLL_FLOW_DATA_SPENT TOLL_FLOW_HDR_SPENT
    returned := tollKinds.map fun x => fl x TOLL_FLOW_DATA_RETURNED TOLL_FLOW_HDR_RETURNED
    replayOcc := l.replay.length
    nextFsn := l.nextFsn
    oldest := oldest
    txEpoch := fget b (LINK_EPOCH e) LINK_EPOCH_EPOCH }
  { b with wave := { b.wave with ends := b.wave.ends.upd {} (linkKey e) note } }

/-- Put the Waymark that an end owes into its next message flit (R498, R499). -/
def placeWaymark (b : Block) (e : LinkId) : Block :=
  match (getLink b e).way with
  | none => b
  | some w =>
    if fget b (TOLL_TX e vcMgt) TOLL_TX_HDR_HELD = 0 then b
    else
      let epoch := fget b (LINK_EPOCH e) LINK_EPOCH_EPOCH
      let w := BitVec.ofNat 128 (putBits w.toNat 103 88 epoch)
      let b := spendTolls (recordSent b e) e vcMgt false
      updLink b e fun l => { l with way := none, txSlots := l.txSlots ++ [⟨w, 1, some w⟩] }

/-- Send a new message flit with up to seven waiting slots and up to four toll returns (R83, R87, R90). -/
def sendMessageFlit (b : Block) (e : LinkId) : Block :=
  let (rets, b) := takeReturns b e 4
  let l := getLink b e
  let now := l.txSlots.take 7
  let f := mkFlit l.nextFsn (ackOf l) (linkWidth b e) 0 (slotUses 0 now) rets (now.map TxSlot.bits)
  updLink b e fun l =>
    { l with
      txSlots := l.txSlots.drop 7
      nextFsn := (l.nextFsn + 1) % 4096
      replay := l.replay ++ [{ bits := f, ends := now.filterMap TxSlot.last }]
      wire := l.wire ++ [f] }

/-- Send an idle or control flit (R84): FSN holds the next FSN. -/
def sendPlainFlit (b : Block) (e : LinkId) (kind : Nat) (slots : List Hdr) : Block :=
  let l := getLink b e
  let f := mkFlit l.nextFsn (ackOf l) (linkWidth b e) kind 0 [] slots
  updLink b e fun l => { l with wire := l.wire ++ [f] }

/-- Send the next flit of a replay (R94, R110). -/
def sendReplayFlit (b : Block) (e : LinkId) (i : Nat) (s : SentFlit) : Block :=
  let f := flitResend s.bits (ackOf (getLink b e)) (linkWidth b e)
  bump (updLink b e fun l =>
    { l with wire := l.wire ++ [f], replayAt := if i + 1 < l.replay.length then some (i + 1) else none })
    (CNT_FLITS_REPLAYED e)

/-- INIT control word of an end (R88, R104). -/
def initWord (b : Block) (e : LinkId) : Hdr :=
  mkCtl ctlInit (getLink b e).expect (fget b (LINK_EPOCH e) LINK_EPOCH_EPOCH)
    (nodeId (pkgNo b) (endAgent e)) (endKind e) (getLink b e).att.resume

/-- Is there nothing to send: an empty replay buffer and no message waiting (R112)? -/
def nothingToSend (b : Block) (e : LinkId) : Bool :=
  let l := getLink b e
  l.replay.isEmpty && l.txSlots.isEmpty && l.way.isNone && (List.range 6).all fun c => (l.txq.get [] c).isEmpty

/-! ## New epoch, resume and ACTIVE (R104 to R108, R145) -/

/-- A new epoch begins at an end (R107): replay and half-received messages go, FSN and ledger restart. -/
def newEpoch (b : Block) (e : LinkId) (theirs : Nat) : Block :=
  let l := getLink b e
  let p := (partner e).map fun p => (getLink b p).att.resume
  let byCmd := (fget b (LINK_STATUS e) LINK_STATUS_LAST_RETRAIN_CAUSE == 5 && !l.att.resume) || p == some false
  let b := endLost b e (if byCmd then 3 else 1) false
  let b := bumpBy b (CNT_DISCARD_EPOCH e) l.replay.length
  let b := updLink b e fun l =>
    { l with
      nextFsn := 0, replay := [], replayAt := none, expect := 0, retryWait := false, retryCount := 0, ctl := []
      rxOpen := none, stray := false, txSlots := []
      rxOld := { cells := (List.range 6).filterMap fun c =>
        if (l.rxq.get [] c).length = 0 then none else some (c, (l.rxq.get [] c).length) } }
  let b := forEach (List.range 6) (restartLedger e) b
  let own := fget b (LINK_EPOCH e) LINK_EPOCH_EPOCH
  let b := fset b (LINK_EPOCH e) LINK_EPOCH_EPOCH ((max own theirs + 1) % 65536)
  let b := match isSpurEnd e with
    | some h =>
      updSpur (fset b (SPUR_VIOL_STATUS h) SPUR_VIOL_STATUS_COUNT 0) h fun s => { s with rejoined := false }
    | none => b
  setStatus b (LINK_ERR e) 6

/-- Apply a RETRY_REQ for FSN `n` (R94): replay from it; an FSN that is neither unacknowledged nor next is refused. -/
def startReplay (b : Block) (e : LinkId) (n : Nat) : Option Block :=
  let l := getLink b e
  let u := l.replay.length
  let i := (n + 4096 - (l.nextFsn + 4096 - u) % 4096) % 4096
  if u < i then none
  else some (updLink b e fun l => { l with replayAt := if i < u then some i else none })

/-- The guest joins at the first bring-up after its reset was released, or rejoins: REJOIN, and the milepost (R236). -/
def guestJoin (b : Block) (h : Hub) : Block :=
  let b := updSpur b h fun s => { s with rejoined := true, fresh := false }
  setEndMilepost (emit b (.sideband h 6)) h 6 true

/-- An agent behind an end joins when its link becomes ACTIVE and it is not lost (R108, R236, R375, R453). -/
def joinAt (b : Block) (e : LinkId) : Block :=
  match e with
  | .hub h l =>
    if l.val = 7 then
      if fon b (HUB_SPLIT_STATUS h) HUB_SPLIT_STATUS_SPLIT then b else setEndMilepost b h 7 true
    else if l.val = 6 then
      if !agentLost b h (agGuest h) && (getSpur b h).fresh then guestJoin b h else b
    else if agentLost b h (h.idx * 6 + l.val) then b else setEndMilepost b h l.val true
  | .die k => if agentLost b (dieHub k.val) k.val then b else setDieMilepost b k.val 21 true
  | .hwy h k => setHwyReady b h k.val true

/-- Enter ACTIVE after INIT: identity, then resume or a new epoch (R104 to R107). -/
def enterActive (b : Block) (e : LinkId) (got : Hdr) : Block :=
  let l := getLink b e
  let pkgBad := match e with
    | .hwy h k => match hwyFar b h k with
      | some p => nodePkg (ctlNode got) != p
      | none => false
    | _ => false
  if ctlKind got ≠ endKind e ∨ expects e (nodeAgent (ctlNode got)) = false ∨ pkgBad = true then failAttempt b e 6
  else
    let resume := l.att.resume && ctlResume got && ctlEpoch got == fget b (LINK_EPOCH e) LINK_EPOCH_EPOCH
    let b := if resume then b else newEpoch b e (ctlEpoch got)
    let b := fset b (LINK_STATUS e) LINK_STATUS_RESUMED (b2n resume)
    let b := setLinkState b e 5
    let b := updLink b e fun l =>
      { l with survives := true, stable := false, att := {}, parkReq := false, parking := false, partnerNode := ctlNode got }
    let b := joinAt b e
    if resume then
      match startReplay b e (ctlFsnArg got) with
      | some b => b
      | none => retrain (setStatus b (LINK_ERR e) 3) e 3 false
    else b

/-- Leave INIT once one good INIT has come and eight were sent (R104). -/
def tryActive (b : Block) (e : LinkId) : Block :=
  let l := getLink b e
  match l.att.initGot with
  | some g => if 8 ≤ l.att.initSent then enterActive b e g else b
  | none => b

/-- What a transmitter does in one flit time (R80, R104, R112). -/
def flitTime (b : Block) (e : LinkId) : Block :=
  let l := getLink b e
  match linkState b e with
  | 4 =>
    let b := sendPlainFlit b e 2 [initWord b e]
    tryActive (updLink b e fun l => { l with att := { l.att with initSent := l.att.initSent + 1 } }) e
  | 5 =>
    if l.parking then setLinkState (updLink b e fun l => { l with parking := false, parkReq := false }) e 6
    else match l.ctl with
    | c :: r =>
      let b := updLink b e fun l => { l with ctl := r, parking := ctlOp c == ctlParkAck }
      let b := if ctlOp c = ctlRetryReq then bump b (CNT_RETRY_REQ_SENT e) else b
      sendPlainFlit b e 2 [c]
    | [] =>
      match l.replayAt.bind fun i => (l.replay[i]?).map fun s => (i, s) with
      | some (i, s) => sendReplayFlit b e i s
      | none =>
        if l.replay.length < 512 then
          let b := fillSlots (placeWaymark b e) e 7 7
          if (getLink b e).txSlots.isEmpty then sendPlainFlit b e 1 [] else sendMessageFlit b e
        else sendPlainFlit b e 1 []
  | _ => b

/-! ## Receiving (R85, R91 to R97) -/

/-- Request a retry of E (R93); past RETRY_LIMIT a retrain starts instead. -/
def requestRetry (b : Block) (e : LinkId) (again : Bool) : Block :=
  let l := getLink b e
  if l.retryWait && !again then b
  else
    let limit := max 1 (fget b (LINK_CTRL e) LINK_CTRL_RETRY_LIMIT)
    if limit < l.retryCount + 1 then retrain (setStatus b (LINK_ERR e) 1) e 2 true
    else updLink b e fun l =>
      { l with ctl := l.ctl ++ [mkCtl ctlRetryReq l.expect 0 0 0 false], retryWait := true, retryCount := l.retryCount + 1 }

/-- Count a flit that failed its CRC (R92, R97). -/
def countCrc (b : Block) (e : LinkId) : Block :=
  let s := bitSrc (LINK_ERR e) 0
  let b := bumpErr b (CNT_CRC_ERR e) s.ag s.unit 1 sevCorr
  let l := getLink b e
  let t := fget b (LINK_CRC_LIMIT e) LINK_CRC_LIMIT_THRESHOLD
  let excess := t != 0 && !l.crcOver && decide (t < l.crcCount + 1)
  let b := updLink b e fun l => { l with crcCount := l.crcCount + 1, crcOver := l.crcOver || excess }
  if excess then setStatus b (LINK_ERR e) 0 else b

/-- A header fault of R85 or R88. -/
def hdrFault (b : Block) (e : LinkId) : Block := setStatus (bump b (CNT_HDR_FAULT e)) (LINK_ERR e) 7

/-- Deliveries of R200 that a freed flit reports: completions of a home to the handover that waits for them, and I/O
requests delivered to a guest (R233). -/
def reportDelivery (e : LinkId) (m : Hdr) (b : Block) : Block :=
  let lastLink := match e with
    | .hub _ l => decide (l.val < 7)
    | .die _ => false
    | .hwy _ _ => true
  let b := match isSpurEnd e with
    | some h =>
      if hVc m = vcPio ∧ hOp m ≠ opIoWr then updSpur b h fun s => { s with pio := s.pio ++ [m] } else b
    | none => b
  let a := nodeAgent (hSrc m)
  let here (w : Handover) : Bool := w.node == hDst m && w.tag == hTag m
  let b := if lastLink && nodePkg (hSrc m) != pkgNo b then
      forEach [Hub.n, Hub.s] (fun h b => if (getIo b h).proxyOut.any here then
        updIo b h fun i => { i with proxyOut := i.proxyOut.filter fun w => !here w } else b) b
    else b
  if lastLink && nodePkg (hSrc m) == pkgNo b && (a == 16 || a == 17) then
    let h := hubOf (a % 2)
    if (List.range 32).any fun s =>
        (getSlice b h s).handovers.any fun w => w.node == hDst m && w.tag == hTag m then
      { b with reports := b.reports.upd [] h.idx (· ++ [(hDst m, hTag m)]) }
    else b
  else b

/-- Apply an ACK to the replay buffer (R91): none where it is not valid. -/
def applyAck (b : Block) (e : LinkId) (k : Nat) : Option Block :=
  let l := getLink b e
  let u := l.replay.length
  let n := (k + 4096 + 4096 - (l.nextFsn + 4096 - u - 1) % 4096) % 4096
  if u < n then none
  else
    let b := updLink b e fun l =>
      { l with replay := l.replay.drop n
               replayAt := l.replayAt.bind fun i => if i < n then (if n < u then some 0 else none) else some (i - n) }
    some (forEach ((l.replay.take n).flatMap SentFlit.ends) (reportDelivery e) b)

/-! ## Messages arriving (R150, R212, R226 to R228, R237) -/

/-- Refuse an arriving message at its receiving end with the tolls returned: the answers of R150 rows 5 and 6. -/
def refuseAt (b : Block) (e : LinkId) (m : Msg) : Block :=
  let b := freeTolls b e (hVc m.hdr) (hasData (hVc m.hdr) (hOp m.hdr))
  match e with
  | .die _ => b
  | _ => hubRefuse b (endHub e) m.hdr

/-- Count, and refuse. -/
def faultAt (b : Block) (e : LinkId) (cnt bit : Nat) (m : Msg) : Block := refuseAt (msgFault b e cnt bit m.hdr) e m

/-- Row 4 of R150 and R481: is SRC wrong at this end? -/
def srcWrong (b : Block) (e : LinkId) (m : Hdr) : Bool :=
  match e with
  | .hub _ l => decide (l.val < 7) && !(expects e (nodeAgent (hSrc m)) && nodePkg (hSrc m) == pkgNo b)
  | .die _ => false
  | .hwy h _ => !bitOf (fget b (HWY_FABRIC_STATUS h) HWY_FABRIC_STATUS_MEMBERS) (nodePkg (hSrc m))

/-- Row 6 of R150: is DST unusable? Answers and snoops for a lost agent go on, to be dropped by R220; requests for the far
half or a lost package go on, to be answered by R392. -/
def dstWrong (b : Block) (e : LinkId) (m : Hdr) : Bool :=
  match e with
  | .die k => hDst m != myNode b k.val
  | _ =>
    let h := endHub e
    neverReceives m || agentReserved (nodeAgent (hDst m)) || hubHop b h (hDst m) == .nowhere ||
      ((hVc m == vcReq || hVc m == vcPio) && !reachable b h (hDst m) && !isFar b h (hDst m))

/-- Opcodes that the guest's class may send (R227). -/
def classSends (cClass : Bool) (m : Hdr) : Bool :=
  match hVc m with
  | 0 => cClass || hOp m == opRdOnce || hOp m == opWrUnique || isAtomic (hOp m)
  | 1 => false
  | 2 => hOp m == opComp || (cClass && hOp m == opSnpResp)
  | 3 => hOp m == opCompData || hOp m == opWrData || (cClass && (hOp m == opDataFwd || hOp m == opSnpRespData))
  | 4 => true
  | 5 => hOp m == opWaymark
  | _ => false

/-- Does an orphan entry match a message of the guest (R212, R233)? -/
def orphanHits (m : Hdr) : Orphan → Bool
  | .snoop slice src tag _ =>
    (hVc m == vcRsp && hOp m == opSnpResp && rspSlice m == slice && rspReqNode m == src && hTag m == tag) ||
      (hVc m == vcDat && hOp m == opSnpRespData && datSlice m == slice && hTag m == tag) ||
      (hVc m == vcDat && hOp m == opDataFwd && hDst m == src && hTag m == tag)
  | .wr slice tag => hVc m == vcDat && hOp m == opWrData && datSlice m == slice && hTag m == tag
  | .pio src tag =>
    ((hVc m == vcRsp && hOp m == opComp) || (hVc m == vcDat && hOp m == opCompData)) && hDst m == src && hTag m == tag

/-- The orphan entry after a match: none when it is used up; an answer with FWD 1 waits for its DataFwd (R212). A DataFwd
before its answer leaves the entry as it stands. -/
def orphanAfter (m : Hdr) : Orphan → Option Orphan
  | .snoop slice src tag open? =>
    if hVc m = vcDat ∧ hOp m = opDataFwd then if open? then none else some (.snoop slice src tag open?)
    else if hVc m = vcRsp ∧ rspFwd m = true then some (.snoop slice src tag true) else none
  | _ => none

/-- Discard a message of the guest by an orphan entry, if one matches (R212). -/
def orphanTake (b : Block) (h : Hub) (m : Hdr) : Option Block :=
  match takeFirst (orphanHits m) (getSpur b h).orphans with
  | none => none
  | some (o, rest) =>
    let b := updSpur b h fun s => { s with orphans := match orphanAfter m o with
      | some o' => o' :: rest
      | none => rest }
    some (violate (bumpErr b (CNT_SPUR h 3) (agHome h) 38 2 sevDefer (m.toNat % 2 ^ 64)) h)

/-- The end stores a message for the next stage. -/
def storeRx (b : Block) (e : LinkId) (m : Msg) : Block :=
  updLink b e fun l => { l with rxq := l.rxq.upd [] (hVc m.hdr) (· ++ [{ m with via := some e }]) }

/-- A guest answers an IoRd or MsFlush in time: its timer ends (R233). The writes to the guest that the hub itself discarded
join the guest's answer to an MsFlush, so that R11 and R260 hold (DEDUCED, log entry 26). -/
def pioAnswered (b : Block) (h : Hub) (m : Msg) : Msg × Block :=
  let isAnswer := (hVc m.hdr == vcRsp && hOp m.hdr == opComp) || (hVc m.hdr == vcDat && hOp m.hdr == opCompData)
  match takeFirst (fun q => isAnswer && hSrc q == hDst m.hdr && hTag q == hTag m.hdr) (getSpur b h).pio with
  | none => (m, b)
  | some (q, rest) =>
    let b := updSpur b h fun s => { s with pio := rest }
    let n := lostOf b (hubHolder h) (hDst m.hdr) (hSrc m.hdr)
    if hOp q = opMsFlush ∧ hVc m.hdr = vcRsp ∧ n ≠ 0 then
      let st := if hStatus m.hdr = stsOk then stsLost else hStatus m.hdr
      ({ m with hdr := mkComp (hWorld m.hdr) (hDst m.hdr) (hSrc m.hdr) (hTag m.hdr) stI st (lostField (rspLost m.hdr + n)) },
        clearLost b (hubHolder h) (hDst m.hdr) (hSrc m.hdr))
    else (m, b)

/-- Before REJOIN the spur end itself answers the guest's requests, on the spur, though the guest may still be lost (R237). -/
def earlyAnswer (b : Block) (e : LinkId) (h : Hub) (m : Msg) : Block :=
  let b := freeTolls b e (hVc m.hdr) (hasData (hVc m.hdr) (hOp m.hdr))
  let b := bumpErr b (CNT_SPUR h 6) (agHome h) 38 2 sevInfo (m.hdr.toNat % 2 ^ 64)
  let c := refusal b (hubHolder h) m.hdr
  let b := refusalCount b (hubHolder h) m.hdr
  match c with
  | some c => queueTx b e { hdr := c }
  | none => b

/-- What the spur end does with a message that passed rows 1 to 5 of R150: REJOIN (R237), the decode of R226, the class and
world checks (R228), the orphan table (R212). -/
def spurAccept (b : Block) (e : LinkId) (h : Hub) (m : Msg) : Block :=
  let isReq := hVc m.hdr == vcReq
  let isIo := hVc m.hdr == vcPio
  if !(getSpur b h).rejoined && (isReq || isIo) then
    earlyAnswer b e h m
  else
    let dec := decodePa b h ((sitePart b h).getD 0) (msgPa m.hdr)
    let want := if isReq then reqDst b dec else if isIo && hOp m.hdr != opMsFlush then
      (match dec with
       | .ctl _ => some (myNode b (agIo h))
       | d => pioDst b h d) else some (hDst m.hdr)
    match want with
    | none =>
      refuseAt (raise b (agHome h) 38 0 7 sevInfo (b2n (hWorld m.hdr) * 4) (msgPa m.hdr) (m.hdr.toNat % 2 ^ 64)) e m
    | some d =>
      if d ≠ hDst m.hdr ∨ dstWrong b e m.hdr = true then faultAt b e (CNT_MSG_BAD_DEST e) 5 m
      else if classSends (fon b (SPUR_BRINGUP h) SPUR_BRINGUP_CLASS) m.hdr = false then
        refuseAt (violate (bumpErr b (CNT_SPUR h 0) (agHome h) 38 2 sevDefer (m.hdr.toNat % 2 ^ 64)) h) e m
      else if (isReq || isIo) && hWorld m.hdr && !fon b (SPUR_GUEST_CTRL h) SPUR_GUEST_CTRL_SECURE_OK then
        refuseAt (violate (bumpErr b (CNT_SPUR h 1) (agHome h) 38 2 sevDefer (m.hdr.toNat % 2 ^ 64)) h) e m
      else match orphanTake b h m.hdr with
      | some b => freeTolls b e (hVc m.hdr) (hasData (hVc m.hdr) (hOp m.hdr))
      | none => storeRx (pioAnswered b h m).2 e (pioAnswered b h m).1

/-- A whole message has arrived: rows 4 to 6 of R150, and the spur end's own checks. -/
def acceptMsg (b : Block) (e : LinkId) (m : Msg) : Block :=
  if srcWrong b e m.hdr then
    freeTolls (msgFault b e (CNT_MSG_SRC_FAULT e) 6 m.hdr) e (hVc m.hdr) (hasData (hVc m.hdr) (hOp m.hdr))
  else if hdrMalformed m.hdr then faultAt b e (CNT_MSG_BAD_OPCODE e) 3 m
  else match isSpurEnd e with
  | some h => spurAccept b e h m
  | none => if dstWrong b e m.hdr then faultAt b e (CNT_MSG_BAD_DEST e) 5 m else storeRx b e m

/-- Row 1 of R150: a header slot finds an open data message. -/
def cutOpen (b : Block) (e : LinkId) : Block :=
  match (getLink b e).rxOpen with
  | none => b
  | some o =>
    let b := updLink b e fun l => { l with rxOpen := none }
    if o.noToll then b else freeTolls (msgFault b e (CNT_MSG_FRAME_FAULT e) 2 o.hdr) e (hVc o.hdr) true

/-- A header slot (rows 1 to 3 of R150). -/
def headerSlot (b : Block) (e : LinkId) (m : Hdr) : Block :=
  let b := updLink (cutOpen b e) e fun l => { l with stray := false }
  let vc := hVc m
  let data := hasData vc (hOp m)
  if 6 ≤ vc then msgFault b e (CNT_MSG_BAD_CHANNEL e) 7 m
  else
    let (gh, gd) := grants e vc
    let full (occ pend : Fld) (g : Nat) := decide (g ≤ fget b (TOLL_RX e vc) occ + fget b (TOLL_RX e vc) pend)
    if full TOLL_RX_HDR_OCC TOLL_RX_HDR_PEND gh || (data && full TOLL_RX_DATA_OCC TOLL_RX_DATA_PEND gd) then
      let b := msgFault b e (CNT_MSG_NO_TOLL e) 0 m
      if data then updLink b e fun l => { l with rxOpen := some { hdr := m, slots := [], noToll := true } } else b
    else
      let b := takeTolls b e vc data
      if data then updLink b e fun l => { l with rxOpen := some { hdr := m, slots := [], noToll := false } }
      else acceptMsg b e { hdr := m }

/-- A data slot (row 1 of R150). -/
def dataSlot (b : Block) (e : LinkId) (d : Hdr) : Block :=
  match (getLink b e).rxOpen with
  | none =>
    if (getLink b e).stray then b
    else msgFault (updLink b e fun l => { l with stray := true }) e (CNT_MSG_FRAME_FAULT e) 2 0
  | some o =>
    if o.slots.length < 3 then
      updLink b e fun l => { l with rxOpen := some { o with slots := o.slots ++ [d] } }
    else
      let b := updLink b e fun l => { l with rxOpen := none }
      if o.noToll then b else acceptMsg b e { hdr := o.hdr, data := slotsLine (o.slots ++ [d]) }

/-- Deliver one slot by its SLOT_USE code (R83, R85). -/
def deliverSlot (e : LinkId) (f : FlitBits) (s : Nat) (b : Block) : Block :=
  match flitUse f s with
  | 1 => headerSlot b e (flitSlot f s)
  | 2 => dataSlot b e (flitSlot f s)
  | 3 => hdrFault b e
  | _ => b

/-- Act on a control word at an ACTIVE end (R88, R94, R112). -/
def actOnControl (b : Block) (e : LinkId) (c : Hdr) : Block :=
  match ctlOp c with
  | 1 =>
    let b := bump b (CNT_RETRY_REQ_RCVD e)
    match startReplay b e (ctlFsnArg c) with
    | some b => b
    | none => seqFault b e
  | 2 => b
  | 3 =>
    if nothingToSend b e then
      if (getLink b e).parkReq then updLink b e fun l => { l with parking := true }
      else updLink b e fun l => { l with ctl := l.ctl ++ [mkCtl ctlParkAck 0 0 0 0 false] }
    else b
  | 4 => updLink b e fun l => { l with parking := true }
  | _ => hdrFault b e

/-- The Waymark among the slots of a flit. -/
def waymarkIn (f : FlitBits) : Option Hdr :=
  (List.range 7).findSome? fun i =>
    let m := flitSlot f (i + 1)
    if flitUse f (i + 1) = 1 ∧ hVc m = vcMgt ∧ hOp m = opWaymark then some m else none

/-- Fields of a Waymark's ARG (R501). -/
def wayNumber (m : Hdr) : Nat := hBits m 127 112
def wayFabric (m : Hdr) : Bool := bitOf m.toNat 111
def wayOrigin (m : Hdr) : Nat := hBits m 110 108
def wayEpoch (m : Hdr) : Nat := hBits m 103 88

/-- Is a Waymark one of the wave under way? -/
def ofWave (b : Block) (m : Hdr) : Bool :=
  b.wave.running && b.wave.number == wayNumber m && b.wave.origin == wayOrigin m && b.wave.fabric == wayFabric m

/-- A Waymark arrives: a wave of another package begins here, and the end records its counts before the flit is applied (R500). -/
def waveArrives (b : Block) (e : LinkId) (f : FlitBits) : Block :=
  match waymarkIn f with
  | none => b
  | some m =>
    let known := b.wave.running || !wayFabric m || wayOrigin m == pkgNo b ||
      (b.wave.number == wayNumber m && b.wave.origin == wayOrigin m)
    let b := if known then b else
      { b with wave := { running := true, number := wayNumber m, fabric := wayFabric m, origin := wayOrigin m
                         start := timeAt b (agTh (endHub e)) } }
    if ofWave b m = false then b
    else
      let l := getLink b e
      let rx (x : Nat × Nat) (d h : Fld) : Nat := fget b (TOLL_RX e x.1) (if x.2 = 1 then d else h)
      let note (w : WaveEnd) : WaveEnd := { w with
        got := true
        occ := tollKinds.map fun x => rx x TOLL_RX_DATA_OCC TOLL_RX_HDR_OCC
        pend := tollKinds.map fun x => rx x TOLL_RX_DATA_PEND TOLL_RX_HDR_PEND
        stored := tollKinds.map fun x => l.stored.get 0 (2 * x.1 + x.2) % 65536
        retSent := tollKinds.map fun x => l.retSent.get 0 (2 * x.1 + x.2) % 65536
        rxEpoch := fget b (LINK_EPOCH e) LINK_EPOCH_EPOCH
        argEpoch := wayEpoch m }
      if (b.wave.ends.get {} (linkKey e)).got then b
      else { b with wave := { b.wave with ends := b.wave.ends.upd {} (linkKey e) note } }

/-- A flit at an ACTIVE end (R92). -/
def activeFlit (b : Block) (e : LinkId) (f : FlitBits) : Block :=
  let l := getLink b e
  if flitGood f = false ∨ flitKind f = 3 then requestRetry (countCrc b e) e false
  else if flitWidth f ≠ linkWidth b e then
    retrain (setStatus (bump b (CNT_WIDTH_MISMATCH e)) (LINK_ERR e) 2) e 1 true
  else if flitKind f = 2 ∧ ctlOp (flitSlot f 1) = ctlInit then b
  else match applyAck b e (flitAck f) with
  | none => seqFault b e
  | some b =>
    let rets := (List.range 4).map (flitRet f)
    let b := if flitKind f ≠ 0 ∧ (flitUses f ≠ 0 ∨ rets.any (· != 0)) then hdrFault b e else b
    if flitKind f = 1 then b
    else if flitKind f = 2 then actOnControl b e (flitSlot f 1)
    else if flitFsn f = l.expect then
      let b := updLink b e fun l =>
        { l with expect := (l.expect + 1) % 4096, retryWait := false, retryCount := 0
                 ctl := l.ctl.filter fun c => ctlOp c != ctlRetryReq }
      let b := waveArrives b e f
      let b := forEach (List.range 7) (fun i b => deliverSlot e f (i + 1) b) b
      forEach rets (applyRet e) b
    else
      let b := bump b (CNT_DISCARD_SEQ e)
      if 512 ≤ (l.expect + 4096 + 4096 - 1 - flitFsn f) % 4096 then requestRetry b e false else b

/-- A flit at an end in INIT: one good INIT counts (R104). -/
def initFlit (b : Block) (e : LinkId) (f : FlitBits) : Block :=
  if flitGood f && flitKind f == 2 && ctlOp (flitSlot f 1) == ctlInit then
    tryActive (updLink b e fun l =>
      { l with att := { l.att with initGot := some (l.att.initGot.getD (flitSlot f 1)) } }) e
  else b

/-- The flit that an arrival brings to an end: the oldest on its partner's wire, or the bits given in its place. -/
def arrivalFlit (b : Block) (e : LinkId) (a : Arrival) : Option (FlitBits × Block) :=
  match partner e with
  | none => match a with
    | .intact => none
    | .bits f => some (f, b)
  | some p =>
    match (getLink b p).wire with
    | [] => none
    | w :: r =>
      let b := updLink b p fun l => { l with wire := r }
      match a with
      | .intact => some (w, b)
      | .bits f => some (f, b)

/-- A flit arrives at an end, in whatever state it is. -/
def flitArrives (b : Block) (e : LinkId) (a : Arrival) : Block :=
  match arrivalFlit b e a with
  | none => b
  | some (f, b) =>
    match linkState b e with
    | 4 => initFlit b e f
    | 5 => activeFlit b e f
    | _ => b

/-! ## Training steps -/

/-- The lanes' quarters that a width code and segment use (R77). -/
def quartersOf (width segment : Nat) : Nat :=
  if width = 0 then 15 else if width = 1 then (if segment = 0 then 3 else 12) else 2 ^ segment

/-- The minimum rule (R102): the agreed width and segment, or none for a segment conflict. -/
def minimumRule (w1 s1 w2 s2 : Nat) : Option (Nat × Nat) :=
  if w1 = w2 then if w1 = 0 then some (0, 0) else if s1 = s2 then some (w1, s1) else none
  else
    let (nw, ns, ww, ws) := if w1 < w2 then (w2, s2, w1, s1) else (w1, s1, w2, s2)
    let fits := ww == 0 || (quartersOf nw ns &&& quartersOf ww ws) == quartersOf nw ns
    if fits then some (nw, ns) else none

/-- Is an offer valid (R101)? -/
def offerValid (width segment : Nat) : Bool := decide (width ≤ 2) && !(width == 1 && decide (2 ≤ segment))

/-- The partner's offer, once it has one to collect (R101): the registers of an end inside the package that is in OFFER or
beyond, the guest's OFFER, or another package's. -/
def partnerOffer (b : Block) (e : LinkId) (ext : LinkOffer) : Option (Nat × Nat) :=
  match partner e with
  | some p =>
    if 2 ≤ linkState b p ∧ linkState b p ≤ 3 then
      some (fget b (LINK_CTRL p) LINK_CTRL_WIDTH_CAP, fget b (LINK_CTRL p) LINK_CTRL_SEGMENT) else none
  | none =>
    match isSpurEnd e with
    | some h =>
      let s := getSpur b h
      match s.offer with
      | some o =>
        if s.allots.length = 6 ∧ fget b (SPUR_BRINGUP h) SPUR_BRINGUP_OFFER_FAULT = 0 then
          some (bitsOf o.toNat 5 4, bitsOf o.toNat 7 6) else none
      | none => none
    | none => some (ext.width.val, ext.segment.val)

/-- Accept the partner's offer and agree a width, or fail with reason 3 (R101, R102). An offer that is not valid is
ignored. -/
def acceptOffer (b : Block) (e : LinkId) (ext : LinkOffer) : Block :=
  match partnerOffer b e ext with
  | none => b
  | some (w, s) =>
    if offerValid w s = false then b
    else match minimumRule (fget b (LINK_CTRL e) LINK_CTRL_WIDTH_CAP) (fget b (LINK_CTRL e) LINK_CTRL_SEGMENT) w s with
    | none => failAttempt b e 3
    | some a =>
      setLinkState (fset (fset (updLink b e fun l => { l with att := { l.att with agreed := some a } })
        (LINK_LANE_TEST e) LINK_LANE_TEST_PARTNER_QFAIL 0) (LINK_LANE_TEST e) LINK_LANE_TEST_PARTNER_QTESTED 0) e 3

/-- Has the guest's RESULT come, where the end is a spur's (R236 step 5)? -/
def resultHere (b : Block) (e : LinkId) : Bool :=
  match isSpurEnd e with
  | some h => (getSpur b h).result
  | none => true

/-- The hub's OFFER on a spur (R234). -/
def hubOffer (b : Block) (h : Hub) : Word :=
  let c := rd b (LINK_CTRL (.hub h 6))
  BitVec.ofNat 64 (place 1 3 0 + place (bitsOf c LINK_CTRL_WIDTH_CAP.hi LINK_CTRL_WIDTH_CAP.lo) 5 4 +
    place (bitsOf c LINK_CTRL_SEGMENT.hi LINK_CTRL_SEGMENT.lo) 7 6 + place 2 9 8 + place (agHome h) 14 10 +
    place 1 19 16 + place (pkgNo b) 22 20)

/-- Record the lane test and enter INIT or fail with reason 4 (R103). A spur's end also sends its RESULT (R236). -/
def laneTest (b : Block) (e : LinkId) (failing : List Nat) (partnerFail : Nat) : Block :=
  match (getLink b e).att.agreed.filter fun _ => resultHere b e with
  | none => b
  | some (w, s) =>
    let n := endLanes e
    let tested := quartersOf w s
    let bad := failing.filter fun l => decide (l < n) && bitOf tested (l / (n / 4))
    let qf := (bad.map fun l => 2 ^ (l / (n / 4))).foldl (· ||| ·) 0
    let spur := isSpurEnd e
    let pf := if spur.isSome then fget b (LINK_LANE_TEST e) LINK_LANE_TEST_PARTNER_QFAIL else partnerFail &&& tested
    let pt := if spur.isSome then fget b (LINK_LANE_TEST e) LINK_LANE_TEST_PARTNER_QTESTED else tested
    let b := wr b (LINK_LANE_TEST e) (place pf 47 44 + place pt 43 40 + place qf 39 36 + place tested 35 32 +
      place bad.length 26 16 + place (bad.foldl min 1023) 9 0)
    let b := match spur with
      | some h => emit b (.sideband h (BitVec.ofNat 64 (place 3 3 0 + place tested 7 4 + place qf 11 8)))
      | none => b
    if bad.isEmpty && pf == 0 then
      setLinkState (fset (fset b (LINK_STATUS e) LINK_STATUS_WIDTH w) (LINK_STATUS e) LINK_STATUS_SEGMENT s) e 4
    else failAttempt b e 4

/-! ## Commands of the link layer -/

/-- FLIT_SEND (R80): a flit time passes at an end that transmits flits. -/
def execFlitSend (link : LinkId) (s : State) : Host.Outcome State Fault Refusal :=
  nextBlk s (flitTime s.blk link)

/-- FLIT_RECEIVED (R92). -/
def execFlitReceived (link : LinkId) (arrival : Arrival) (s : State) : Host.Outcome State Fault Refusal :=
  nextBlk s (flitArrives s.blk link arrival)

/-- RETRY_TIMER_EXPIRY (R93): in retry wait. -/
def execRetryTimerExpiry (link : LinkId) (s : State) : Host.Outcome State Fault Refusal :=
  nextBlk s (
    if linkState s.blk link = 5 ∧ (getLink s.blk link).retryWait = true then requestRetry s.blk link true else s.blk)

/-- TOLL_RETURN_TIMEOUT (R87): returns that have waited 64 flit times with no message ready go out alone. -/
def execTollReturnTimeout (link : LinkId) (s : State) : Host.Outcome State Fault Refusal :=
  nextBlk s (
    let l := getLink s.blk link
    if linkState s.blk link = 5 ∧ l.parking = false ∧ l.replay.length < 512 ∧ l.txSlots = [] ∧
        (tollKinds.any fun x => pendOf s.blk link x != 0) = true then sendMessageFlit (placeWaymark s.blk link) link
    else s.blk)

/-- CRC_WINDOW (R97). -/
def execCrcWindow (link : LinkId) (s : State) : Host.Outcome State Fault Refusal :=
  nextBlk s (updLink s.blk link fun l => { l with crcCount := 0, crcOver := false })

/-- An end in LOCK enters OFFER; a spur's end sends its OFFER (R98, R235, R236). -/
def lockDone (b : Block) (e : LinkId) : Block :=
  if linkState b e = 1 then
    let b := setLinkState b e 2
    match isSpurEnd e with
    | some h => emit b (.sideband h (hubOffer b h))
    | none => b
  else b

/-- LOCK_DONE (R98). -/
def execLockDone (link : LinkId) (s : State) : Host.Outcome State Fault Refusal :=
  nextBlk s (lockDone s.blk link)

/-- OFFER_ACCEPTED (R101, R102). -/
def execOfferAccepted (link : LinkId) (ext : LinkOffer) (s : State) : Host.Outcome State Fault Refusal :=
  nextBlk s (if linkState s.blk link = 2 then acceptOffer s.blk link ext else s.blk)

/-- LANE_TEST_DONE (R103). -/
def execLaneTestDone (link : LinkId) (failing : List Nat) (partnerFail : BitVec 4) (s : State) :
    Host.Outcome State Fault Refusal :=
  nextBlk s (
    if linkState s.blk link = 3 then laneTest s.blk link failing partnerFail.toNat else s.blk)

/-- TRAIN_TIMEOUT (R100): the attempt fails with the reason of its state. -/
def execTrainTimeout (link : LinkId) (s : State) : Host.Outcome State Fault Refusal :=
  nextBlk s (
    match linkState s.blk link with
    | 1 => failAttempt s.blk link 1
    | 2 => failAttempt s.blk link 2
    | 3 => failAttempt s.blk link 8
    | 4 => failAttempt s.blk link 5
    | _ => s.blk)

/-- Does the partner send LOCK training sequences, as far as the package can tell (R547)? -/
def partnerLocks (b : Block) (e : LinkId) : Bool :=
  match partner e with
  | some p => linkState b p == 1
  | none => true

/-- PARTNER_LOCK_SEEN (R547, R109). -/
def execPartnerLockSeen (link : LinkId) (s : State) : Host.Outcome State Fault Refusal :=
  nextBlk s (
    if partnerLocks s.blk link = false then s.blk
    else match linkState s.blk link with
    | 2 | 3 | 4 => enterLock s.blk link (getLink s.blk link).att.resume
    | 5 | 6 => retrain s.blk link 4 true
    | _ => s.blk)

/-- ACTIVE_STABLE (R100). -/
def execActiveStable (link : LinkId) (s : State) : Host.Outcome State Fault Refusal :=
  nextBlk s (
    if linkState s.blk link = 5 then
      fset (updLink s.blk link fun l => { l with stable := true }) (LINK_STATUS link) LINK_STATUS_FAILED_ATTEMPTS 0
    else s.blk)

/-- Queue a PARK_REQ where R112 allows it. -/
def askPark (b : Block) (e : LinkId) : Block :=
  if linkState b e = 5 ∧ nothingToSend b e = true ∧ (getLink b e).parking = false then
    updLink b e fun l => { l with ctl := l.ctl ++ [mkCtl ctlParkReq 0 0 0 0 false], parkReq := true }
  else b

/-- PARK_REQUEST (R112). -/
def execParkRequest (link : LinkId) (s : State) : Host.Outcome State Fault Refusal :=
  nextBlk s (askPark s.blk link)

/-- PARK_RETRY (R112): only after an unanswered PARK_REQ. -/
def execParkRetry (link : LinkId) (s : State) : Host.Outcome State Fault Refusal :=
  nextBlk s (if (getLink s.blk link).parkReq then askPark s.blk link else s.blk)

/-- PARK_EXIT (R113): LOCK with cause 7, which counts toward no failed attempts (R109). -/
def execParkExit (link : LinkId) (s : State) : Host.Outcome State Fault Refusal :=
  nextBlk s (if linkState s.blk link = 6 then retrain s.blk link 7 true else s.blk)

/-! ## Forwarding (R133, R146) -/

/-- Free the tolls of the oldest received message of a channel; one of an earlier epoch holds none. -/
def dropRx (b : Block) (e : LinkId) (vc : Nat) (data : Bool) : Block :=
  let old := (getLink b e).rxOld.get 0 vc
  let b := updLink b e fun l => { l with rxq := l.rxq.upd [] vc List.tail, rxOld := l.rxOld.set 0 vc (old - 1) }
  if old = 0 then freeTolls b e vc data else b

/-- Do the tolls that an end holds cover its waiting messages of a channel and one more (R133)? -/
def nextHolds (b : Block) (e : LinkId) (vc : Nat) (m : Msg) : Bool :=
  let q := (getLink b e).txq.get [] vc
  holdsTolls b e vc q.length (q.filter fun x => hasData (hVc x.hdr) (hOp x.hdr)).length
    (hasData (hVc m.hdr) (hOp m.hdr))

/-- What the spur end checks before it passes a request on to the guest: access size (R231), world regions (R316), the
assignment (R17). -/
def spurGate (b : Block) (h : Hub) (m : Hdr) : Bool :=
  hVc m != vcPio || hOp m == opMsFlush ||
    ((pioLen m == 3 && pioPa m % 4 == 0 || pioLen m == 7 && pioPa m % 8 == 0) &&
      !(!hWorld m && inRegion b h ((sitePart b h).getD 0) (pioPa m)))

/-- A normal-world request that a region of the hub refuses at the spur end (R316, R317). -/
def spurRefuse (b : Block) (h : Hub) (m : Hdr) : Block :=
  let denied := !hWorld m && inRegion b h ((sitePart b h).getD 0) (pioPa m)
  let b := if denied then countDenied b h (agHome h) 38 (pioPa m) m
    else raise b (agHome h) 38 0 7 sevInfo (b2n (hWorld m) * 4) (pioPa m) (m.toNat % 2 ^ 64)
  hubRefuse b h m

def onHighway : LinkId → Bool
  | .hwy _ _ => true
  | _ => false

/-- Forward the oldest received message of a channel to its next stage (R133): an agent of the die or hub, or the next
link once its tolls are held. A Waymark stays for the link end itself (R500). -/
def forwardRx (b : Block) (e : LinkId) (vc : Nat) : Block :=
  match (getLink b e).rxq.get [] vc with
  | [] => b
  | m :: _ =>
    let data := hasData (hVc m.hdr) (hOp m.hdr)
    if vc = vcMgt ∧ hOp m.hdr = opWaymark then b
    else match e with
    | .die k => pushBox (dropRx b e vc data) (boxDie k.val) m
    | _ =>
      let h := endHub e
      let isRq := vc = vcReq ∨ vc = vcPio
      if isRq ∧ reachable b h (hDst m.hdr) = false then hubRefuse (dropRx b e vc data) h m.hdr
      else match hubHop b h (hDst m.hdr) with
      | .here => arriveAt (dropRx b e vc data) h m
      | .nowhere => dropRx b e vc data
      | .link e2 =>
        let a := nodeAgent (hDst m.hdr)
        if nodePkg (hDst m.hdr) = pkgNo b ∧ a < 14 ∧ agentLost b h a = true then hubPut (dropRx b e vc data) h m
        else if e2 = .hub h 6 ∧ spurGate b h m.hdr = false then spurRefuse (dropRx b e vc data) h m.hdr
        else if onHighway e2 && forProxy b m.hdr then pushBox (dropRx b e vc data) (boxIo h) m
        else if nextHolds b e2 vc m then queueTx (dropRx b e vc data) e2 m
        else b

/-- MESSAGE_FORWARD (R133). -/
def execMessageForward (link : LinkId) (vc : Fin 6) (s : State) : Host.Outcome State Fault Refusal :=
  nextBlk s (forwardRx s.blk link vc.val)

end Sys2Proof.Machine
end

