-- ==== Sys2Proof/Machine/Clock.lean ====
section
/-! DEFINITION. Clocks: the time counters (R366), the reference monitors, hold-over and the switch of the reference source
(R367 to R371). -/

namespace Sys2Proof.Machine

/-- Agents that stand for the dies: 0 to 11, and 16 and 17 for the hubs. -/
abbrev dieAgents : List Nat := [0, 1, 2, 3, 4, 5, 6, 7, 8, 9, 10, 11, 16, 17]

/-- Hub whose copy a die's copy is aligned to (R15, R366). -/
def timeHub (a : Nat) : Nat := if a < 12 then 16 + a / 6 else a

/-- One count of a copy; a compute die's copy that is ahead of its hub's stands still (R366). -/
def tickCopy (old : Tab Word) (a : Nat) (t : Tab Word) : Tab Word :=
  let v := old.get 0 a
  if old.get 0 (timeHub a) < v then t else t.set 0 a (v + 1)

/-- 10 ns pass: every copy of the time counter counts (R366). -/
def tick (b : Block) : Block := { b with time := forEach dieAgents (tickCopy b.time) b.time }

/-- Align a die's copy to its hub's: never backward (R366). -/
def alignTime (a : Nat) (b : Block) : Block :=
  let v := b.time.get 0 (timeHub a)
  if b.time.get 0 a < v then { b with time := b.time.set 0 a v } else b

/-- Align every copy. -/
def alignAll (b : Block) : Block := forEach dieAgents alignTime b

/-! ## The reference (R367 to R370) -/

/-- Clock status register of a die. -/
def clkReg : ClockUnit → Nat
  | .hub h => HUB_CLK_STATUS h
  | .die k => FCD_CLK_STATUS k.val

/-- Every die of the package. -/
def clockUnits : List ClockUnit := [.hub .n, .hub .s] ++ (List.finRange 12).map ClockUnit.die

/-- Is a die in the south half (R15)? -/
def unitSouth : ClockUnit → Bool
  | .hub h => h == .s
  | .die k => decide (6 ≤ k.val)

/-- Every link end of the package. -/
def linkEnds : List LinkId :=
  [Hub.n, Hub.s].flatMap (fun h => (List.finRange 8).map (LinkId.hub h)) ++ (List.finRange 12).map LinkId.die ++
    [Hub.n, Hub.s].flatMap fun h => (List.finRange 2).map (LinkId.hwy h)

/-- Does a link end lie in the south half? -/
def endSouth (e : LinkId) : Bool := endHub e == .s

/-- Is the package split? -/
def isSplit (b : Block) : Bool :=
  fon b (HUB_SPLIT_STATUS .n) HUB_SPLIT_STATUS_SPLIT || fon b (HUB_SPLIT_STATUS .s) HUB_SPLIT_STATUS_SPLIT

/-- One die takes the named source: SOURCE, and SWITCHED where it changed (R368 step 6). -/
def unitSwitch (source : Nat) (u : ClockUnit) (b : Block) : Block :=
  let r := clkReg u
  if fget b r HUB_CLK_STATUS_SOURCE = source then b
  else setStatus (fset b r HUB_CLK_STATUS_SOURCE source) r 2

/-- Switch to a source (R368): each die that takes it, the time counters, and a retrain with cause 6 of every link. In the
split state the south half takes no part (R369). -/
def switchSource (b : Block) (source : Nat) : Block :=
  let split := isSplit b
  let b := forEach (clockUnits.filter fun u => !(split && unitSouth u)) (unitSwitch source) b
  let b := alignAll b
  forEach (linkEnds.filter fun e => !(split && endSouth e)) (fun e b => retrain b e 6 true) b

/-- A monitor declares the reference lost (R367): the die's PLLs hold over. -/
def refLost (b : Block) (u : ClockUnit) : Block :=
  let b := fset b (clkReg u) HUB_CLK_STATUS_PRIMARY_OK 0
  setStatus (fset b (clkReg u) HUB_CLK_STATUS_SOURCE 2) (clkReg u) 0 0 true

/-- Does the HUB-N Tollhouse switch to the fallback after a reported loss (R368, R369)? -/
def maySwitch (b : Block) : Bool :=
  fon b (HUB_CLK_STATUS .n) HUB_CLK_STATUS_FALLBACK_OK && fon b (HUB_MILEPOST_TH .n) HUB_MILEPOST_TH_FIRMWARE &&
    clockUnits.any fun u => fget b (clkReg u) HUB_CLK_STATUS_SOURCE == 2 && !(isSplit b && unitSouth u)

/-- 10 ms of hold-over have passed (R369). -/
def holdoverOver (b : Block) (u : ClockUnit) : Block :=
  if fget b (clkReg u) HUB_CLK_STATUS_SOURCE = 2 then setStatus b (clkReg u) 3 else b

/-- Does a link end lie on a die? -/
def endOn (u : ClockUnit) : LinkId → Bool
  | .hub h _ => u == .hub h
  | .hwy h _ => u == .hub h
  | .die k => u == .die k

/-- A link whose clocks stop fails at both ends (R371). -/
def failLink (b : Block) (e : LinkId) : Block :=
  let b := enterDown b e 2
  match partner e with
  | some p => enterDown b p 2
  | none => b

/-- A PLL loses lock while its reference is good (R371): the PLL of a link end, or with no link named the ring road's PLL of
a compute die, whose feeder stop then stands still, or one of a hub that serves no link (log entry 32). -/
def pllUnlock (b : Block) (u : ClockUnit) (link : Option LinkId) : Block :=
  let b := setStatus b (clkReg u) 1
  match link, u with
  | some e, _ => if endOn u e then failLink b e else b
  | none, .die k => failLink (updDie b k.val fun d => { d with clockOff := true }) (.die k)
  | none, .hub _ => b

/-! ## Commands -/

/-- REF_LOST (R367). -/
def execRefLost (unit : ClockUnit) (s : State) : Host.Outcome State Fault Refusal := nextBlk s (refLost s.blk unit)

/-- REFERENCE_SWITCH (R368, R369). -/
def execReferenceSwitch (s : State) : Host.Outcome State Fault Refusal :=
  nextBlk s (if maySwitch s.blk then switchSource s.blk 1 else s.blk)

/-- HOLDOVER_EXPIRED (R369). -/
def execHoldoverExpired (unit : ClockUnit) (s : State) : Host.Outcome State Fault Refusal :=
  nextBlk s (holdoverOver s.blk unit)

/-- PRIMARY_OK_TIMER (R367). -/
def execPrimaryOkTimer (unit : ClockUnit) (s : State) : Host.Outcome State Fault Refusal :=
  nextBlk s (fset s.blk (clkReg unit) HUB_CLK_STATUS_PRIMARY_OK 1)

/-- PLL_UNLOCK (R371). -/
def execPllUnlock (unit : ClockUnit) (link : Option LinkId) (s : State) : Host.Outcome State Fault Refusal :=
  nextBlk s (pllUnlock s.blk unit link)

end Sys2Proof.Machine
end

