-- ==== Sys2Proof/Machine/Trap.lean ====
section
/-! DEFINITION. Registers of a hart, its event counters (R295, R325, R328), traps (R268, R512) and when a hart runs at all. The
CSR numbers and the effect of a trap on the CSRs are those of the RISC-V privileged specification (log entry 6). -/

namespace Sys2Proof.Machine

/-! ## Harts -/

/-- Compute die and core of a package-relative hart (R23). -/
def hartDie (i : Nat) : Nat := i / 20
def hartCore (i : Nat) : Nat := i % 20

/-- A die as the index of its link end. -/
def dieOf (k : Nat) : Die := Fin.ofNat 12 k

/-- Integer register; x0 reads 0. -/
def getX (b : Block) (i r : Nat) : Word := if r = 0 then 0 else (getHart b i).x.get 0 r
def setX (b : Block) (i r : Nat) (v : Word) : Block :=
  if r = 0 then b else updHart b i fun h => { h with x := h.x.set 0 r v }

/-- One element of a vector register. -/
def setV (b : Block) (i r : Nat) (e : Nat) (bytes : Nat) (v : Nat) : Block :=
  let put (old : BitVec 256) : BitVec 256 :=
    BitVec.ofNat 256 (putBits old.toNat (8 * bytes * e + 8 * bytes - 1) (8 * bytes * e) v)
  updHart b i fun h => { h with v := h.v.upd 0 r put }

/-- Current world of a hart: FCD_WORLD.WORLD (R313). -/
def hartWorld (b : Block) (i : Nat) : Bool := cget b i FCD_WORLD FCD_WORLD_WORLD == 1

/-- Is a core held in reset (R378)? -/
def coreHeld (b : Block) (i : Nat) : Bool := bitOf (rd b (FCD_RESET_STATUS (hartDie i))) (hartCore i)

/-- Does a hart execute instructions: released, clocked, not halted, and in C0? -/
def hartRuns (b : Block) (i : Nat) : Bool :=
  let d := getDie b (hartDie i)
  !coreHeld b i && !d.inReset && !d.clockOff && !d.evacuating && !d.draining.contains (hartCore i) &&
    (getHart b i).core == .c0

/-! ## CSRs of the RISC-V specification that the model reads or writes -/

abbrev csrVstart : Nat := 0x008
abbrev csrStvec : Nat := 0x105
abbrev csrSenvcfg : Nat := 0x10A
abbrev csrSepc : Nat := 0x141
abbrev csrScause : Nat := 0x142
abbrev csrStval : Nat := 0x143
abbrev csrSatp : Nat := 0x180
abbrev csrVsstatus : Nat := 0x200
abbrev csrVstvec : Nat := 0x205
abbrev csrVsepc : Nat := 0x241
abbrev csrVscause : Nat := 0x242
abbrev csrVstval : Nat := 0x243
abbrev csrVsatp : Nat := 0x280
abbrev csrMstatus : Nat := 0x300
abbrev csrMedeleg : Nat := 0x302
abbrev csrMideleg : Nat := 0x303
abbrev csrMtvec : Nat := 0x305
abbrev csrMenvcfg : Nat := 0x30A
abbrev csrMepc : Nat := 0x341
abbrev csrMcause : Nat := 0x342
abbrev csrMtval : Nat := 0x343
abbrev csrMtval2 : Nat := 0x34B
abbrev csrHstatus : Nat := 0x600
abbrev csrHedeleg : Nat := 0x602
abbrev csrHideleg : Nat := 0x603
abbrev csrHenvcfg : Nat := 0x60A
abbrev csrHtval : Nat := 0x643
abbrev csrHgatp : Nat := 0x680
abbrev csrMinstret : Nat := 0xB02

/-- Exception codes. -/
abbrev excFetchAccess : Nat := 1
abbrev excIllegal : Nat := 2
abbrev excLoadMisaligned : Nat := 4
abbrev excLoadAccess : Nat := 5
abbrev excStoreMisaligned : Nat := 6
abbrev excStoreAccess : Nat := 7
abbrev excFetchPage : Nat := 12
abbrev excLoadPage : Nat := 13
abbrev excStorePage : Nat := 15
abbrev excHardware : Nat := 19
abbrev excVirtual : Nat := 22

/-- Bit of a CSR. -/
def csrBit (b : Block) (i csr bit : Nat) : Bool := bitOf (rdCsr b i csr) bit

/-- Store a field of a CSR by its bits. -/
def csrPut (b : Block) (i csr hi lo v : Nat) : Block := wrCsr b i csr (putBits (rdCsr b i csr) hi lo v)

/-! ## Event counters (R295, R325, R328) -/

/-- Do a hart's counters count? `other` marks an event caused by a WORLD 1 message of another agent (R325). -/
def hpmOn (b : Block) (i : Nat) (other : Bool) : Bool :=
  cget b i FCD_WORLD FCD_WORLD_COUNT_SECURE == 1 || (!hartWorld b i && !other)

/-- Count an event of a hart in every programmable counter that selects it. -/
def hpm (b : Block) (i code : Nat) (other : Bool := false) : Block :=
  if hpmOn b i other = false then b
  else forEach ((List.range 29).filter fun n => bitsOf (rdCsr b i (0x323 + n)) 15 0 == code)
    (fun n b => wrCsr b i (0xB03 + n) (rdCsr b i (0xB03 + n) + 1)) b

/-! ## Instructions in program order -/

/-- The pc of the instruction to be executed: that of the oldest fetched one. -/
def instrPc (b : Block) (i : Nat) : Word :=
  match (getHart b i).fetched with
  | [] => (getHart b i).pc
  | f :: _ => f.va

/-- An instruction begins to execute: it leaves the fetched ones. -/
def popInstr (b : Block) (i : Nat) : Block :=
  let pc := instrPc b i
  updHart b i fun h => { h with pc := pc, fetched := h.fetched.drop 1 }

/-- An instruction has retired (minstret, R325). -/
def countInstr (b : Block) (i : Nat) : Block :=
  if hpmOn b i false then wrCsr b i csrMinstret (rdCsr b i csrMinstret + 1) else b

/-- An instruction executes and retires. -/
def retire (b : Block) (i : Nat) : Block := countInstr (popInstr b i) i

/-! ## Traps -/

/-- The level that handles a trap. -/
inductive TrapTo | m | hs | vs
deriving DecidableEq, Repr

def isVirt (p : Priv) : Bool := p == .vs || p == .vu

/-- Where a trap goes: M-mode unless delegated. -/
def trapTarget (b : Block) (i : Nat) (intr : Bool) (cause : Nat) : TrapTo :=
  let p := (getHart b i).priv
  if p = .m ∨ csrBit b i (if intr then csrMideleg else csrMedeleg) cause = false then .m
  else if isVirt p && csrBit b i (if intr then csrHideleg else csrHedeleg) cause then .vs
  else .hs

/-- Two bits of the mode that a trap leaves, for MPP. -/
def privBits : Priv → Nat
  | .m => 3
  | .hs => 1
  | .vs => 1
  | _ => 0

/-- Target address of a trap: a vectored mode adds four bytes for each interrupt code. -/
def trapPc (tvec : Nat) (intr : Bool) (cause : Nat) : Word :=
  BitVec.ofNat 64 (tvec - tvec % 4 + (if intr && tvec % 4 == 1 then 4 * cause else 0))

/-- A hart takes a trap: the saved registers, the status and the mode, the pc; the reservation goes (R248), a waiting
milestone is abandoned to run again (R265), and committed stores stay (R267). -/
def takeTrap (b : Block) (i : Nat) (intr : Bool) (cause : Nat) (pc tval : Word) (tval2 : Nat := 0) : Block :=
  let p := (getHart b i).priv
  let virt := isVirt p
  let code := cause + (if intr then 2 ^ 63 else 0)
  let go (b : Block) (tvec : Nat) (mode : Priv) : Block :=
    updHart b i fun h => { h with
      pc := trapPc (rdCsr b i tvec) intr cause, priv := mode, resv := none, ms := none, fetched := [], fences := [] }
  match trapTarget b i intr cause with
  | .m =>
    let b := wrCsr b i csrMepc pc.toNat
    let b := wrCsr b i csrMcause code
    let b := wrCsr b i csrMtval tval.toNat
    let b := wrCsr b i csrMtval2 tval2
    let b := csrPut b i csrMstatus 7 7 (b2n (csrBit b i csrMstatus 3))
    let b := csrPut b i csrMstatus 3 3 0
    let b := csrPut b i csrMstatus 12 11 (privBits p)
    let b := csrPut b i csrMstatus 39 39 (b2n virt)
    let b := csrPut b i csrMstatus 38 38 (b2n (virt && tval != 0))
    go b csrMtvec .m
  | .hs =>
    let b := wrCsr b i csrSepc pc.toNat
    let b := wrCsr b i csrScause code
    let b := wrCsr b i csrStval tval.toNat
    let b := wrCsr b i csrHtval tval2
    let b := csrPut b i csrMstatus 5 5 (b2n (csrBit b i csrMstatus 1))
    let b := csrPut b i csrMstatus 1 1 0
    let b := csrPut b i csrMstatus 8 8 (privBits p % 2)
    let b := csrPut b i csrHstatus 7 7 (b2n virt)
    let b := if virt then csrPut b i csrHstatus 8 8 (privBits p % 2) else b
    let b := csrPut b i csrHstatus 6 6 (b2n (virt && tval != 0))
    go b csrStvec .hs
  | .vs =>
    let b := wrCsr b i csrVsepc pc.toNat
    let b := wrCsr b i csrVscause (if intr then code - 1 else code)
    let b := wrCsr b i csrVstval tval.toNat
    let b := csrPut b i csrVsstatus 5 5 (b2n (csrBit b i csrVsstatus 1))
    let b := csrPut b i csrVsstatus 1 1 0
    let b := csrPut b i csrVsstatus 8 8 (privBits p % 2)
    go b csrVstvec .vs

/-- An exception at the instruction about to execute. -/
def exception (b : Block) (i cause : Nat) (tval : Word) (tval2 : Nat := 0) : Block :=
  takeTrap b i false cause (instrPc b i) tval tval2

/-- A hart consumes poisoned data (R512): a KIND 5 record and the hardware-error exception. -/
def consumePoison (b : Block) (i : Nat) (pa : Nat) (pc tval : Word) : Block :=
  takeTrap (raise b (hartDie i) (hartCore i) 12 5 sevDefer (4 * b2n (hartWorld b i)) (pa / 8 * 8) pc.toNat) i false
    excHardware pc tval

/-! ## Lost stores (R260, R262, R263, R312) -/

/-- Add to a hart's pending lost count of a class. -/
def addHartLost (b : Block) (i cls n : Nat) : Block :=
  updHart b i fun h => { h with lost := h.lost.upd 0 cls (· + n) }

/-- A committed store is discarded (R262): counted under class 0, with a record. -/
def storeLost (b : Block) (i pa : Nat) (world : Bool) : Block :=
  raise (addHartLost b i 0 1) (hartDie i) (hartCore i) 12 7 sevDefer (4 * b2n world) pa 0

end Sys2Proof.Machine
end

