-- ==== Sys2Proof/Machine/Access.lean ====
section
/-! DEFINITION. Who may access a register of the package control space, and how a refused access is answered (R28 to R31, R50,
R51, R426, R457, R524, R550). -/

namespace Sys2Proof.Machine

/-- The performer of a control-space access: the I/O agent's hub, the partition under which the request was decoded, its
world, what stands for the four callers of R50 that are not decoded under a partition, and the node that lost writes are
counted against. -/
structure Caller where
  hub : Hub
  part : Option Nat
  world : Bool
  node : Nat
  th : Bool := false
  host : Option Hub := none
  bmc : Bool := false
deriving DecidableEq, Repr

/-- The caller that a source of a register write is. -/
def callerOf (b : Block) : Source → Caller
  | .hart i =>
    let k := hartDie i.val
    { hub := dieHub k, part := diePart b k, world := hartWorld b i.val, node := myNode b k }
  | .guest h sec => { hub := h, part := sitePart b h, world := sec, node := myNode b (agGuest h) }
  | .tollhouse h => { hub := h, part := none, world := true, node := myNode b (agTh h), th := true }
  | .mover h ch =>
    let c := getChanDm b h ch.val
    { hub := h, part := c.part, world := c.secure, node := myNode b (agDm h) }
  | .device h p =>
    { hub := h, part := quarterPart b (portQuarter h p.val), world := (getPort b h p.val).claimed, node := myNode b (agIo h) }
  | .host h => { hub := h, part := none, world := false, node := myNode b (agIo h), host := some h }
  | .bmc => { hub := .n, part := none, world := false, node := myNode b (agTh .n), bmc := true }

/-- Is the caller's request decoded under a partition: it comes from none of the Tollhouse, the foreign host and the baseboard
controller? -/
def Caller.plain (c : Caller) : Bool := !c.th && c.host.isNone && !c.bmc

/-- Is a register for the Tollhouse and one partition: the owner of a quarter or of a site? -/
def forOwner (c : Caller) (owner : Option Nat) : Bool := c.th || (c.plain && c.part.isSome && c.part == owner)

/-- Is a register for the Tollhouse and every partition (third row of R550)? -/
def forAll (b : Block) (c : Caller) : Bool :=
  c.th || (c.plain && match c.part with
    | some p => partExists b p
    | none => false)

/-- Quarter of a hub's resource, western or eastern. -/
def westOwner (b : Block) (h : Hub) (west : Bool) : Option Nat := quarterPart b (quarterOf h west)

/-- May an event ring's registers be accessed (R524)? An uncreated index answers every reader. -/
def ringAccepts (b : Block) (c : Caller) (h : Hub) (r : Nat) (write : Bool) : Bool :=
  let ring := getRing b (h.idx * 64 + r)
  if fon b (evrSet (.ring h (Fin.ofNat 64 r))) HUB_EVR_STATUS_CREATED then
    c.th || (c.plain && ring.part.isSome && c.part == ring.part && (!ring.secure || c.world))
  else !write

/-- May a channel page be accessed (R426)? -/
def pageAccepts (b : Block) (c : Caller) (h : Hub) (n : Nat) : Bool :=
  let d := getChanDm b h n
  d.live && (c.th || (d.fn.isSome && c.host == some h) ||
    (c.plain && d.fn.isNone && c.part.isSome && c.part == d.part && (!d.secure || c.world)))

/-- May a hub register be accessed? -/
def hubAccepts (b : Block) (c : Caller) (h : Hub) (rel : Nat) (write : Bool) : Bool :=
  let west (n half : Nat) : Bool := forOwner c (westOwner b h (decide (n < half)))
  let spur := forOwner c (sitePart b h)
  if 0x3000 ≤ rel ∧ rel < 0x3400 then forOwner c (quarterPart b (winQuarter h ((rel - 0x3000) / 16)))
  else if 0x400 ≤ rel ∧ rel < 0x500 then spur
  else if 0x1_0000 ≤ rel ∧ rel < 0x1_2000 then
    match rel / 0x100 % 0x10 with
    | 6 => spur
    | 7 => forAll b c
    | l => west l 3
  else if 0x2_0000 ≤ rel ∧ rel < 0x2_2000 then west (rel / 0x100 % 0x20) 16
  else if 0x3_0000 ≤ rel ∧ rel < 0x3_2000 then west ((rel - 0x3_0000) / 0x400) 4
  else if 0x4_0000 ≤ rel ∧ rel < 0x4_1000 then west ((rel - 0x4_0000) / 0x100) 8
  else if 0x5_0000 ≤ rel ∧ rel < 0x5_2000 then west (rel / 0x100 % 0x10) 1
  else if 0x7_0000 ≤ rel ∧ rel < 0x7_4000 then ringAccepts b c h ((rel - 0x7_0000) / 0x100) write
  else if 0x14_0000 ≤ rel ∧ rel < 0x15_0000 then c.th || (c.world && forAll b c)
  else if 0x200_0000 ≤ rel ∧ rel < 0x280_0000 then pageAccepts b c h ((rel - 0x200_0000) / 0x1000)
  else forAll b c

/-- Does a Tollhouse serve a partition's pages for a caller in the split state (R395)? -/
def splitServes (b : Block) (c : Caller) (p : Nat) : Bool :=
  !fon b (HUB_SPLIT_STATUS c.hub) HUB_SPLIT_STATUS_SPLIT || (partHubs b p).length != 2 || c.hub == .n

/-- May a mailbox page be accessed (R50, R51, R395)? -/
def mbxAccepts (b : Block) (c : Caller) (m : Nat) : Bool :=
  if c.th then decide (m < 20)
  else if m < 16 then c.plain && c.part == some (m / 4) && partExists b (m / 4) && splitServes b c (m / 4)
  else if m = 16 then c.plain && c.world && c.part.isSome
  else if m = 17 then c.bmc
  else if m = 18 then c.host == some .n
  else if m = 19 then c.host == some .s
  else false

/-- Does a caller reach an offset at all: the block accepts it, and a hub does not answer for a die that is in reset or
lost? -/
def accepts (b : Block) (c : Caller) (off : Nat) (write : Bool) : Bool :=
  if off < 0x2000_0000 then hubAccepts b c (hubOf (off / 0x1000_0000)) (off % 0x1000_0000) write
  else if off < 0x20C0_0000 then
    let k := (off - 0x2000_0000) / 0x10_0000
    forOwner c (diePart b k) && !(getDie b k).inReset && !agentLost b c.hub k
  else if 0x4000_0000 ≤ off ∧ off < 0x4100_0000 then mbxAccepts b c ((off - 0x4000_0000) / 0x1_0000)
  else false

/-! ## Refusals -/

/-- Low word of the header slot of a caller's access, for event records. -/
def callerHdr (b : Block) (c : Caller) (off : Nat) (write : Bool) : Nat :=
  (mkPio (if write then opIoWr else opIoRd) c.world (myNode b (agIo c.hub)) c.node 0 (ctlBase + off) 7 0).toNat % 2 ^ 64

/-- Report an access that is refused or breaks a rule of R509 (KIND 7 of the control-space unit), for the partition under
which it was decoded (R514). No I/O agent performs an access of the baseboard controller (R52), so the mailbox unit of
Tollhouse 22 reports it, and it has no header slot (DEDUCED, log entry 25). -/
def reportAccess (b : Block) (c : Caller) (off d1 : Nat) : Block :=
  if c.bmc then raise b (agTh .n) 1 0 7 sevInfo 0 (ctlBase + off) 0
  else raiseOwned b (if c.plain then c.part else none) (agIo c.hub) 20 0 7 sevInfo (b2n c.world * 4) (ctlBase + off) d1

/-- A refused write: lost against its source and destination, with a record (R28, R259). The Tollhouse's own path, the
endpoint and the baseboard controller send no IoWr, so nothing of theirs is counted. -/
def refuseWrite (b : Block) (c : Caller) (off d1 : Nat) : Block :=
  let b := if c.plain then addLost b 0 c.node (myNode b (agIo c.hub)) else b
  reportAccess b c off d1

/-- A write that a source makes to a register with a row of its own: refused by R28 and R550, or performed. -/
def regAction (b : Block) (src : Source) (off : Nat) (f : Caller → Block) : Block :=
  let c := callerOf b src
  if accepts b c off true then f c else refuseWrite b c off (callerHdr b c off true)

/-- As `regAction`, for a field with the suffix -S: a normal-world write is ignored and reported (R12). -/
def secAction (b : Block) (src : Source) (off : Nat) (f : Caller → Block) : Block :=
  regAction b src off fun c => if c.world then f c else reportAccess b c off (callerHdr b c off true)

end Sys2Proof.Machine
end

