-- ==== Sys2Proof/Machine/L2.lean ====
section
/-! DEFINITION. The L1s and the L2 of a core (R156 to R166, R272 to R283, R315, R549), the requests of a compute die (R21, R22,
R160, R205), and the accesses that a core makes to a line (R204, R248, R262, R393, R512). -/

namespace Sys2Proof.Machine

/-! ## The L1s (R272 to R274) -/

def l1dKeys (line : Nat) : List Nat := (List.range 8).map (line % 128 * 8 + ·)
def l1iKeys (line : Nat) : List Nat := (List.range 4).map (line % 256 * 8 + ·)

/-- Key of the way of an L1 that holds a line. -/
def l1Find (t : Tab Nat) (keys : List Nat) (line : Nat) : Option Nat := keys.find? fun k => t.get 0 k == line + 1

def l1Drop (t : Tab Nat) (keys : List Nat) (line : Nat) : Tab Nat :=
  match l1Find t keys line with
  | some k => t.set 0 k 0
  | none => t

/-- Put a line into an L1: its own way, an empty way, or the way that pseudo-LRU names, a free choice. -/
def l1Fill (t : Tab Nat) (keys : List Nat) (line n : Nat) : Tab Nat :=
  match l1Find t keys line, keys.find? fun k => t.get 0 k == 0 with
  | some _, _ => t
  | none, some k => t.set 0 k (line + 1)
  | none, none => t.set 0 (keys.getD (Config.freeNat n % keys.length) 0) (line + 1)

/-- The L1D takes a line. -/
def l1dFill (b : Block) (i line : Nat) : Block :=
  let b := { b with freeIx := b.freeIx + 1 }
  updHart b i fun h => { h with l1d := l1Fill h.l1d (l1dKeys line) line b.freeIx }

/-- The L1I takes a line. -/
def l1iFill (b : Block) (i line : Nat) : Block :=
  let b := { b with freeIx := b.freeIx + 1 }
  updHart b i fun h => { h with l1i := l1Fill h.l1i (l1iKeys line) line b.freeIx }

/-! ## The L2 (R272) -/

def l2Ways (line : Nat) : List Nat := (List.range 16).map (line % 2048 * 16 + ·)

/-- Key of the way that holds a line in a state other than I. -/
def l2Find (h : HartSt) (line : Nat) : Option Nat :=
  (l2Ways line).find? fun k => (h.l2.get {} k).st != stI && (h.l2.get {} k).line == line

def l2Line (h : HartSt) (line : Nat) : Option L2Line := (l2Find h line).map (h.l2.get {})

/-- State of a line in an L2. -/
def l2State (h : HartSt) (line : Nat) : Nat := ((l2Line h line).map (·.st)).getD stI

/-- Change the way that holds a line. -/
def l2Upd (b : Block) (i line : Nat) (f : L2Line → L2Line) : Block :=
  updHart b i fun h =>
    match l2Find h line with
    | some k => { h with l2 := h.l2.upd {} k f }
    | none => h

/-- States that allow a store (R156). -/
def stWritable (s : Nat) : Bool := s == stE || s == stM

/-- Write-back buffer of a line. -/
def wbFind (h : HartSt) (line : Nat) : Option WbBuf := h.wbs.find? fun w => w.line == line

/-! ## Requests of a die -/

/-- Does a request travel on REQ? -/
def onReq : Purpose → Bool
  | .io | .flush | .binv => false
  | _ => true

/-- Does a request hold a miss entry (R276)? -/
def holdsMiss : Purpose → Bool
  | .wb | .io | .flush | .binv => false
  | _ => true

/-- A hart's request for a line on REQ, other than a WrBack. -/
def lineReq (b : Block) (i line : Nat) : Option Req :=
  (getDie b (hartDie i)).reqs.find? fun r => r.hart == some i && r.line == line && holdsMiss r.purpose

/-- Miss entries of an L2 in use. -/
def missCount (b : Block) (i : Nat) : Nat :=
  ((getDie b (hartDie i)).reqs.filter fun r => r.hart == some i && holdsMiss r.purpose).length

/-- Choose a free tag of a die (R21, R214). -/
def dieTag (b : Block) (k : Nat) : Option Nat × Block :=
  let d := getDie b k
  chooseTag b 0 4095 (d.reqs.map (·.tag) ++ d.quarantine)

/-- Partition of a die's requests; with none, no address but the control space decodes. -/
def dieDecode (b : Block) (k pa : Nat) : Dec :=
  match diePart b k with
  | some p => decodePa b (dieHub k) p pa
  | none => if ctlBase ≤ pa then .ctl (pa - ctlBase) else .unmapped

/-- A die's feeder stop answers an access itself, with the record of R28 and R509. -/
def stopRecord (b : Block) (k pa : Nat) (hdr : Hdr) : Block :=
  raise b k 20 0 7 sevInfo (4 * b2n (hWorld hdr)) pa (hdr.toNat % 2 ^ 64)

/-- Put a request on REQ under a new tag: sent, held for an earlier request of the die for the line (R160), or answered by
the feeder stop itself where its address admits no REQ (R551). None where the die has no free tag. -/
def postReq (b : Block) (i op line hint : Nat) (world : Bool) (purpose : Purpose) (accs : List Access) (rest : Nat)
    (wr : Option (LineData × Word × Poison)) : Option (Nat × Block) :=
  let k := hartDie i
  match dieTag b k with
  | (none, _) => none
  | (some tag, b) =>
    let dst := reqDst b (dieDecode b k (line * 64))
    let hdr := mkReq op world (dst.getD 0) (myNode b k) tag line hint rest
    let busy := (getDie b k).reqs.any fun r => r.line == line && r.sent && onReq r.purpose
    let r : Req :=
      { tag := tag, hart := some i, line := line, part := (diePart b k).getD 0, hdr := hdr
        sent := dst.isNone || !busy, purpose := purpose, accs := accs, wr := wr }
    let b := updDie b k fun d => { d with reqs := d.reqs ++ [r] }
    let b := match dst with
      | none =>
        pushBox (stopRecord b k (line * 64) hdr) (boxDie k)
          { hdr := mkComp world (myNode b k) (myNode b k) tag stI stsError 0 }
      | some _ => if busy then b else dieSend b (dieOf k) { hdr := hdr }
    some (tag, b)

/-- Free the write-back buffer of a WrBack. -/
def freeWb (b : Block) (i tag : Nat) : Block := updHart b i fun h => { h with wbs := h.wbs.filter fun w => w.tag != tag }

/-- The header under which a held request leaves its feeder stop: a CleanUnique whose copy has gone is a RdUnique (R205); a
WrBack carries the held state of its buffer, and none leaves where a snoop has made that state I (R157, R206; DEDUCED, log
entry 27). -/
def heldHdr (b : Block) (r : Req) : Option Hdr :=
  let h := getHart b (r.hart.getD 0)
  if r.purpose = .wb then
    match h.wbs.find? fun w => w.tag == r.tag with
    | some w => if w.st = stI then none else some (BitVec.ofNat 128 (putBits r.hdr.toNat 93 91 w.st))
    | none => none
  else if hOp r.hdr = opCleanUnique ∧ l2State h r.line = stI then
    some (BitVec.ofNat 128 (putBits r.hdr.toNat 7 3 opRdUnique))
  else some r.hdr

/-- Send the next request that the feeder stop holds for a line, of at most `n` held ones. -/
def releaseNext (k line : Nat) : Nat → Block → Block
  | 0, b => b
  | n + 1, b =>
    let d := getDie b k
    if d.reqs.any fun r => r.line == line && r.sent && onReq r.purpose then b
    else match d.reqs.find? fun r => r.line == line && !r.sent with
    | none => b
    | some r =>
      match heldHdr b r with
      | none =>
        let b := updDie b k fun d => { d with reqs := d.reqs.filter fun x => x.tag != r.tag }
        releaseNext k line n (freeWb b (r.hart.getD 0) r.tag)
      | some hdr =>
        let b := if hOp hdr ≠ hOp r.hdr then bump b (CNT_DIE k 3) else b
        let mark := updFirst (fun x : Req => x.tag == r.tag) fun x => { x with sent := true, hdr := hdr }
        dieSend (updDie b k fun d => { d with reqs := mark d.reqs }) (dieOf k) { hdr := hdr }

/-- After a request for a line ends, the feeder stop sends the next one that it holds for the line (R160). -/
def releaseHeld (b : Block) (k line : Nat) : Block := releaseNext k line (getDie b k).reqs.length b

/-- Free the tag of a request that is complete. -/
def dropReq (b : Block) (k : Nat) (r : Req) : Block :=
  let b := updDie b k fun d => { d with reqs := d.reqs.filter fun x => x.tag != r.tag }
  if onReq r.purpose then releaseHeld b k r.line else b

/-! ## Copies that leave an L2 -/

/-- A line leaves the L2 or loses its rights: the L1 copies of a line in I go (R158, R274), and the reservation of a line in I
or S (R248). -/
def afterState (b : Block) (i line st : Nat) : Block :=
  updHart b i fun h =>
    let h := if st = stI then
      { h with l1d := l1Drop h.l1d (l1dKeys line) line, l1i := l1Drop h.l1i (l1iKeys line) line } else h
    if (st = stI ∨ st = stS) ∧ h.resv = some line then { h with resv := none } else h

/-- Give a held line a new state; a line in I leaves its way empty, or reserved for the data of a CleanUnique that is
outstanding for it (R165). -/
def setLineState (b : Block) (i line st : Nat) : Block :=
  let tag := (lineReq b i line).map (·.tag)
  let b := if st = stI then l2Upd b i line fun l => { used := l.used, reserved := tag }
    else l2Upd b i line fun l => { l with st := st }
  afterState b i line st

/-- REUSE of a line's WrBack (R283). -/
def reuseOf (l : L2Line) : Nat := if l.reuse ≠ 0 then 2 else if l.pf then 0 else 1

/-- Move the line of a way to a write-back buffer and send its WrBack (R206, R277, R314): none where no buffer or tag is
free. -/
def writeBack (b : Block) (i key : Nat) (cmo wait : Bool) : Option Block :=
  let h := getHart b i
  let l := h.l2.get {} key
  if 16 ≤ h.wbs.length then none
  else
    let rest := place (reuseOf l) 95 94 + place l.st 93 91
    match postReq b i opWrBack l.line 0 l.sec .wb [] rest none with
    | none => none
    | some (tag, b) =>
      let w : WbBuf :=
        { line := l.line, st := l.st, data := l.data, poison := l.poison, sec := l.sec, tag := tag
          cmo := cmo, retire := wait }
      let b := updHart b i fun h => { h with wbs := h.wbs ++ [w], l2 := h.l2.upd {} key fun x => { used := x.used } }
      some (hpm (afterState b i l.line stI) i (if stDirty l.st then 0x106 else 0x107))

/-- Drop the line of a way without a message (R162). -/
def dropWay (b : Block) (i key : Nat) : Block :=
  let l := (getHart b i).l2.get {} key
  afterState (updHart b i fun h => { h with l2 := h.l2.upd {} key fun x => { used := x.used } }) i l.line stI

/-- Is a clean victim offered by WrBack: FCD_L2_CTRL.CLEAN_OFFER (R277)? -/
def offersClean (b : Block) (i st : Nat) : Bool :=
  match cget b i FCD_L2_CTRL FCD_L2_CTRL_CLEAN_OFFER with
  | 0 => false
  | 2 => true
  | _ => st == stE || st == stF

/-- Give up the line of a way: a WrBack where it is dirty or offered, otherwise dropped. -/
def evictWay (b : Block) (i key : Nat) (wait : Bool) : Option Block :=
  let st := ((getHart b i).l2.get {} key).st
  if stDirty st || offersClean b i st then writeBack b i key false wait else some (dropWay b i key)

/-- Give up a hart's own copy of a line for an access that needs it in I (R161): a dirty copy by WrBack, whose WbAck the
hart waits for, a clean one dropped. -/
def giveUp (b : Block) (i line : Nat) (cmo wait : Bool) : Option Block :=
  match l2Find (getHart b i) line with
  | none => some b
  | some k => if stDirty ((getHart b i).l2.get {} k).st then writeBack b i k cmo wait else some (dropWay b i k)

/-! ## Victims and misses (R276 to R278, R287, R549) -/

/-- Locked ways of an L2. -/
def l2Locked (b : Block) (i : Nat) : Nat := min 8 (cget b i FCD_L2_CTRL FCD_L2_CTRL_LOCK_WAYS)

/-- May allocations use only locked ways (R287)? -/
def fillLocked (b : Block) (i : Nat) : Bool :=
  cget b i FCD_L2_CTRL FCD_L2_CTRL_FILL_LOCKED == 1 && l2Locked b i != 0

/-- Ways of a line's set that may be its victim (R277, R287). -/
def l2Eligible (b : Block) (i line : Nat) : List Nat :=
  let h := getHart b i
  let n := l2Locked b i
  (l2Ways line).filter fun k =>
    let l := h.l2.get {} k
    (decide (16 - n ≤ k % 16) == fillLocked b i) && l.reserved.isNone &&
      (l.st == stI || (lineReq b i l.line).isNone)

/-- Choose the victim way of a line (R549). -/
def l2Victim (b : Block) (i line : Nat) : Option (Nat × Block) :=
  let h := getHart b i
  let ways := l2Eligible b i line
  match ways.find? fun k => (h.l2.get {} k).st == stI with
  | some k => some (k, b)
  | none => match ways.find? fun k => !(h.l2.get {} k).used with
    | some k => some (k, b)
    | none => match ways with
      | [] => none
      | k :: _ =>
        let clear (t : Tab L2Line) (w : Nat) : Tab L2Line := t.upd {} w fun l => { l with used := false }
        some (k, updHart b i fun h => { h with l2 := (l2Ways line).foldl clear h.l2 })

/-- Send a miss (R276, R277): none where it finds no miss entry, no eligible way, no write-back buffer or no tag. -/
def sendMiss (b : Block) (i op line hint : Nat) (world : Bool) (purpose : Purpose) (accs : List Access) (rest : Nat := 0)
    (wr : Option (LineData × Word × Poison) := none) : Option Block :=
  if 64 ≤ missCount b i then none
  else if op = opRdShared ∨ op = opRdUnique then
    match l2Victim b i line with
    | none => none
    | some (key, b) =>
      let out := if ((getHart b i).l2.get {} key).st = stI then some b else evictWay b i key false
      match out with
      | none => none
      | some b =>
        match postReq b i op line hint world purpose accs rest wr with
        | none => none
        | some (tag, b) =>
          some (updHart b i fun h => { h with l2 := h.l2.set {} key { reserved := some tag, used := true } })
  else (postReq b i op line hint world purpose accs rest wr).map (·.2)

/-- Send a miss, or let it wait (R278). -/
def missOrWait (b : Block) (i op line hint : Nat) (world : Bool) (purpose : Purpose) (accs : List Access) : Block :=
  match sendMiss b i op line hint world purpose accs with
  | some b => b
  | none => updHart b i fun h => { h with waiting := h.waiting ++
      [{ op := op, line := line, hint := hint, world := world, purpose := purpose, accs := accs }] }

/-- Opcode by which an L2 obtains a line to write it. -/
def upgradeOp (b : Block) (i line : Nat) : Nat :=
  if l2State (getHart b i) line = stI then opRdUnique else opCleanUnique

/-- Can another access of the core merge with a request (R276)? -/
def merges (r : Req) : Bool :=
  let op := hOp r.hdr
  holdsMiss r.purpose && (op == opRdShared || op == opRdUnique || op == opCleanUnique)

/-- A demand access of a core misses: it merges with the request or the waiting miss of its line, or sends its own. -/
def demand (b : Block) (i op line : Nat) (world : Bool) (purpose : Purpose) (acc : List Access) : Block :=
  match lineReq b i line with
  | some r =>
    if merges r then
      let add := updFirst (fun x : Req => x.tag == r.tag) fun x => { x with accs := x.accs ++ acc }
      updDie b (hartDie i) fun d => { d with reqs := add d.reqs }
    else missOrWait b i op line 0 world purpose acc
  | none =>
    if (getHart b i).waiting.any fun w => w.line == line then
      updHart b i fun h => { h with
        waiting := updFirst (fun w => w.line == line) (fun w => { w with accs := w.accs ++ acc }) h.waiting }
    else missOrWait b i op line 0 world purpose acc

/-! ## World regions at a die (R315) -/

/-- Hub that serves an address for a die. -/
def servingHub (b : Block) (k pa : Nat) : Option Hub :=
  match dieDecode b k pa with
  | .group _ _ spot => some (hubOf spot.hub)
  | .win h _ _ _ => some h
  | _ => none

/-- SEC of a fill: a WORLD 1 request inside an enabled region of the hart's partition. -/
def secOf (b : Block) (i line : Nat) (world : Bool) : Bool :=
  match servingHub b (hartDie i) (line * 64), diePart b (hartDie i) with
  | some h, some p => world && inRegion b h p (line * 64)
  | _, _ => false

/-- A WORLD 0 access meets a line with SEC 1 (R315). -/
def secDenies (b : Block) (i line : Nat) (world : Bool) : Bool :=
  !world && ((l2Line (getHart b i) line).any (·.sec))

/-- Install the data of a request in its reserved way, or in the way of its CleanUnique (R164, R166). -/
def install (b : Block) (i : Nat) (r : Req) (st : Nat) (d : LineData) (p : Poison) : Block :=
  let h := getHart b i
  let key := match (l2Ways r.line).find? fun k => (h.l2.get {} k).reserved == some r.tag with
    | some k => some k
    | none => l2Find h r.line
  match key with
  | none => b
  | some k =>
    let l : L2Line :=
      { st := st, line := r.line, data := d, poison := p, sec := secOf b i r.line (hWorld r.hdr)
        pf := decide (r.purpose = .prefetch), used := true }
    updHart b i fun h => { h with l2 := h.l2.set {} k l }

/-- Give back the way reserved for a request that brings no line. -/
def unreserve (b : Block) (i : Nat) (r : Req) : Block :=
  updHart b i fun h =>
    match (l2Ways r.line).find? fun k => (h.l2.get {} k).reserved == some r.tag with
    | some k => { h with l2 := h.l2.upd {} k fun l => { l with reserved := none } }
    | none => h

/-! ## Errors in the arrays of a core (R275, R279) -/

/-- An L2 reads the set of a line: a single-bit error is corrected, an uncorrectable one in a data word poisons the word in the
line, and one in a tag or state entry freezes the feeder stop. -/
def l2Check (b : Block) (i line : Nat) (world : Bool) (err : ArrayErr) : Block :=
  let k := hartDie i
  match err, (l2Line (getHart b i) line).isSome with
  | .single, true => raiseArray b k (hartCore i) sevCorr world
  | .word w, true =>
    raiseArray (l2Upd b i line fun l => { l with poison := poisonWord l.poison w }) k (hartCore i) sevDefer world
  | .tag _, _ => raiseArray (updDie b k fun d => { d with frozen := true }) k (hartCore i) sevUncorr world
  | _, _ => b

/-- A core reads a line. A parity error in the L1 drops its copy, and the line is fetched from the L2 again (R275); a copy
without one is read there, and otherwise the L2 is. -/
def coreCheck (b : Block) (i line : Nat) (instr parity : Bool) (err : ArrayErr) : Block :=
  let h := getHart b i
  let world := hartWorld b i
  let held := if instr then (l1Find h.l1i (l1iKeys line) line).isSome else (l1Find h.l1d (l1dKeys line) line).isSome
  if held && !parity then b
  else
    let drop (h : HartSt) : HartSt :=
      if instr then { h with l1i := l1Drop h.l1i (l1iKeys line) line } else { h with l1d := l1Drop h.l1d (l1dKeys line) line }
    l2Check (if held then raiseArray (updHart b i drop) (hartDie i) (hartCore i) sevCorr world else b) i line world err

/-! ## The store buffer -/

/-- Does a buffered store write the byte at `pa`? -/
def sbCovers (e : SbEnt) (pa : Nat) : Bool := e.mtype != .io && decide (e.pa ≤ pa ∧ pa < e.pa + e.len)

/-- The byte that a buffered store writes at `pa`. -/
def sbByte (e : SbEnt) (pa : Nat) : Nat := if e.zero then 0 else bitsOf e.value.toNat (8 * (pa - e.pa) + 7) (8 * (pa - e.pa))

/-- The newest store before number `snap` that writes the byte at `pa` (R248). -/
def sbNewest (h : HartSt) (snap pa : Nat) : Option SbEnt :=
  (h.sb.filter fun e => decide (e.id < snap) && sbCovers e pa).getLast?

/-- Are all bytes of an access in the store buffer? -/
def sbHolds (h : HartSt) (snap pa n : Nat) : Bool := (List.range n).all fun j => (sbNewest h snap (pa + j)).isSome

/-- Bytes `pa` to `pa + n − 1` as a load sees them: the store buffer over the line. -/
def loadBytes (h : HartSt) (snap pa : Nat) (line : Nat → Nat) : Nat → Nat
  | 0 => 0
  | n + 1 =>
    let v := match sbNewest h snap (pa + n) with
      | some e => sbByte e (pa + n)
      | none => line (pa + n)
    loadBytes h snap pa line n + v * 2 ^ (8 * n)

/-- Does a load of `n` bytes consume a poisoned byte (R512)? -/
def loadPoisoned (h : HartSt) (snap pa : Nat) (bad : Nat → Bool) (n : Nat) : Bool :=
  (List.range n).any fun j => (sbNewest h snap (pa + j)).isNone && bad (pa + j)

/-! ## Accesses of a core -/

/-- Deliver a loaded value (R248). -/
def deliverLoad (b : Block) (i : Nat) (dest : LoadDest) (n v : Nat) : Block :=
  match dest with
  | .x r signed =>
    setX b i r.val (BitVec.ofNat 64 (if signed && bitOf v (8 * n - 1) then v + (2 ^ 64 - 2 ^ (8 * n)) else v))
  | .v vd e => setV b i vd.val e.val n v

/-- Bytes and poison of a 64-byte block at their addresses. -/
def blockByte (d : LineData) (pa : Nat) : Nat := (lineByte d (pa % 64)).toNat
def blockBad (p : Poison) (pa : Nat) : Bool := p.getLsbD (pa % 64 / 8)

/-- A load has its last bytes, or consumes a poisoned one (R512). -/
def finishLoad (b : Block) (i : Nat) (a : LoadAcc) (line : Nat → Nat) (bad : Nat → Bool) : Block :=
  let h := getHart b i
  if loadPoisoned h a.snap a.pa bad a.len then
    let b := match a.dest with
      | .v _ e => wrCsr b i csrVstart e.val
      | .x _ _ => b
    consumePoison b i a.pa a.pc a.va
  else countInstr (deliverLoad b i a.dest a.size.bytes (a.low + loadBytes h a.snap a.pa line a.len * 2 ^ (8 * a.got))) i

/-- Send an IoRd of a hart (R248, R551): answered by the feeder stop itself where its address has no target; it waits where
the die has no free tag. -/
def ioRead (b : Block) (i pa len : Nat) (world : Bool) (accs : List Access) : Block :=
  let k := hartDie i
  match dieTag b k with
  | (none, b) =>
    let w : WaitMiss := { op := opIoRd, line := pa / 64, hint := 0, world := world, purpose := .io, accs := accs }
    updHart b i fun h => { h with waiting := h.waiting ++ [w] }
  | (some tag, b) =>
    let dst := pioDst b (dieHub k) (dieDecode b k pa)
    let hdr := mkPio opIoRd world (dst.getD 0) (myNode b k) tag pa len 0
    let r : Req :=
      { tag := tag, hart := some i, line := pa / 64, part := (diePart b k).getD 0, hdr := hdr, purpose := .io
        accs := accs }
    let b := updDie b k fun d => { d with reqs := d.reqs ++ [r] }
    match dst with
    | none =>
      let b := stopRecord b k pa hdr
      pushBox b (boxDie k) { hdr := mkComp world (myNode b k) (myNode b k) tag stI stsError 0 }
    | some _ => dieSend b (dieOf k) { hdr := hdr }

/-- A node enters a hart's destination set; an IoWr follows every MsFlush already sent to it (R256). -/
def addDest (l : List DestEnt) (node : Nat) : List DestEnt :=
  (l.filter fun d => d.node != node) ++ [{ node := node }]

/-- Send an IoWr of a hart, posted (R139, R256); one without a target is lost at the feeder stop (R259). -/
def ioWrite (b : Block) (i pa len value : Nat) (world : Bool) : Block :=
  let k := hartDie i
  let (t, b) := freeNat b
  let dst := pioDst b (dieHub k) (dieDecode b k pa)
  let hdr := mkPio opIoWr world (dst.getD 0) (myNode b k) (t % 4096) pa len 0
  match dst with
  | none => updHart (stopRecord b k pa hdr) i fun h => { h with lost := h.lost.upd 0 1 (· + 1) }
  | some node =>
    let b := updHart b i fun h => { h with dest := addDest h.dest node }
    dieSend b (dieOf k) { hdr := hdr, data := lineOf (pa % 64) len value }

/-- Send the request of a load that its caches do not serve: RdShared for a cached page, RdOnce and IoRd otherwise (R248). -/
def askLoad (b : Block) (i : Nat) (a : LoadAcc) (mt : MemType) : Block :=
  let world := hartWorld b i
  match mt with
  | .pma => demand (hpm b i 0x103) i opRdShared (a.pa / 64) world .demand [.load a]
  | .nc => missOrWait b i opRdOnce (a.pa / 64) 0 world .nc [.load a]
  | .io => ioRead b i a.pa a.len world [.load a]

/-- Start the last part of a load: from the L2 where it holds the line. -/
def startLast (b : Block) (i : Nat) (a : LoadAcc) (mt : MemType) : Block :=
  match mt, l2Line (getHart b i) (a.pa / 64) with
  | .pma, some l =>
    if secDenies b i (a.pa / 64) (hartWorld b i) then takeTrap b i false excLoadAccess a.pc a.va
    else finishLoad (l1dFill b i (a.pa / 64)) i a (blockByte l.data) (blockBad l.poison)
  | _, _ => askLoad b i a mt

/-- Perform a load, or its first part, over a source of bytes and of poison. -/
def performLoad (b : Block) (i : Nat) (a : LoadAcc) (line : Nat → Nat) (bad : Nat → Bool) : Block :=
  match a.next with
  | none => finishLoad b i a line bad
  | some (pa, mt) =>
    let h := getHart b i
    if loadPoisoned h a.snap a.pa bad a.len then finishLoad b i a line bad
    else
      let low := loadBytes h a.snap a.pa line a.len
      let rest : LoadAcc := { a with pa := pa, len := a.size.bytes - a.len, got := a.len, low := low, next := none }
      startLast b i rest mt

/-- Write bytes into a line that the L2 holds in E or M (R157, R185, R273, R274). -/
def writeLineBytes (b : Block) (i line off n v : Nat) : Block :=
  let b := l2Upd b i line fun l =>
    let be := beOf off n
    { l with st := stM, data := mergeLine l.data (lineOf off n v) be, poison := mergePoison l.poison be 0
             inL1i := false, used := true }
  updHart b i fun h => { h with l1i := l1Drop h.l1i (l1iKeys line) line }

/-- Perform a buffered store in a line held in E or M, or discard it with a count where the line's SEC forbids it
(R249, R262, R315). -/
def performStore (b : Block) (i : Nat) (e : SbEnt) : Block :=
  let gone := updHart b i fun h => { h with sb := h.sb.filter fun x => x.id != e.id }
  if secDenies b i (e.pa / 64) e.world then storeLost gone i e.pa e.world
  else if e.zero then writeLineBytes gone i (e.pa / 64) 0 64 0
  else writeLineBytes gone i (e.pa / 64) (e.pa % 64) e.len e.value.toNat

/-- Value of an AMO of `n` bytes (R248; RISC-V A and Zacas). -/
def amoValue (op : AmoOp) (n old v : Nat) : Nat :=
  let key (x : Nat) : Int := if bitOf x (8 * n - 1) then (x : Int) - 2 ^ (8 * n) else x
  match op with
  | .add => (old + v) % 2 ^ (8 * n)
  | .swap => v
  | .and => old &&& v
  | .or => old ||| v
  | .xor => old ^^^ v
  | .min => if key v < key old then v else old
  | .max => if key old < key v then v else old
  | .minu => if v < old then v else old
  | .maxu => if old < v then v else old
  | .cas c => if old = c.toNat % 2 ^ (8 * n) then v else old

/-- Value of `n` bytes, sign-extended. -/
def signExt (n v : Nat) : Word := BitVec.ofNat 64 (if bitOf v (8 * n - 1) then v + (2 ^ 64 - 2 ^ (8 * n)) else v)

/-- Perform an AMO in a line held in E or M. -/
def performAmo (b : Block) (i : Nat) (op : AmoOp) (rd : Nat) (va : Word) (pa : Nat) (wide : Bool) (v : Word) (pc : Word) :
    Block :=
  let n := if wide then 8 else 4
  match l2Line (getHart b i) (pa / 64) with
  | none => b
  | some l =>
    if blockBad l.poison pa then consumePoison b i pa pc va
    else
      let old := lineBytes l.data (pa % 64) n
      let b := writeLineBytes b i (pa / 64) (pa % 64) n (amoValue op n old (v.toNat % 2 ^ (8 * n)))
      countInstr (setX b i rd (signExt n old)) i

/-- Perform an LR over a block; a line held in the L2 is reserved. -/
def performLr (b : Block) (i rd : Nat) (va : Word) (pa : Nat) (wide : Bool) (pc : Word) (d : LineData) (p : Poison)
    (held : Bool) : Block :=
  let n := if wide then 8 else 4
  if blockBad p pa then consumePoison b i pa pc va
  else
    let b := countInstr (setX b i rd (signExt n (lineBytes d (pa % 64) n))) i
    if held then updHart b i fun h => { h with resv := some (pa / 64) } else b

/-- Put a fetched instruction behind those not yet executed; a poisoned one traps when it is executed (R512). -/
def performFetch (b : Block) (i : Nat) (va : Word) (bad : Bool) : Block :=
  let h := getHart b i
  let virt := isVirt h.priv
  let asid := bitsOf (rdCsr b i (if virt then csrVsatp else csrSatp)) 59 44
  updHart b i fun h => { h with fetched := h.fetched ++ [{ va := va, poisoned := bad, asid := asid, virt := virt }] }

/-- Record and raise a walk's access fault (R301). -/
def walkFault (b : Block) (i cause : Nat) (va : Word) (pte stage level code : Nat) (pc : Word) : Block :=
  let b := wrCsr b i FCD_WALK_FAULT
    (place code 59 57 + place stage 56 56 + place level 55 53 + place 1 52 52 + place (pte / 8) 51 3)
  takeTrap b i false cause pc va

/-- Perform what waited for a line that the L2 now holds (R204). An access that needs E or M asks for them where the line came
without. -/
def performAcc (b : Block) (i line : Nat) (a : Access) : Block :=
  let h := getHart b i
  match l2Line h line with
  | none => b
  | some l =>
    let world := hartWorld b i
    match a with
    | .load a =>
      if secDenies b i line world then takeTrap b i false excLoadAccess a.pc a.va
      else performLoad (l1dFill b i line) i a (blockByte l.data) (blockBad l.poison)
    | .store id =>
      match h.sb.find? fun e => e.id == id with
      | none => b
      | some e =>
        if stWritable l.st then performStore b i e
        else updHart b i fun h => { h with sb := updFirst (fun e => e.id == id) (fun e => { e with issued := false }) h.sb }
    | .amo op rd va pa wide v pc =>
      if secDenies b i line world then takeTrap b i false excStoreAccess pc va
      else if stWritable l.st then performAmo b i op rd.val va pa wide v pc
      else demand b i opCleanUnique line world .demand [a]
    | .lr rd va pa wide pc =>
      if secDenies b i line world then takeTrap b i false excLoadAccess pc va
      else if stWritable l.st then performLr b i rd.val va pa wide pc l.data l.poison true
      else demand b i opCleanUnique line world .demand [a]
    | .fetch va pa =>
      if secDenies b i line world then takeTrap b i false excFetchAccess va va
      else performFetch (l1iFill (l2Upd b i line fun l => { l with inL1i := true }) i line) i va (blockBad l.poison pa)
    | .walk _ _ _ _ _ _ => b

/-- Perform what waited for a line from data that the L2 does not keep: RdOnce, IoRd, and data in state I (R163, R393). -/
def performOnce (b : Block) (i : Nat) (d : LineData) (p : Poison) (a : Access) : Block :=
  match a with
  | .load a => performLoad b i a (blockByte d) (blockBad p)
  | .store id =>
    match (getHart b i).sb.find? fun e => e.id == id with
    | none => b
    | some e => storeLost (updHart b i fun h => { h with sb := h.sb.filter fun x => x.id != id }) i e.pa e.world
  | .amo _ _ va pa _ _ pc => if blockBad p pa then consumePoison b i pa pc va else takeTrap b i false excStoreAccess pc va
  | .lr rd va pa wide pc => performLr b i rd.val va pa wide pc d p false
  | .fetch va pa => performFetch b i va (blockBad p pa)
  | .walk cause va pte stage level pc =>
    if blockBad p pte then walkFault b i cause va pte stage level 3 pc else b

/-- What waited for a request that ended in an error (R166, R262, R301). -/
def failAcc (b : Block) (i : Nat) (a : Access) : Block :=
  match a with
  | .load a => takeTrap b i false excLoadAccess a.pc a.va
  | .store id =>
    match (getHart b i).sb.find? fun e => e.id == id with
    | none => b
    | some e => storeLost (updHart b i fun h => { h with sb := h.sb.filter fun x => x.id != id }) i e.pa e.world
  | .amo _ _ va _ _ _ pc => takeTrap b i false excStoreAccess pc va
  | .lr _ va _ _ pc => takeTrap b i false excLoadAccess pc va
  | .fetch va _ => takeTrap b i false excFetchAccess va va
  | .walk cause va pte stage level pc => walkFault b i cause va pte stage level 2 pc

/-! ## When an instruction may begin (R249, R254, R291) -/

/-- Does a hart wait for an access that it has made? -/
def demandWaits (accs : List Access) : Bool :=
  accs.any fun a => match a with
    | .load _ | .amo _ _ _ _ _ _ _ | .lr _ _ _ _ _ | .fetch _ _ | .walk _ _ _ _ _ _ => true
    | .store _ => false

def hartWaits (b : Block) (i : Nat) : Bool :=
  ((getDie b (hartDie i)).reqs.any fun r => r.hart == some i && demandWaits r.accs) ||
    ((getHart b i).waiting.any fun w => demandWaits w.accs) || ((getHart b i).wbs.any (·.retire))

abbrev clsW : Nat := 1
abbrev clsR : Nat := 2
abbrev clsO : Nat := 4
abbrev clsI : Nat := 8

/-- Classes iorw of a hart's accesses that are not performed (R249): buffered stores, and stores to pages of type NC whose
Comp has not come. -/
def unperformed (b : Block) (i : Nat) : Nat :=
  let h := getHart b i
  let nc := (getDie b (hartDie i)).reqs.any fun r => r.hart == some i && r.purpose == .nc && hOp r.hdr == opWrUnique
  let ncWait := h.waiting.any fun w => w.purpose == .nc && w.op == opWrUnique
  (if nc || ncWait || h.sb.any (fun e => e.mtype != .io) then clsW else 0) + (if h.sb.any (fun e => e.mtype == .io) then clsO else 0)

/-- Does an earlier fence hold back an access of these classes? -/
def fenceHolds (b : Block) (i cls : Nat) : Bool :=
  let u := unperformed b i
  (getHart b i).fences.any fun f => (f.1 &&& u) != 0 && (f.2 &&& cls) != 0

/-- Can a hart begin an instruction whose accesses have these classes? -/
def canBegin (b : Block) (i cls : Nat) : Bool :=
  hartRuns b i && (getHart b i).ms.isNone && !hartWaits b i && !fenceHolds b i cls

/-- Is the instruction about to execute one that was fetched poisoned (R512)? -/
def fetchPoisoned (b : Block) (i : Nat) : Bool :=
  match (getHart b i).fetched with
  | [] => false
  | f :: _ => f.poisoned

/-- Run an instruction: nothing where it cannot begin yet; the hardware-error exception where its own bytes were poisoned. -/
def runInstr (b : Block) (i cls : Nat) (f : Block → Block) : Block :=
  if canBegin b i cls = false then b
  else if fetchPoisoned b i then consumePoison b i (instrPc b i).toNat (instrPc b i) (instrPc b i)
  else f b

/-- A fence: it holds later accesses while earlier ones are not performed; fences that are met are forgotten. -/
def addFence (b : Block) (i pred succ : Nat) : Block :=
  let u := unperformed b i
  updHart b i fun h => { h with fences :=
    (h.fences.filter fun f => (f.1 &&& u) != 0) ++ (if (pred &&& u) != 0 then [(pred, succ)] else []) }

end Sys2Proof.Machine
end

