-- ==== Sys2Proof/Machine/Walk.lean ====
section
/-! DEFINITION. Address translation (R296 to R304): the TLBs and the walk cache, walks of one stage and of two, their access
faults, and the update of A and D. The formats, the checks and the fault causes are those of the RISC-V privileged
specification with Svade, Svadu, Svnapot and Svpbmt (log entry 6). -/

namespace Sys2Proof.Machine

/-! ## Accesses and what stops them -/

/-- The kinds of access that a translation serves: a cache-block operation needs R or W (Zicbom). -/
inductive XKind | fetch | load | store | block
deriving DecidableEq, Repr

/-- Why a translation ends without an address. -/
inductive XStop
  /-- The page fault of the access. -/
  | page
  /-- The guest-page fault of the access, with the guest physical address. -/
  | guest (gpa : Nat)
  /-- A walk access fault of R301. -/
  | err (pte stage level code : Nat)
  /-- The walk waits for the line of an entry. -/
  | wait
deriving DecidableEq, Repr

def accessCause : XKind → Nat
  | .fetch => excFetchAccess
  | .load => excLoadAccess
  | _ => excStoreAccess

def pageCause : XKind → Nat
  | .fetch => excFetchPage
  | .load => excLoadPage
  | _ => excStorePage

def guestCause (k : XKind) : Nat := pageCause k + 8

/-- Does an access of this kind write? -/
def XKind.writes : XKind → Bool
  | .store => true
  | _ => false

/-! ## Modes (R296) -/

/-- Levels of a translation mode: 0 for Bare. -/
def modeLevels (atp : Nat) : Nat :=
  match bitsOf atp 63 60 with
  | 8 => 3
  | 9 => 4
  | 10 => 5
  | _ => 0

/-- Address of the root table. -/
def rootOf (atp : Nat) : Nat := bitsOf atp 43 0 * 4096

/-- Index of an address at a level; the root of a G-stage has 11 bits. -/
def vpnAt (addr level : Nat) (wide : Bool) : Nat :=
  bitsOf addr (20 + 9 * level + (if wide then 2 else 0)) (12 + 9 * level)

/-- Are the bits above a mode's addresses copies of its top bit? -/
def canonical (va levels : Nat) : Bool :=
  let top := 11 + 9 * levels
  let upper := va >>> top
  upper == 0 || upper == 2 ^ (64 - top) - 1

/-! ## Entries -/

abbrev pteV : Nat := 0
abbrev pteR : Nat := 1
abbrev pteW : Nat := 2
abbrev pteX : Nat := 3
abbrev pteU : Nat := 4
abbrev pteG : Nat := 5
abbrev pteA : Nat := 6
abbrev pteD : Nat := 7

def ptePpn (v : Nat) : Nat := bitsOf v 53 10
def ptePbmt (v : Nat) : Nat := bitsOf v 62 61

/-- Is an entry invalid or reserved? `pbmt` says that Svpbmt is enabled for the stage. -/
def pteBad (v : Nat) (leaf pbmt : Bool) (level : Nat) : Bool :=
  !bitOf v pteV || (!bitOf v pteR && bitOf v pteW) || bitsOf v 60 54 != 0 ||
    (if leaf then
      ptePbmt v == 3 || (!pbmt && ptePbmt v != 0) ||
        (bitOf v 63 && (level != 0 || bitsOf (ptePpn v) 3 0 != 8)) || ptePpn v % 2 ^ (9 * level) != 0
    else bitOf v 63 || ptePbmt v != 0 || bitOf v pteD || bitOf v pteA || bitOf v pteU)

def pteLeaf (v : Nat) : Bool := bitOf v pteR || bitOf v pteX

/-- log2 of the page size of a leaf. -/
def leafSize (v level : Nat) : Nat := if bitOf v 63 then 16 else 12 + 9 * level

/-- Address of a leaf for an address inside its page. -/
def leafAddr (v level addr : Nat) : Nat :=
  let size := leafSize v level
  ptePpn v * 4096 / 2 ^ size * 2 ^ size + addr % 2 ^ size

/-- A leaf that a walk found. -/
structure Leaf where
  /-- Physical address of the entry, its address under the reading stage, its value and its level. -/
  pte : Nat
  gpte : Nat
  val : Nat
  level : Nat
  deriving DecidableEq, Repr

/-! ## Permission -/

/-- Does a leaf of the first stage admit an access? `p` is the level of the access, `sum` and `mxr` the bits of its status. -/
def stageOk (perm : Nat) (kind : XKind) (p : Priv) (sum mxr : Bool) : Bool :=
  let user := p == .u || p == .vu
  let r := bitOf perm pteR || (mxr && bitOf perm pteX)
  let uOk := if user then bitOf perm pteU else if bitOf perm pteU then sum && kind != .fetch else true
  uOk && (match kind with
    | .fetch => bitOf perm pteX
    | .load => r
    | .store => bitOf perm pteW
    | .block => r || bitOf perm pteW)

/-- Does a leaf of the G-stage admit an access? -/
def guestOk (perm : Nat) (kind : XKind) (mxr : Bool) : Bool :=
  let r := bitOf perm pteR || (mxr && bitOf perm pteX)
  bitOf perm pteU && (match kind with
    | .fetch => bitOf perm pteX
    | .load => r
    | .store => bitOf perm pteW
    | .block => r || bitOf perm pteW)

/-! ## Reading an entry (R300, R301) -/

/-- Who walks: the hart, the access, the address that faults report, and whether the walk is speculative (R302). -/
structure Walker where
  hart : Nat
  kind : XKind
  va : Word
  world : Bool
  spec : Bool
  deriving DecidableEq, Repr

/-- Ask for the line of an entry: a speculative walk asks for nothing. -/
def askPte (b : Block) (w : Walker) (op pte stage level : Nat) : Block :=
  if w.spec then b
  else demand b w.hart op (pte / 64) w.world .walk
    [.walk (accessCause w.kind) w.va pte stage level (instrPc b w.hart)]

/-- Read the 8-byte entry at a physical address through the hart's L2. -/
def readPte (b : Block) (w : Walker) (pte stage level : Nat) : Except XStop Nat × Block :=
  if isMain (dieDecode b (hartDie w.hart) pte) = false ∨ 2 ^ 52 ≤ pte then (.error (.err pte stage level 1), b)
  else match l2Line (getHart b w.hart) (pte / 64) with
  | none => (.error .wait, askPte b w opRdShared pte stage level)
  | some l =>
    if !w.world && l.sec then (.error (.err pte stage level 4), b)
    else if blockBad l.poison pte then (.error (.err pte stage level 3), b)
    else (.ok (lineBytes l.data (pte % 64) 8), l2Upd b w.hart (pte / 64) fun l => { l with used := true })

/-! ## The walk cache (R297) -/

/-- Identifiers of a walk: ASID, VMID and V. -/
structure WalkIds where
  asid : Nat
  vmid : Nat
  virt : Bool
  deriving DecidableEq, Repr

/-- Does a walk-cache entry serve an address of a stage? -/
def walkHits (e : WalkEnt) (stage : Nat) (ids : WalkIds) (world : Bool) (addr : Nat) : Bool :=
  e.stage == stage && e.virt == ids.virt && e.world == world && (stage == 1 || e.asid == ids.asid) &&
    (!ids.virt || e.vmid == ids.vmid) && e.vpn == addr / 2 ^ e.size

/-- The smallest entry that serves an address. -/
def walkBest (l : List WalkEnt) : Option WalkEnt :=
  l.foldl (fun best e => match best with
    | none => some e
    | some x => some (if e.size < x.size then e else x)) none

/-- Keep a list at a capacity: the entry that leaves is a free choice. -/
def trimFree {α : Type} (cap n : Nat) (l : List α) : List α :=
  if l.length ≤ cap then l else l.eraseIdx (Config.freeNat n % (l.length - 1))

/-- Cache a non-leaf entry. -/
def addWalk (b : Block) (i : Nat) (e : WalkEnt) : Block :=
  if (getHart b i).walk.contains e then b
  else
    let b := { b with freeIx := b.freeIx + 1 }
    updHart b i fun h => { h with walk := trimFree 32 b.freeIx (h.walk ++ [e]) }

/-! ## One stage -/

/-- How a stage reads its entries: the physical address of the entry and its value. -/
abbrev PteReader := Block → Nat → Nat → Except XStop (Nat × Nat) × Block

/-- What a stage is: its number, the width of its root, and whether Svpbmt is enabled for it. -/
structure StageCfg where
  stage : Nat
  wide : Bool
  levels : Nat
  pbmt : Bool
  ids : WalkIds
  deriving DecidableEq, Repr

/-- Walk down from `table`, with `n` levels to go. A speculative walk uses only entries whose A bit is 1. -/
def walkDown (w : Walker) (c : StageCfg) (read : PteReader) (addr : Nat) : Nat → Nat → Block → Except XStop Leaf × Block
  | 0, _, b => (.error .page, b)
  | level + 1, table, b =>
    let pos := table + 8 * vpnAt addr level (c.wide && level + 1 == c.levels)
    match read b pos level with
    | (.error e, b) => (.error e, b)
    | (.ok (pa, v), b) =>
      if pteBad v (pteLeaf v) c.pbmt level then (.error .page, b)
      else if pteLeaf v then (.ok { pte := pa, gpte := pos, val := v, level := level }, b)
      else
        let next := ptePpn v * 4096
        let e : WalkEnt :=
          { vpn := addr / 2 ^ (12 + 9 * level), size := 12 + 9 * level, stage := c.stage, asid := c.ids.asid
            vmid := c.ids.vmid, virt := c.ids.virt, world := w.world, table := next }
        walkDown w c read addr level next (addWalk b w.hart e)

/-- Walk a stage: from the walk cache where an entry serves, otherwise from the root. -/
def walkStage (b : Block) (w : Walker) (c : StageCfg) (read : PteReader) (root addr : Nat) : Except XStop Leaf × Block :=
  match walkBest ((getHart b w.hart).walk.filter fun e => walkHits e c.stage c.ids w.world addr) with
  | some e => walkDown w c read addr ((e.size - 12) / 9) e.table (hpm b w.hart 0x206)
  | none => walkDown w c read addr c.levels root b

/-! ## A and D (R303, R304) -/

/-- Must a leaf's A or D be set for an access? -/
def needsUpdate (v : Nat) (kind : XKind) : Bool := !bitOf v pteA || (kind.writes && !bitOf v pteD)

/-- The leaf with A, and D for a store, set. -/
def updated (v : Nat) (kind : XKind) : Nat := putBits (if kind.writes then putBits v 7 7 1 else v) 6 6 1

/-- Set A and D in a leaf: the L2 takes the line in E or M and writes the entry that it reads there, in one step, so that the
comparison of R303 never fails. -/
def setAD (b : Block) (w : Walker) (stage : Nat) (l : Leaf) (kind : XKind) : Option XStop × Block :=
  if needsUpdate l.val kind = false then (none, b)
  else if stWritable (l2State (getHart b w.hart) (l.pte / 64)) then
    (none, writeLineBytes b w.hart (l.pte / 64) (l.pte % 64) 8 (updated l.val kind))
  else (some .wait, askPte b w (upgradeOp b w.hart (l.pte / 64)) l.pte stage l.level)

/-! ## The G-stage -/

/-- ADUE and PBMTE of the first stage under V, and of the G-stage (menvcfg and henvcfg, bits 61 and 62). -/
def envBit (b : Block) (i bit : Nat) (virt : Bool) : Bool :=
  csrBit b i csrMenvcfg bit && (!virt || csrBit b i csrHenvcfg bit)

def vmidOf (b : Block) (i : Nat) : Nat := bitsOf (rdCsr b i csrHgatp) 57 44

/-- Translate a guest physical address for an access of kind `kind`: the leaf, and none for Bare. `page` faults of this stage
become guest-page faults of the access. -/
def gStage (b : Block) (w : Walker) (gpa : Nat) (kind : XKind) : Except XStop (Option Leaf) × Block :=
  let i := w.hart
  let atp := rdCsr b i csrHgatp
  let levels := modeLevels atp
  if levels = 0 then (.ok none, b)
  else if 2 ^ (14 + 9 * levels) ≤ gpa then (.error (.guest gpa), b)
  else
    let c : StageCfg :=
      { stage := 1, wide := true, levels := levels, pbmt := envBit b i 62 false
        ids := { asid := 0, vmid := vmidOf b i, virt := true } }
    let read : PteReader := fun b pte level =>
      match readPte b w pte 1 level with
      | (.error e, b) => (.error e, b)
      | (.ok v, b) => (.ok (pte, v), b)
    let root := rootOf atp / 2 ^ 14 * 2 ^ 14
    match walkStage b w c read root gpa with
    | (.error .page, b) => (.error (.guest gpa), b)
    | (.error e, b) => (.error e, b)
    | (.ok l, b) =>
      if guestOk l.val kind (csrBit b i csrMstatus 19) = false then (.error (.guest gpa), b)
      else if needsUpdate l.val kind && (!envBit b i 61 false || w.spec) then (.error (.guest gpa), b)
      else (.ok (some l), b)

/-- Physical address of a guest physical address under its leaf. -/
def gAddr (l : Option Leaf) (gpa : Nat) : Nat :=
  match l with
  | none => gpa
  | some l => leafAddr l.val l.level gpa

/-- A guest physical address of a page table, for a read, with A of its leaf set (R303). -/
def gTable (b : Block) (w : Walker) (gpa : Nat) (kind : XKind) : Except XStop Nat × Block :=
  match gStage b w gpa kind with
  | (.error e, b) => (.error e, b)
  | (.ok l, b) =>
    match l with
    | none => (.ok gpa, b)
    | some l =>
      match setAD b w 1 l kind with
      | (some e, b) => (.error e, b)
      | (none, b) => (.ok (gAddr (some l) gpa), b)

/-! ## The effective mode of an access -/

/-- Privilege level of a hart's access: MPRV applies to loads and stores of M-mode. -/
def effPriv (b : Block) (i : Nat) (kind : XKind) : Priv :=
  let p := (getHart b i).priv
  if p = .m ∧ kind ≠ .fetch ∧ csrBit b i csrMstatus 17 = true then
    let virt := csrBit b i csrMstatus 39
    match bitsOf (rdCsr b i csrMstatus) 12 11 with
    | 3 => .m
    | 1 => if virt then .vs else .hs
    | _ => if virt then .vu else .u
  else p

/-- The result of a translation. -/
inductive XRes
  | ok (pa : Nat) (mt : MemType)
  | fault (cause : Nat) (gpa : Nat)
  | err (pte stage level code : Nat)
  | wait
deriving DecidableEq, Repr

def stopRes (kind : XKind) : XStop → XRes
  | .page => .fault (pageCause kind) 0
  | .guest gpa => .fault (guestCause kind) gpa
  | .err pte stage level code => .err pte stage level code
  | .wait => .wait

/-! ## TLBs (R297, R298) -/

/-- Does a TLB entry serve an address? -/
def tlbHits (e : TlbEnt) (ids : WalkIds) (world : Bool) (va : Nat) : Bool :=
  e.world == world && e.virt == ids.virt && (e.global || e.asid == ids.asid) && (!ids.virt || e.vmid == ids.vmid) &&
    e.vpn == va / 2 ^ e.size

/-- May an entry serve a store: D is 1 in each stage (R303). -/
def tlbDirty (e : TlbEnt) (kind : XKind) : Bool := !kind.writes || (bitOf e.perm.toNat pteD && bitOf e.gperm.toNat pteD)

def tlbLook (l : List TlbEnt) (ids : WalkIds) (world : Bool) (va : Nat) (kind : XKind) : Option TlbEnt :=
  l.find? fun e => tlbHits e ids world va && tlbDirty e kind

/-- Same translation, whatever its D bits. -/
def tlbSame (e x : TlbEnt) : Bool :=
  e.vpn == x.vpn && e.size == x.size && e.asid == x.asid && e.vmid == x.vmid && e.virt == x.virt && e.world == x.world

/-- Add an entry to an L1 TLB of 64 entries; it replaces its older form. -/
def addL1 (l : List TlbEnt) (n : Nat) (e : TlbEnt) : List TlbEnt :=
  trimFree 64 n ((l.filter fun x => !tlbSame e x) ++ [e])

/-- Set of an entry of the L2 TLB. -/
def tlbSet (e : TlbEnt) : Nat := e.vpn % 512

/-- Add an entry to the L2 TLB: eight ways in its set. -/
def addL2 (l : List TlbEnt) (n : Nat) (e : TlbEnt) : List TlbEnt :=
  let l := l.filter fun x => !tlbSame e x
  (l.filter fun x => tlbSet x != tlbSet e) ++ trimFree 8 n ((l.filter fun x => tlbSet x == tlbSet e) ++ [e])

/-- Fill the L1 TLB of an access, and the L2 TLB. -/
def fillTlb (b : Block) (i : Nat) (kind : XKind) (both : Bool) (e : TlbEnt) : Block :=
  let b := { b with freeIx := b.freeIx + 1 }
  updHart b i fun h =>
    let h := if kind = .fetch then { h with itlb := addL1 h.itlb b.freeIx e } else { h with dtlb := addL1 h.dtlb b.freeIx e }
    if both then { h with tlb2 := addL2 h.tlb2 b.freeIx e } else h

/-- Memory type of a leaf: its PBMT, or that of the G-stage where it is 0. -/
def leafType (vs g : Nat) : MemType :=
  match if vs = 0 then g else vs with
  | 1 => .nc
  | 2 => .io
  | _ => .pma

/-! ## Translation -/

/-- Walk for an access under a mode with translation, and fill the TLBs. -/
def fullWalk (b : Block) (w : Walker) (p : Priv) (atp : Nat) (ids : WalkIds) : XRes × Block :=
  let i := w.hart
  let va := w.va.toNat
  let virt := ids.virt
  let levels := modeLevels atp
  let status := if virt then rdCsr b i csrVsstatus else rdCsr b i csrMstatus
  let sum := bitOf status 18
  let mxr := bitOf status 19 || csrBit b i csrMstatus 19
  let c : StageCfg := { stage := 0, wide := false, levels := levels, pbmt := envBit b i 62 virt, ids := ids }
  let read : PteReader := fun b gpa level =>
    match if virt then gTable b w gpa .load else (.ok gpa, b) with
    | (.error e, b) => (.error e, b)
    | (.ok pte, b) =>
      match readPte b w pte 0 level with
      | (.error e, b) => (.error e, b)
      | (.ok v, b) => (.ok (pte, v), b)
  let first : Except XStop (Option Leaf) × Block :=
    if levels = 0 then (.ok none, b)
    else if canonical va levels = false then (.error .page, b)
    else match walkStage b w c read (rootOf atp) va with
      | (.error e, b) => (.error e, b)
      | (.ok l, b) =>
        if stageOk l.val w.kind p sum mxr = false then (.error .page, b)
        else if needsUpdate l.val w.kind && (!envBit b i 61 virt || w.spec) then (.error .page, b)
        else (.ok (some l), b)
  match first with
  | (.error e, b) => (stopRes w.kind e, b)
  | (.ok vs, b) =>
    let gpa := gAddr vs va
    match if virt then gStage b w gpa w.kind else (.ok none, b) with
    | (.error e, b) => (stopRes w.kind e, b)
    | (.ok g, b) =>
      let set (b : Block) (stage : Nat) (l : Option Leaf) : Option XStop × Block :=
        match l with
        | none => (none, b)
        | some l =>
          if stage == 0 && virt && needsUpdate l.val w.kind then
            match gTable b w l.gpte .store with
            | (.error e, b) => (some e, b)
            | (.ok _, b) => setAD b w stage l w.kind
          else setAD b w stage l w.kind
      match set b 0 vs with
      | (some e, b) => (stopRes w.kind e, b)
      | (none, b) =>
        match set b 1 g with
        | (some e, b) => (stopRes w.kind e, b)
        | (none, b) =>
          let pa := gAddr g gpa
          let done (l : Option Leaf) : Nat := match l with
            | none => 0xFF
            | some l => updated l.val w.kind
          let sizeOf (l : Option Leaf) : Nat := match l with
            | none => 52
            | some l => leafSize l.val l.level
          let size := min (sizeOf vs) (sizeOf g)
          let pb (l : Option Leaf) : Nat := match l with
            | none => 0
            | some l => ptePbmt l.val
          let mt := leafType (pb vs) (pb g)
          let e : TlbEnt :=
            { vpn := va / 2 ^ size, size := size, pa := pa / 2 ^ size * 2 ^ size, gpn := gpa / 2 ^ size
              asid := ids.asid, vmid := if virt then ids.vmid else 0, virt := virt
              global := match vs with
                | none => true
                | some l => bitOf l.val pteG
              world := w.world, perm := BitVec.ofNat 8 (done vs), gperm := BitVec.ofNat 8 (done g), mtype := mt }
          (.ok pa mt, fillTlb (hpm b i 0x204) i w.kind true e)

/-- Translate the address of an access of a hart (R296 to R304). -/
def translate (b : Block) (i : Nat) (kind : XKind) (va : Word) (spec : Bool := false) : XRes × Block :=
  let p := effPriv b i kind
  let virt := isVirt p
  let atp := rdCsr b i (if virt then csrVsatp else csrSatp)
  let bare := p == .m || (modeLevels atp == 0 && (!virt || modeLevels (rdCsr b i csrHgatp) == 0))
  if bare then
    if 2 ^ 52 ≤ va.toNat then (.fault (accessCause kind) 0, b)
    else (.ok va.toNat .pma, b)
  else
    let world := hartWorld b i
    let ids : WalkIds := { asid := bitsOf atp 59 44, vmid := vmidOf b i, virt := virt }
    let h := getHart b i
    let l1 := if kind = .fetch then h.itlb else h.dtlb
    let w : Walker := { hart := i, kind := kind, va := va, world := world, spec := spec }
    let hit := match tlbLook l1 ids world va.toNat kind with
      | some e => some (e, false)
      | none => (tlbLook h.tlb2 ids world va.toNat kind).map fun e => (e, true)
    match hit with
    | some (e, fromL2) =>
      let status := if virt then rdCsr b i csrVsstatus else rdCsr b i csrMstatus
      let mxr := bitOf status 19 || csrBit b i csrMstatus 19
      let b := if fromL2 then fillTlb (hpm b i (if kind = .fetch then 0x202 else 0x201)) i kind false e else b
      if modeLevels atp != 0 && !stageOk e.perm.toNat kind p (bitOf status 18) mxr then (.fault (pageCause kind) 0, b)
      else if virt && modeLevels (rdCsr b i csrHgatp) != 0 && !guestOk e.gperm.toNat kind (csrBit b i csrMstatus 19) then
        (.fault (guestCause kind) (e.gpn * 2 ^ e.size + va.toNat % 2 ^ e.size), b)
      else (.ok (e.pa + va.toNat % 2 ^ e.size) e.mtype, b)
    | none =>
      match fullWalk b w p atp ids with
      | (.ok pa mt, b) =>
        let b := hpm (hpm b i (if kind = .fetch then 0x202 else 0x201)) i 0x203
        if 2 ^ 52 ≤ pa then (.fault (accessCause kind) 0, b) else (.ok pa mt, b)
      | r => r

/-- Translate for an instruction, and go on with the address; a fault traps, and a walk that waits leaves the instruction to be
run again. -/
def withPa (b : Block) (i : Nat) (kind : XKind) (va : Word) (f : Block → Nat → MemType → Block) : Block :=
  match translate b i kind va with
  | (.ok pa mt, b) => f b pa mt
  | (.fault cause gpa, b) => exception b i cause va (gpa / 4)
  | (.err pte stage level code, b) => walkFault b i (accessCause kind) va pte stage level code (instrPc b i)
  | (.wait, b) => b

end Sys2Proof.Machine
end

