-- ==== Sys2Proof/Machine/Hart.lean ====
section
/-! DEFINITION. The instructions of a hart that reach memory or the caches (R248 to R271, R280, R281, R290, R291, R305 to R307,
R313), and the steps of its store buffer, misses and prefetcher. -/

namespace Sys2Proof.Machine

/-! ## Where an access goes (R27, R248, R315) -/

def decodeOf (b : Block) (i pa : Nat) : Dec := dieDecode b (hartDie i) pa

/-- How an access reaches an address: an I/O region is always reached by IoRd and IoWr. -/
def accType (b : Block) (i pa : Nat) (mt : MemType) : MemType := if isMain (decodeOf b i pa) then mt else .io

/-- An I/O region, where a misaligned access traps. -/
def isRegion (b : Block) (i pa : Nat) : Bool :=
  match decodeOf b i pa with
  | .ctl _ | .fab _ _ => true
  | .win _ _ kind _ => kind != 1
  | .group _ _ _ => false
  | .unmapped => decide (fabEnd ≤ pa)

/-- Classes of an access for FENCE. -/
def loadCls (mt : MemType) : Nat := if mt = .io then clsI else clsR
def storeCls (mt : MemType) : Nat := if mt = .io then clsO else clsW

/-- Are I/O stores buffered, behind which an I/O access must wait (R248)? -/
def sbHasIo (b : Block) (i : Nat) : Bool := (getHart b i).sb.any fun e => e.mtype == .io

/-- Is a store to a line buffered? -/
def sbHasLine (b : Block) (i line : Nat) : Bool := (getHart b i).sb.any fun e => e.mtype != .io && e.pa / 64 == line

/-- A core access hits the L2 (R283, R295, R549). -/
def touchL2 (b : Block) (i line : Nat) : Block :=
  let first := (l2Line (getHart b i) line).any fun l => l.pf && l.reuse == 0
  let b := if first then hpm b i 0x105 else b
  l2Upd b i line fun l => { l with used := true, reuse := 1 }

/-! ## Streams (R280) -/

def samePage (x y : Nat) : Bool := x / 64 == y / 64

/-- Is a line at most 15 lines ahead of a stream's latest access? -/
def streamAhead (s : Stream) (line : Nat) : Bool :=
  s.trained && samePage s.last line && (if s.up then decide (s.last < line ∧ line ≤ s.last + 15)
    else decide (line < s.last ∧ s.last ≤ line + 15))

/-- A demand access to a cached page advances a trained stream; a miss trains one, or begins one. -/
def trainStream (b : Block) (i line : Nat) (world miss : Bool) : Block :=
  updHart b i fun h =>
    if h.streams.any fun s => streamAhead s line then
      { h with streams := updFirst (fun s => streamAhead s line) (fun s => { s with last := line, world := world }) h.streams }
    else if !miss then h
    else
      let near (s : Stream) : Bool := !s.trained && samePage s.last line && (line == s.last + 1 || line + 1 == s.last)
      let train (s : Stream) : Stream := { last := line, up := decide (s.last < line), trained := true, world := world }
      if h.streams.any near then { h with streams := updFirst near train h.streams }
      else { h with streams := (h.streams.drop (h.streams.length - 15)) ++ [{ last := line, world := world }] }

/-- Lines ahead of a trained stream, nearest first. -/
def streamLines (b : Block) (i : Nat) (s : Stream) : List Nat :=
  let n := max 1 (cget b i FCD_L2_CTRL FCD_L2_CTRL_PF_DISTANCE)
  let step (d : Nat) : Option Nat := if s.up then some (s.last + d + 1) else if d < s.last then some (s.last - d - 1) else none
  ((List.range n).filterMap step).filter fun line =>
    samePage s.last line && l2State (getHart b i) line == stI && (lineReq b i line).isNone &&
      !((getHart b i).waiting.any fun w => w.line == line)

/-- The next prefetch of a hart: its line and world. -/
def nextPrefetch (b : Block) (i : Nat) : Option (Nat × Bool) :=
  ((getHart b i).streams.filter (·.trained)).findSome? fun s => ((streamLines b i s).head?).map fun line => (line, s.world)

/-- May the stream prefetcher issue? -/
def mayPrefetch (b : Block) (i : Nat) : Bool :=
  let out := ((getDie b (hartDie i)).reqs.filter fun r => r.hart == some i && r.purpose == .prefetch).length
  cget b i FCD_L2_CTRL FCD_L2_CTRL_PF_ENABLE == 1 && cget b i FCD_L2_CTRL FCD_L2_CTRL_FILL_LOCKED == 0 &&
    decide (out < min 48 (cget b i FCD_L2_CTRL FCD_L2_CTRL_PF_MAX) ∧ missCount b i < 56)

def streamPrefetch (b : Block) (i : Nat) : Block :=
  if mayPrefetch b i = false then b
  else match nextPrefetch b i with
  | none => b
  | some (line, world) =>
    match sendMiss b i opRdShared line 2 world .prefetch [] with
    | none => b
    | some b => hpm b i 0x104

/-! ## An own copy under another mapping (R161) -/

/-- Give up the hart's own copy of a line before an NC or I/O access: none while a write-back of it is under way. -/
def clearOwn (b : Block) (i line : Nat) : Option Block :=
  match giveUp b i line false true with
  | none => none
  | some b' => if (wbFind (getHart b' i) line).isSome then none else some b'

/-- The same, as far as it goes now: the write-back is sent, and the access waits for it. -/
def beginClear (b : Block) (i line : Nat) : Block := (giveUp b i line false true).getD b

/-! ## Loads (R248, R249) -/

/-- Start a load whose parts are translated. -/
def startLoad (b : Block) (i : Nat) (a : LoadAcc) (mt : MemType) : Block :=
  let line := a.pa / 64
  let h := getHart b i
  match mt with
  | .pma =>
    match l2Line h line with
    | some l =>
      let world := hartWorld b i
      if secDenies b i line world then takeTrap b i false excLoadAccess a.pc a.va
      else
        let inL1 := (l1Find h.l1d (l1dKeys line) line).isSome
        let b := if inL1 then b else touchL2 (hpm b i 0x101) i line
        performLoad (l1dFill (trainStream b i line world false) i line) i a (blockByte l.data) (blockBad l.poison)
    | none => askLoad (trainStream (hpm b i 0x101) i line (hartWorld b i) true) i a .pma
  | mt => askLoad b i a mt

/-- Must a load or store of this type to a line wait for a write-back of the hart's own copy? -/
def mustClear (b : Block) (i : Nat) (mt : MemType) (line : Nat) : Bool :=
  mt != .pma && (l2State (getHart b i) line != stI || (wbFind (getHart b i) line).isSome)

/-- A load with its addresses: `parts` gives the second part of one that crosses a line. -/
def loadAt (b : Block) (i : Nat) (dest : LoadDest) (va : Word) (size : Size) (pa : Nat) (mt : MemType)
    (next : Option (Nat × MemType)) (parity : Bool) (err : ArrayErr) : Block :=
  let n := size.bytes
  let line := pa / 64
  let line2 := ((next.map (·.1)).getD pa) / 64
  let mt2 := (next.map (·.2)).getD mt
  if fenceHolds b i (loadCls mt ||| loadCls mt2) ∨ (sbHasIo b i = true ∧ (mt = .io ∨ mt2 = .io)) then b
  else if mustClear b i mt line then
    match clearOwn b i line with
    | none => beginClear b i line
    | some b => b
  else if mustClear b i mt2 line2 then beginClear b i line2
  else
    let a : LoadAcc :=
      { dest := dest, va := va, pa := pa, len := min n (64 - pa % 64), size := size, snap := (getHart b i).sbNext
        pc := instrPc b i, next := next }
    let b := popInstr b i
    if next.isNone && mt != .io && sbHolds (getHart b i) a.snap pa n then
      finishLoad b i a (fun _ => 0) (fun _ => false)
    else startLoad (if mt = .pma then coreCheck b i line false parity err else b) i a mt

/-- LOAD, with what the protection of the caches finds at its first part. -/
def runLoad (b : Block) (i : Nat) (dest : LoadDest) (va : Word) (size : Size) (parity : Bool) (err : ArrayErr) : Block :=
  runInstr b i 0 fun b =>
    withPa b i .load va fun b pa mt =>
      let n := size.bytes
      if va.toNat % n ≠ 0 ∧ isRegion b i pa = true then exception b i excLoadMisaligned va
      else
        let first := 64 - pa % 64
        if n ≤ first then loadAt b i dest va size pa (accType b i pa mt) none parity err
        else withPa b i .load (va + BitVec.ofNat 64 first) fun b pa2 mt2 =>
          loadAt b i dest va size pa (accType b i pa mt) (some (pa2, accType b i pa2 mt2)) parity err

def execLoad (hart : Hart) (dest : LoadDest) (va : Word) (size : Size) (parity : Bool) (err : ArrayErr) (s : State) :
    Host.Outcome State Fault Refusal := nextBlk s (runLoad s.blk hart.val dest va size parity err)

/-! ## Stores (R267, R249) -/

/-- Commit a store into the store buffer. -/
def pushStore (b : Block) (i : Nat) (va : Word) (pa len : Nat) (value : Nat) (mt : MemType) (zero : Bool) : Block :=
  let e : SbEnt :=
    { id := (getHart b i).sbNext, va := va, pa := pa, len := len, value := BitVec.ofNat 64 value, mtype := mt
      world := hartWorld b i, zero := zero }
  updHart b i fun h => { h with sb := h.sb ++ [e], sbNext := h.sbNext + 1 }

/-- STORE. One that crosses a line is buffered as its two parts. -/
def runStore (b : Block) (i : Nat) (va : Word) (size : Size) (value : Word) : Block :=
  runInstr b i 0 fun b =>
    withPa b i .store va fun b pa mt =>
      let n := size.bytes
      let v := value.toNat
      let t := accType b i pa mt
      if va.toNat % n ≠ 0 ∧ isRegion b i pa = true then exception b i excStoreMisaligned va
      else if t = .pma ∧ secDenies b i (pa / 64) (hartWorld b i) = true then exception b i excStoreAccess va
      else
        let first := 64 - pa % 64
        if n ≤ first then
          if fenceHolds b i (storeCls t) then b else pushStore (retire b i) i va pa n v t false
        else
          let va2 := va + BitVec.ofNat 64 first
          withPa b i .store va2 fun b pa2 mt2 =>
            let t2 := accType b i pa2 mt2
            if t2 = .pma ∧ secDenies b i (pa2 / 64) (hartWorld b i) = true then exception b i excStoreAccess va
            else if fenceHolds b i (storeCls t ||| storeCls t2) then b
            else pushStore (pushStore (retire b i) i va pa first v t false) i va2 pa2 (n - first) (v >>> (8 * first)) t2 false

def execStore (hart : Hart) (va : Word) (size : Size) (value : Word) (s : State) : Host.Outcome State Fault Refusal :=
  nextBlk s (runStore s.blk hart.val va size value)

/-! ## Milestones (R252 to R266) -/

/-- Classes of the mask whose covered items are not complete (R253). -/
def msPending (b : Block) (i mask : Nat) : Nat :=
  let h := getHart b i
  let cmo := ((getDie b (hartDie i)).reqs.any fun r => r.hart == some i && r.purpose == .cmo) ||
    (h.waiting.any fun w => w.purpose == .cmo) || h.wbs.any (·.cmo)
  mask &&& ((if h.dest.isEmpty then 0 else 2) + (if cmo then 4 else 0) +
    (if cget b i FCD_BINV FCD_BINV_OUTSTANDING = 0 then 0 else 8))

/-- Send the MsFlush of one node (R256): nothing where no tag is free. -/
def sendFlush (i mask : Nat) (d : DestEnt) (b : Block) : Block :=
  if d.flush.isSome then b
  else
    let k := hartDie i
    match dieTag b k with
    | (none, _) => b
    | (some tag, b) =>
      let hdr := mkFlush (hartWorld b i) d.node (myNode b k) tag mask
      let r : Req := { tag := tag, hart := some i, hdr := hdr, purpose := .flush }
      let b := updDie b k fun x => { x with reqs := x.reqs ++ [r] }
      let note := updFirst (fun x : DestEnt => x.node == d.node) fun x => { x with flush := some tag }
      dieSend (updHart b i fun h => { h with dest := note h.dest }) (dieOf k) { hdr := hdr }

/-- Classes of a mask that contribute a loss (R255, R260). -/
def msLossClasses (h : HartSt) (mask : Nat) : Nat :=
  (((List.range 4).filter fun c => bitOf mask c && (h.lost.get 0 c != 0 || (c == 1 && h.lostMark))).map (2 ^ ·)).foldl (· + ·) 0

/-- Retire a milestone (R255, R266): rd, FCD_MS_RESULT, and the counts of the selected classes. -/
def msRetire (b : Block) (i : Nat) (m : MsWait) (pend : Nat) : Block :=
  let h := getHart b i
  let loss := msLossClasses h m.mask
  let sel := (List.range 4).filter fun c => bitOf m.mask c
  let count := (sel.map fun c => h.lost.get 0 c).foldl (· + ·) 0
  let status := if pend ≠ 0 then 2 else if loss ≠ 0 then 1 else 0
  let b := updHart b i fun h => { h with
    ms := none, lost := sel.foldl (fun t c => t.set 0 c 0) h.lost, lostMark := h.lostMark && !bitOf m.mask 1 }
  let b := wrCsr b i FCD_MS_RESULT (place loss 39 36 + place pend 35 32 + min 0xFFFF_FFFF count)
  retire (setX b i m.rd.val (BitVec.ofNat 64 status)) i

/-- Go on with a waiting milestone: nothing before every earlier access is performed (R254); then the MsFlush of class 1, and
retirement once the selected classes are complete or the time is out (R264). -/
def msGo (b : Block) (i : Nat) : Block :=
  match (getHart b i).ms with
  | none => b
  | some m =>
    if unperformed b i ≠ 0 ∨ hartWaits b i = true then b
    else
      let b := if bitOf m.mask 1 then forEach (getHart b i).dest (sendFlush i m.mask) b else b
      let pend := msPending b i m.mask
      if pend = 0 ∨ m.expired = true then msRetire b i m pend else b

/-! ## Cores that leave: warm reset and evacuation (R268, R379) -/

/-- Harts of a die. -/
def dieHarts (k : Nat) : List Nat := (List.range 20).map (k * 20 + ·)

/-- Ways of an L2 that hold a line, or a dirty one. -/
def heldWays (b : Block) (i : Nat) (all : Bool) : List Nat :=
  ((getHart b i).l2.cells.filter fun c => c.2.st != stI && (all || stDirty c.2.st)).map (·.1)

/-- Write back what the write-back buffers and the tags allow. -/
def sweep (b : Block) (i : Nat) (all : Bool) : Block :=
  forEach (heldWays b i all) (fun k b => (writeBack b i k false false).getD b) b

/-- Clear the state of a core: registers, caches, translation, CSRs. -/
def resetHart (b : Block) (i : Nat) : Block :=
  { b with
    harts := b.harts.set {} i {}
    csrs := { cells := b.csrs.cells.filter fun c => c.1 / 4096 != i } }

/-- Go on with a core whose warm-reset drain has ended: its L2 writes back each line in M or O, and then its state is
cleared (R268). -/
def flushGo (b : Block) (i : Nat) : Block :=
  let k := hartDie i
  if (getDie b k).flushing.contains (hartCore i) = false then b
  else
    let b := sweep b i false
    if (heldWays b i false).isEmpty && (getHart b i).wbs.isEmpty then
      resetHart (updDie b k fun d => { d with flushing := d.flushing.filter fun c => c != hartCore i }) i
    else b

/-- Go on with an evacuation (R379): once every store has drained, an MsFlush to every node of the destination sets; once
those, every BcastInval and every miss are answered, a WrBack of every line. An attempt at PK5 writes back every line
(R407). -/
def evacGo (b : Block) (k : Nat) : Block :=
  let harts := dieHarts k
  if (getDie b k).leaving then forEach harts (fun i b => sweep b i true) b
  else if (getDie b k).evacuating = false ∨ (harts.any fun i => !(getHart b i).sb.isEmpty) = true then b
  else
    let b := forEach harts (fun i b => forEach (getHart b i).dest (sendFlush i 2) b) b
    if ((getDie b k).reqs.any fun r => r.purpose != .wb) || harts.any fun i =>
        !(getHart b i).waiting.isEmpty || !(getHart b i).dest.isEmpty then b
    else forEach harts (fun i b => sweep b i true) b

/-- Go on with what a hart has waiting: a milestone, a reset, its die's evacuation. -/
def msCheck (b : Block) (i : Nat) : Block := evacGo (flushGo (msGo b i) i) (hartDie i)

/-- Go on with the harts of a die. -/
def msCheckDie (b : Block) (k : Nat) : Block :=
  evacGo (forEach (dieHarts k) (fun i b => flushGo (msGo b i) i) b) k

/-- MILESTONE. -/
def runMilestone (b : Block) (i : Nat) (rd rs1 : Fin 32) (rs2 : BitVec 5) : Block :=
  runInstr b i 0 fun b =>
    if rs2 ≠ 0 then exception b i excIllegal 0
    else
      let m : MsWait := { rd := rd, mask := (getX b i rs1.val).toNat % 16 }
      msCheck (updHart b i fun h => { h with ms := some m }) i

def execMilestone (hart : Hart) (rd rs1 : Fin 32) (rs2 : BitVec 5) (s : State) : Host.Outcome State Fault Refusal :=
  nextBlk s (runMilestone s.blk hart.val rd rs1 rs2)

/-- MILESTONE_TIMEOUT. -/
def execMilestoneTimeout (hart : Hart) (s : State) : Host.Outcome State Fault Refusal :=
  let expire (h : HartSt) : HartSt := { h with ms := h.ms.map fun m => { m with expired := true } }
  nextBlk s (msCheck (updHart s.blk hart.val expire) hart.val)

/-- INTERRUPT_TAKEN: bit 63 of `cause` marks an interrupt. A hart takes it where it waits for nothing, or in a milestone
(R265). -/
def takeInterrupt (b : Block) (i : Nat) (cause : Word) : Block :=
  if hartRuns b i = false ∨ hartWaits b i = true then b
  else takeTrap b i (cause.getLsbD 63) (cause.toNat % 2 ^ 63) (instrPc b i) 0

def execInterruptTaken (hart : Hart) (cause : Word) (s : State) : Host.Outcome State Fault Refusal :=
  nextBlk s (takeInterrupt s.blk hart.val cause)

/-! ## The store buffer drains (R249, R267, R269, R310) -/

/-- May the store buffer drain: the core is clocked, or drains for a warm reset or for an invalidation. -/
def mayDrain (b : Block) (i : Nat) : Bool :=
  let d := getDie b (hartDie i)
  !d.inReset && !d.clockOff && ((getHart b i).core == .c0 || d.evacuating || d.draining.contains (hartCore i) ||
    d.copies.any fun c => c.left.contains i)

/-- Issue the oldest store of the buffer, or perform it. -/
def drainStore (b : Block) (i : Nat) (e : SbEnt) : Block :=
  let line := e.pa / 64
  let gone (b : Block) : Block := updHart b i fun h => { h with sb := h.sb.filter fun x => x.id != e.id }
  match e.mtype with
  | .pma =>
    let st := l2State (getHart b i) line
    if secDenies b i line e.world then performStore b i e
    else if stWritable st then
      performStore (touchL2 (trainStream b i line e.world false) i line) i e
    else if e.issued then b
    else
      let b := if st = stI then trainStream (hpm b i 0x103) i line e.world true else b
      let mark := updFirst (fun x : SbEnt => x.id == e.id) fun x => { x with issued := true }
      let b := updHart b i fun h => { h with sb := mark h.sb }
      demand b i (upgradeOp b i line) line e.world .demand [.store e.id]
  | .nc =>
    if mustClear b i .nc line then beginClear b i line
    else
      let off := e.pa % 64
      let wr := if e.zero then ((0 : LineData), beAll, (0 : Poison))
        else (lineOf off e.len e.value.toNat, beOf off e.len, (0 : Poison))
      match sendMiss b i opWrUnique line 0 e.world .nc [] (if e.zero then place 1 88 88 else 0) (some wr) with
      | none => b
      | some b => gone b
  | .io =>
    if mustClear b i .io line && isMain (decodeOf b i e.pa) then beginClear b i line
    else ioWrite (gone b) i e.pa e.len e.value.toNat e.world

/-- STORE_BUFFER_DRAIN. -/
def runDrain (b : Block) (i : Nat) : Block :=
  if mayDrain b i = false then b
  else match (getHart b i).sb with
  | [] => b
  | e :: _ => msCheck (drainStore b i e) i

def execStoreBufferDrain (hart : Hart) (s : State) : Host.Outcome State Fault Refusal :=
  nextBlk s (runDrain s.blk hart.val)

/-! ## AMO, LR and SC (R248) -/

def atomLen (wide : Bool) : Nat := if wide then 8 else 4

/-- AMO: it waits for the hart's own stores to its line. -/
def runAmo (b : Block) (i : Nat) (op : AmoOp) (rd : Fin 32) (va : Word) (wide : Bool) (value : Word) : Block :=
  runInstr b i (clsR ||| clsW) fun b =>
    if va.toNat % atomLen wide ≠ 0 then exception b i excStoreMisaligned va
    else withPa b i .store va fun b pa mt =>
      let line := pa / 64
      let world := hartWorld b i
      if accType b i pa mt ≠ .pma ∨ secDenies b i line world = true then exception b i excStoreAccess va
      else if sbHasLine b i line then b
      else
        let pc := instrPc b i
        let b := popInstr b i
        let st := l2State (getHart b i) line
        if stWritable st then performAmo (touchL2 (trainStream b i line world false) i line) i op rd.val va pa wide value pc
        else
          let b := if st = stI then trainStream (hpm b i 0x103) i line world true else b
          demand b i (upgradeOp b i line) line world .demand [.amo op rd va pa wide value pc]

def execAmo (hart : Hart) (op : AmoOp) (rd : Fin 32) (va : Word) (wide : Bool) (value : Word) (s : State) :
    Host.Outcome State Fault Refusal := nextBlk s (runAmo s.blk hart.val op rd va wide value)

/-- LR: it waits for the hart's own stores to its line. -/
def runLr (b : Block) (i : Nat) (rd : Fin 32) (va : Word) (wide : Bool) : Block :=
  runInstr b i clsR fun b =>
    if va.toNat % atomLen wide ≠ 0 then exception b i excLoadMisaligned va
    else withPa b i .load va fun b pa mt =>
      let line := pa / 64
      let world := hartWorld b i
      if accType b i pa mt ≠ .pma ∨ secDenies b i line world = true then exception b i excLoadAccess va
      else if sbHasLine b i line then b
      else
        let pc := instrPc b i
        let b := popInstr b i
        match l2Line (getHart b i) line with
        | some l =>
          if stWritable l.st then
            performLr (touchL2 (trainStream b i line world false) i line) i rd.val va pa wide pc l.data l.poison true
          else demand b i opCleanUnique line world .demand [.lr rd va pa wide pc]
        | none => demand (trainStream (hpm b i 0x103) i line world true) i opRdUnique line world .demand [.lr rd va pa wide pc]

def execLr (hart : Hart) (rd : Fin 32) (va : Word) (wide : Bool) (s : State) : Host.Outcome State Fault Refusal :=
  nextBlk s (runLr s.blk hart.val rd va wide)

/-- An SC ends: rd gets 0 or 1, and the reservation goes. -/
def endSc (b : Block) (i rd : Nat) (fail : Bool) : Block :=
  retire (setX (updHart b i fun h => { h with resv := none }) i rd (BitVec.ofNat 64 (b2n fail))) i

/-- SC: it succeeds where the reservation holds its line, which it takes in E or M. -/
def runSc (b : Block) (i : Nat) (rd : Fin 32) (va : Word) (wide : Bool) (value : Word) : Block :=
  runInstr b i clsW fun b =>
    if va.toNat % atomLen wide ≠ 0 then exception b i excStoreMisaligned va
    else withPa b i .block va fun b pa mt =>
      let line := pa / 64
      let world := hartWorld b i
      if accType b i pa mt ≠ .pma ∨ secDenies b i line world = true then exception b i excStoreAccess va
      else if (getHart b i).resv ≠ some line then endSc b i rd.val true
      else withPa b i .store va fun b _ _ =>
        if sbHasLine b i line then b
        else if (getHart b i).resv ≠ some line then endSc b i rd.val true
        else if stWritable (l2State (getHart b i) line) then
          let n := atomLen wide
          endSc (writeLineBytes (touchL2 b i line) i line (pa % 64) n (value.toNat % 2 ^ (8 * n))) i rd.val false
        else demand b i (upgradeOp b i line) line world .demand []

def execSc (hart : Hart) (rd : Fin 32) (va : Word) (wide : Bool) (value : Word) (s : State) :
    Host.Outcome State Fault Refusal := nextBlk s (runSc s.blk hart.val rd va wide value)

/-! ## Fences -/

def runFence (b : Block) (i pred succ : Nat) : Block := runInstr b i 0 fun b => retire (addFence b i pred succ) i

/-- FENCE. -/
def execFence (hart : Hart) (pred succ : BitVec 4) (s : State) : Host.Outcome State Fault Refusal :=
  nextBlk s (runFence s.blk hart.val pred.toNat succ.toNat)

/-- FENCE.TSO, as FENCE rw,rw. -/
def execFenceTso (hart : Hart) (s : State) : Host.Outcome State Fault Refusal :=
  nextBlk s (runFence s.blk hart.val (clsR ||| clsW) (clsR ||| clsW))

/-- Run an instruction that waits for the hart's earlier stores to be performed. -/
def runAfterStores (b : Block) (i : Nat) (f : Block → Block) : Block :=
  runInstr b i 0 fun b => if unperformed b i &&& clsW ≠ 0 then b else f b

/-- FENCE.I: once the hart's stores are performed, it discards the instructions fetched after it. -/
def execFenceI (hart : Hart) (s : State) : Host.Outcome State Fault Refusal :=
  let i := hart.val
  nextBlk s (runAfterStores s.blk i fun b => updHart (retire b i) i fun h => { h with fetched := [] })

/-! ## Cache-block operations (R161, R290) -/

/-- The trap of a disabled cache-block operation, by a field test on menvcfg, henvcfg and senvcfg (Zicbom, Zicboz). -/
def cboTrap (b : Block) (i : Nat) (on : Nat → Bool) : Option Nat :=
  let m := on (rdCsr b i csrMenvcfg)
  let h := on (rdCsr b i csrHenvcfg)
  let s := on (rdCsr b i csrSenvcfg)
  match (getHart b i).priv with
  | .m => none
  | .hs => if m then none else some excIllegal
  | .u => if m && s then none else some excIllegal
  | .vs => if !m then some excIllegal else if h then none else some excVirtual
  | .vu => if !m then some excIllegal else if h && s then none else some excVirtual

/-- Does CBO.INVAL act as CBO.FLUSH: an applicable CBIE field is 0b01? -/
def cbieFlush (b : Block) (i : Nat) : Bool :=
  let f (csr : Nat) : Bool := bitsOf (rdCsr b i csr) 5 4 == 1
  match (getHart b i).priv with
  | .m => false
  | .hs => f csrMenvcfg
  | .u => f csrMenvcfg || f csrSenvcfg
  | .vs => f csrMenvcfg || f csrHenvcfg
  | .vu => f csrMenvcfg || f csrHenvcfg || f csrSenvcfg

/-- Apply a cache-maintenance operation to the own copy and send its request: nothing where no buffer, entry or tag is
free, or the line has a request outstanding. -/
def applyCmo (b : Block) (i line op : Nat) : Block :=
  if (lineReq b i line).isSome then b
  else match giveUp b i line true false with
  | none => b
  | some b' =>
    match sendMiss b' i op line 0 (hartWorld b i) .cmo [] with
    | none => b
    | some b' => retire b' i

/-- A cache-block management operation. -/
def runCmo (b : Block) (i : Nat) (va : Word) (on : Nat → Bool) (op : Nat) : Block :=
  runInstr b i (clsR ||| clsW) fun b =>
    match cboTrap b i on with
    | some cause => exception b i cause 0
    | none => withPa b i .block va fun b pa _ =>
      let line := pa / 64
      if secDenies b i line (hartWorld b i) then exception b i excStoreAccess va
      else if sbHasLine b i line then b
      else applyCmo b i line op

def cbcfeOn (r : Nat) : Bool := bitOf r 6
def cbieOn (r : Nat) : Bool := bitsOf r 5 4 != 0
def cbzeOn (r : Nat) : Bool := bitOf r 7

/-- CBO.CLEAN. -/
def execCboClean (hart : Hart) (va : Word) (s : State) : Host.Outcome State Fault Refusal :=
  nextBlk s (runCmo s.blk hart.val va cbcfeOn opCmoClean)

/-- CBO.FLUSH. -/
def execCboFlush (hart : Hart) (va : Word) (s : State) : Host.Outcome State Fault Refusal :=
  nextBlk s (runCmo s.blk hart.val va cbcfeOn opCmoCleanInval)

/-- CBO.INVAL. -/
def execCboInval (hart : Hart) (va : Word) (s : State) : Host.Outcome State Fault Refusal :=
  nextBlk s (runCmo s.blk hart.val va cbieOn (if cbieFlush s.blk hart.val then opCmoCleanInval else opCmoInval))

/-- CBO.ZERO, a store of 64 bytes (R249); an I/O page or region has no such store. -/
def runCboZero (b : Block) (i : Nat) (va : Word) : Block :=
  runInstr b i clsW fun b =>
    match cboTrap b i cbzeOn with
    | some cause => exception b i cause 0
    | none => withPa b i .store va fun b pa mt =>
      let t := accType b i pa mt
      if t = .io ∨ (t = .pma ∧ secDenies b i (pa / 64) (hartWorld b i) = true) then exception b i excStoreAccess va
      else pushStore (retire b i) i va (pa / 64 * 64) 64 0 t true

def execCboZero (hart : Hart) (va : Word) (s : State) : Host.Outcome State Fault Refusal :=
  nextBlk s (runCboZero s.blk hart.val va)

/-! ## Hints (R281) -/

/-- The line of a hint, where it is not dropped. -/
def hintLine (b : Block) (i : Nat) (kind : XKind) (va : Word) : Option Nat × Block :=
  match translate b i kind va true with
  | (.ok pa mt, b) =>
    if accType b i pa mt = .pma ∧ missCount b i < 56 ∧ secDenies b i (pa / 64) (hartWorld b i) = false then
      (some (pa / 64), b)
    else (none, b)
  | (_, b) => (none, b)

/-- A prefetch for reading: `fetch` fills the L1I, otherwise the L1D. -/
def prefetchRead (b : Block) (i line : Nat) (fetch : Bool) : Block :=
  if l2State (getHart b i) line ≠ stI then
    if fetch then l1iFill (l2Upd b i line fun l => { l with inL1i := true }) i line else l1dFill b i line
  else if (lineReq b i line).isSome then b
  else missOrWait b i opRdShared line 0 (hartWorld b i) (if fetch then .hintI else .hint) []

def prefetchWrite (b : Block) (i line : Nat) : Block :=
  if stWritable (l2State (getHart b i) line) ∨ (lineReq b i line).isSome = true then b
  else missOrWait b i (upgradeOp b i line) line 0 (hartWorld b i) .demand []

def runHint (b : Block) (i : Nat) (kind : XKind) (va : Word) (f : Block → Nat → Block) : Block :=
  runInstr b i 0 fun b =>
    match hintLine b i kind va with
    | (none, b) => retire b i
    | (some line, b) => retire (f b line) i

/-- PREFETCH.R. -/
def execPrefetchR (hart : Hart) (va : Word) (s : State) : Host.Outcome State Fault Refusal :=
  nextBlk s (runHint s.blk hart.val .load va fun b line => prefetchRead b hart.val line false)

/-- PREFETCH.W. -/
def execPrefetchW (hart : Hart) (va : Word) (s : State) : Host.Outcome State Fault Refusal :=
  nextBlk s (runHint s.blk hart.val .store va fun b line => prefetchWrite b hart.val line)

/-- PREFETCH.I. -/
def execPrefetchI (hart : Hart) (va : Word) (s : State) : Host.Outcome State Fault Refusal :=
  nextBlk s (runHint s.blk hart.val .fetch va fun b line => prefetchRead b hart.val line true)

/-! ## Invalidation scopes (R305, R307) -/

/-- A scope: OP of R307 with its operands and the WORLD. -/
structure Scope where
  op : Nat
  addr : Nat
  asid : Nat
  vmid : Nat
  world : Bool
deriving DecidableEq, Repr

/-- Does the page of a TLB entry cover an address, guest physical for OP 9? Addresses are compared in bits [58:12]. -/
def covers (vpn size addr : Nat) : Bool := (vpn * 2 ^ size % 2 ^ 59) / 2 ^ size == (addr % 2 ^ 59) / 2 ^ size

/-- Does a scope match a TLB entry (R307)? -/
def scopeTlb (c : Scope) (e : TlbEnt) : Bool :=
  let here := covers e.vpn e.size c.addr
  let asid := e.asid == c.asid && !e.global
  let vm := e.virt && e.vmid == c.vmid
  e.world == c.world && (match c.op with
    | 1 => !e.virt && asid && here
    | 2 => !e.virt && here
    | 3 => !e.virt && asid
    | 4 => !e.virt
    | 5 => vm && asid && here
    | 6 => vm && here
    | 7 => vm && asid
    | 8 => vm
    | 9 => vm && covers e.gpn e.size c.addr
    | 10 => vm
    | 11 => e.virt
    | _ => false)

/-- Does a scope remove a walk-cache entry: one that could have served a walk in the scope (R305)? -/
def scopeWalk (c : Scope) (e : WalkEnt) : Bool :=
  e.world == c.world && (if c.op ≤ 4 then !e.virt else if c.op = 11 then e.virt else e.virt && e.vmid == c.vmid)

/-- Invalidate a scope on one hart (R305, R307). -/
def invalidate (b : Block) (i : Nat) (c : Scope) : Block :=
  updHart b i fun h => { h with
    itlb := h.itlb.filter fun e => !scopeTlb c e
    dtlb := h.dtlb.filter fun e => !scopeTlb c e
    tlb2 := h.tlb2.filter fun e => !scopeTlb c e
    walk := h.walk.filter fun e => !scopeWalk c e }

/-! ## Fence instructions of the privileged specification (R305) -/

/-- Trap of SFENCE.VMA and SINVAL.VMA below M-mode: TVM and VTVM. -/
def sfenceTrap (b : Block) (i : Nat) : Option Nat :=
  match (getHart b i).priv with
  | .m => none
  | .hs => if csrBit b i csrMstatus 20 then some excIllegal else none
  | .vs => if csrBit b i csrHstatus 20 then some excVirtual else none
  | .u => some excIllegal
  | .vu => some excVirtual

/-- Trap of the hypervisor fences: `gvma` for those that TVM guards. -/
def hfenceTrap (b : Block) (i : Nat) (gvma : Bool) : Option Nat :=
  match (getHart b i).priv with
  | .m => none
  | .hs => if gvma && csrBit b i csrMstatus 20 then some excIllegal else none
  | .u => some excIllegal
  | .vs | .vu => some excVirtual

/-- Scope of SFENCE.VMA and of HFENCE.VVMA: `virt` for the virtual entries of the current VMID. -/
def vmaScope (b : Block) (i : Nat) (virt : Bool) (addr : Option Word) (ident : Option (BitVec 16)) : Scope :=
  let base := if virt then 4 else 0
  { op := base + (match addr, ident with
      | some _, some _ => 1
      | some _, none => 2
      | none, some _ => 3
      | none, none => 4)
    addr := (addr.getD 0).toNat, asid := (ident.getD 0).toNat, vmid := vmidOf b i, world := hartWorld b i }

/-- Scope of HFENCE.GVMA; an address without a VMID takes every virtual entry, which is more than it names (R305). -/
def gvmaScope (b : Block) (i : Nat) (addr : Option Word) (ident : Option (BitVec 16)) : Scope :=
  { op := match addr, ident with
      | some _, some _ => 9
      | none, some _ => 10
      | _, none => 11
    addr := (addr.getD 0).toNat, asid := 0, vmid := (ident.getD 0).toNat % 2 ^ 14, world := hartWorld b i }

/-- Run a fence with its trap, scope and order: `stores` says that it waits for earlier stores to be performed. -/
def runInval (b : Block) (i : Nat) (stores : Bool) (trap : Option Nat) (c : Scope) : Block :=
  runInstr b i 0 fun b =>
    match trap with
    | some cause => exception b i cause 0
    | none => if stores && unperformed b i &&& clsW != 0 then b else retire (invalidate b i c) i

def runSfence (b : Block) (i : Nat) (stores : Bool) (addr : Option Word) (ident : Option (BitVec 16)) : Block :=
  runInval b i stores (sfenceTrap b i) (vmaScope b i (isVirt (getHart b i).priv) addr ident)

/-- SFENCE.VMA. -/
def execSfenceVma (hart : Hart) (addr : Option Word) (ident : Option (BitVec 16)) (s : State) :
    Host.Outcome State Fault Refusal := nextBlk s (runSfence s.blk hart.val true addr ident)

/-- SINVAL.VMA. -/
def execSinvalVma (hart : Hart) (addr : Option Word) (ident : Option (BitVec 16)) (s : State) :
    Host.Outcome State Fault Refusal := nextBlk s (runSfence s.blk hart.val false addr ident)

/-- HFENCE.VVMA. -/
def execHfenceVvma (hart : Hart) (addr : Option Word) (ident : Option (BitVec 16)) (s : State) :
    Host.Outcome State Fault Refusal :=
  let i := hart.val
  nextBlk s (runInval s.blk i true (hfenceTrap s.blk i false) (vmaScope s.blk i true addr ident))

/-- HINVAL.VVMA. -/
def execHinvalVvma (hart : Hart) (addr : Option Word) (ident : Option (BitVec 16)) (s : State) :
    Host.Outcome State Fault Refusal :=
  let i := hart.val
  nextBlk s (runInval s.blk i false (hfenceTrap s.blk i false) (vmaScope s.blk i true addr ident))

/-- HFENCE.GVMA. -/
def execHfenceGvma (hart : Hart) (addr : Option Word) (ident : Option (BitVec 16)) (s : State) :
    Host.Outcome State Fault Refusal :=
  let i := hart.val
  nextBlk s (runInval s.blk i true (hfenceTrap s.blk i true) (gvmaScope s.blk i addr ident))

/-- HINVAL.GVMA. -/
def execHinvalGvma (hart : Hart) (addr : Option Word) (ident : Option (BitVec 16)) (s : State) :
    Host.Outcome State Fault Refusal :=
  let i := hart.val
  nextBlk s (runInval s.blk i false (hfenceTrap s.blk i true) (gvmaScope s.blk i addr ident))

/-- Trap of SFENCE.W.INVAL and SFENCE.INVAL.IR in U-mode. -/
def svinvalTrap (b : Block) (i : Nat) : Option Nat :=
  match (getHart b i).priv with
  | .u => some excIllegal
  | .vu => some excVirtual
  | _ => none

/-- SFENCE.W.INVAL: earlier stores are performed before it retires. -/
def runWInval (b : Block) (i : Nat) : Block :=
  runInstr b i 0 fun b =>
    match svinvalTrap b i with
    | some cause => exception b i cause 0
    | none => if unperformed b i &&& clsW ≠ 0 then b else retire b i

def execSfenceWInval (hart : Hart) (s : State) : Host.Outcome State Fault Refusal := nextBlk s (runWInval s.blk hart.val)

/-- SFENCE.INVAL.IR: invalidations act at once here, so it only retires. -/
def runInvalIr (b : Block) (i : Nat) : Block :=
  runInstr b i 0 fun b =>
    match svinvalTrap b i with
    | some cause => exception b i cause 0
    | none => retire b i

def execSfenceInvalIr (hart : Hart) (s : State) : Host.Outcome State Fault Refusal := nextBlk s (runInvalIr s.blk hart.val)

/-! ## Core states (R401) -/

/-- A core changes state, which lets the next power attempt start (R404). -/
def setCore (b : Block) (i : Nat) (c : CoreState) : Block :=
  let b := if (getHart b i).core = c then b else { b with power := { b.power with blocked := false, draining := [] } }
  updHart b i fun h => { h with core := c }

/-- WFI: TW and VTW trap it below M-mode. -/
def runWfi (b : Block) (i : Nat) : Block :=
  runInstr b i 0 fun b =>
    let p := (getHart b i).priv
    if p ≠ .m ∧ csrBit b i csrMstatus 21 = true then exception b i excIllegal 0
    else if p = .vu ∨ (p = .vs ∧ csrBit b i csrHstatus 21 = true) then exception b i excVirtual 0
    else setCore (retire b i) i .c1

def execWfi (hart : Hart) (s : State) : Host.Outcome State Fault Refusal := nextBlk s (runWfi s.blk hart.val)

/-- C3_ENTRY: from C1 with C3_ENABLE 1 and an empty store buffer; both L1s are invalidated (R269, R401). -/
def runC3 (b : Block) (i : Nat) : Block :=
  let h := getHart b i
  if h.core = .c1 ∧ cget b i FCD_CORE_PWR FCD_CORE_PWR_C3_ENABLE = 1 ∧ h.sb = [] then
    setCore (updHart b i fun h => { h with l1d := {}, l1i := {} }) i .c3
  else b

def execC3Entry (hart : Hart) (s : State) : Host.Outcome State Fault Refusal := nextBlk s (runC3 s.blk hart.val)

/-- CORE_WAKE. -/
def execCoreWake (hart : Hart) (s : State) : Host.Outcome State Fault Refusal :=
  nextBlk s (setCore s.blk hart.val .c0)

/-! ## CSR writes with rows of their own -/

/-- WORLD_WRITE: M-mode only; it waits for earlier accesses; COUNT_SECURE is kept where WORLD was 0 (R313). -/
def runWorldWrite (b : Block) (i : Nat) (value : Word) : Block :=
  runInstr b i 0 fun b =>
    if (getHart b i).priv ≠ .m then exception b i excIllegal 0
    else if unperformed b i ≠ 0 then b
    else
      let v := value.toNat
      let was := hartWorld b i
      let b := if was then cset b i FCD_WORLD FCD_WORLD_COUNT_SECURE (bitsOf v 1 1) else b
      retire (cset b i FCD_WORLD FCD_WORLD_WORLD (bitsOf v 0 0)) i

def execWorldWrite (hart : Hart) (value : Word) (s : State) : Host.Outcome State Fault Refusal :=
  nextBlk s (runWorldWrite s.blk hart.val value)

/-- ARG of a BcastInval (R308): fields that the OP does not use are 0. -/
def binvArg (op reach asid vmid addr : Nat) : Nat :=
  let useAddr := [1, 2, 5, 6, 9].contains op
  let useAsid := [1, 3, 5, 7].contains op
  let useVmid := decide (5 ≤ op ∧ op ≤ 10)
  place reach 81 81 + place op 80 77 + place (if useAsid then asid else 0) 76 61 +
    place (if useVmid then vmid else 0) 60 47 + place (if useAddr then bitsOf addr 58 12 else 0) 46 0

/-- Scope that a BcastInval carries (R307, R308). -/
def binvScope (m : Hdr) : Scope :=
  let a := mgtArg m
  { op := bitsOf a 80 77, addr := bitsOf a 46 0 * 4096, asid := bitsOf a 76 61, vmid := bitsOf a 60 47, world := hWorld m }

/-- Send the BcastInval of a hart to its hub's relay (R306, R309): none where no tag is free. -/
def sendBinv (b : Block) (i op reach asid vmid : Nat) : Option Block :=
  let k := hartDie i
  match dieTag b k with
  | (none, _) => none
  | (some tag, b) =>
    let arg := binvArg op reach asid vmid (rdCsr b i FCD_BINV_ADDR)
    let hdr := mkMgt opBcastInval (hartWorld b i) (myNode b (agTh (dieHub k))) (myNode b k) tag arg
    let b := updDie b k fun d => { d with reqs := d.reqs ++ [{ tag := tag, hart := some i, hdr := hdr, purpose := .binv }] }
    let out := cget b i FCD_BINV FCD_BINV_OUTSTANDING
    some (dieSend (cset b i FCD_BINV FCD_BINV_OUTSTANDING (out + 1)) (dieOf k) { hdr := hdr })

/-- BROADCAST_INVALIDATION_WRITE (R306). -/
def runBinvWrite (b : Block) (i : Nat) (value : Word) : Block :=
  runInstr b i 0 fun b =>
    let v := value.toNat
    let op := bitsOf v 3 0
    let go := bitOf v 63
    match (getHart b i).priv with
    | .vs => exception b i excVirtual 0
    | .u | .vu => exception b i excIllegal 0
    | _ =>
      if go = true ∧ (op = 0 ∨ 12 ≤ op) then exception b i excIllegal 0
      else if go = true ∧ 4 ≤ cget b i FCD_BINV FCD_BINV_OUTSTANDING then b
      else
        let f (b : Block) (x : Fld) : Block := cset b i FCD_BINV x (bitsOf v x.hi x.lo)
        let b' := f (f (f (f b FCD_BINV_VMID) FCD_BINV_ASID) FCD_BINV_REACH) FCD_BINV_OP
        if go then
          match sendBinv b' i op (bitsOf v 8 8) (bitsOf v 31 16) (bitsOf v 45 32) with
          | none => b
          | some b' => retire b' i
        else retire b' i

def execBroadcastInvalidationWrite (hart : Hart) (value : Word) (s : State) : Host.Outcome State Fault Refusal :=
  nextBlk s (runBinvWrite s.blk hart.val value)

/-- A set-and-way operation (R291): it waits while the way is reserved or its line has a request outstanding. -/
def runSetway (b : Block) (i set way : Nat) (evict : Bool) : Block :=
  runInstr b i 0 fun b =>
    let key := set * 16 + way
    let l := (getHart b i).l2.get {} key
    if (getHart b i).priv ≠ .m then exception b i excIllegal 0
    else if l.reserved.isSome ∨ (l.st ≠ stI ∧ (lineReq b i l.line).isSome = true) then b
    else if l.st = stI ∨ (evict = false ∧ stDirty l.st = false) then retire b i
    else match evictWay b i key true with
    | none => b
    | some b => retire b i

/-- L2_SETWAY_CLEAN. -/
def execL2SetwayClean (hart : Hart) (set : Fin 2048) (way : Fin 16) (s : State) : Host.Outcome State Fault Refusal :=
  nextBlk s (runSetway s.blk hart.val set.val way.val false)

/-- L2_SETWAY_EVICT. -/
def execL2SetwayEvict (hart : Hart) (set : Fin 2048) (way : Fin 16) (s : State) : Host.Outcome State Fault Refusal :=
  nextBlk s (runSetway s.blk hart.val set.val way.val true)

/-! ## Misses that waited (R276, R278) -/

/-- Perform what waits for a line, in order. -/
def performAll (b : Block) (i line : Nat) (accs : List Access) : Block := forEach accs (fun a b => performAcc b i line a) b

/-- Try again the oldest miss that waits. -/
def resumeMiss (b : Block) (i : Nat) : Block :=
  match (getHart b i).waiting with
  | [] => b
  | w :: rest =>
    let b' := updHart b i fun h => { h with waiting := rest }
    let st := l2State (getHart b i) w.line
    if w.purpose = .io then
      match w.accs with
      | [.load a] => ioRead b' i a.pa a.len w.world w.accs
      | [.fetch _ pa] => ioRead b' i pa (min 4 (64 - pa % 64)) w.world w.accs
      | _ => b'
    else if w.op = opRdOnce then (sendMiss b' i w.op w.line w.hint w.world w.purpose w.accs).getD b
    else match lineReq b i w.line with
    | some r =>
      if merges r then
        let add := updFirst (fun x : Req => x.tag == r.tag) fun x => { x with accs := x.accs ++ w.accs }
        updDie b' (hartDie i) fun d => { d with reqs := add d.reqs }
      else b
    | none =>
      if stWritable st ∨ (st ≠ stI ∧ w.op = opRdShared) then performAll b' i w.line w.accs
      else
        let op := if w.op = opRdShared then w.op else upgradeOp b i w.line
        (sendMiss b' i op w.line w.hint w.world w.purpose w.accs).getD b

/-- L2_MISS_RESUME. -/
def execL2MissResume (hart : Hart) (s : State) : Host.Outcome State Fault Refusal :=
  nextBlk s (msCheck (resumeMiss s.blk hart.val) hart.val)

/-- STREAM_PREFETCH. -/
def execStreamPrefetch (hart : Hart) (s : State) : Host.Outcome State Fault Refusal :=
  nextBlk s (streamPrefetch s.blk hart.val)

/-! ## Instruction fetch (R274, R512) -/

/-- Fetch from a translated address. Only the oldest instruction is fetched from outside cached memory. -/
def fetchAt (b : Block) (i : Nat) (va : Word) (pa : Nat) (mt : MemType) (parity : Bool) (err : ArrayErr) : Block :=
  let line := pa / 64
  let b := if mt = .pma then coreCheck b i line true parity err else b
  let world := hartWorld b i
  let h := getHart b i
  let older := !h.fetched.isEmpty
  match mt with
  | .pma =>
    match l2Line h line with
    | some l =>
      if secDenies b i line world then (if older then b else exception b i excFetchAccess va)
      else
        let inL1 := (l1Find h.l1i (l1iKeys line) line).isSome
        let b := if inL1 then b else touchL2 (hpm b i 0x102) i line
        performFetch (l1iFill (l2Upd b i line fun l => { l with inL1i := true }) i line) i va (blockBad l.poison pa)
    | none =>
      demand (trainStream (hpm (hpm b i 0x102) i 0x103) i line world true) i opRdShared line world .demand [.fetch va pa]
  | .nc =>
    if older then b
    else if mustClear b i .nc line then beginClear b i line
    else missOrWait b i opRdOnce line 0 world .nc [.fetch va pa]
  | .io =>
    if older ∨ sbHasIo b i = true then b
    else if mustClear b i .io line && isMain (decodeOf b i pa) then beginClear b i line
    else ioRead b i pa (min 4 (64 - pa % 64)) world [.fetch va pa]

/-- INSTRUCTION_FETCH: a fetch behind instructions not yet executed is speculative, so it neither faults nor changes a page
table (R302). -/
def runFetch (b : Block) (i : Nat) (va : Word) (parity : Bool) (err : ArrayErr) : Block :=
  if canBegin b i 0 = false then b
  else if (getHart b i).fetched.isEmpty then
    match translate b i .fetch va with
    | (.ok pa mt, b) => fetchAt b i va pa (accType b i pa mt) parity err
    | (.fault cause gpa, b) => takeTrap b i false cause va va (gpa / 4)
    | (.err pte stage level code, b) => walkFault b i excFetchAccess va pte stage level code va
    | (.wait, b) => b
  else match translate b i .fetch va true with
    | (.ok pa mt, b) => fetchAt b i va pa (accType b i pa mt) parity err
    | (_, b) => b

def execInstructionFetch (hart : Hart) (va : Word) (parity : Bool) (err : ArrayErr) (s : State) :
    Host.Outcome State Fault Refusal := nextBlk s (runFetch s.blk hart.val va parity err)

end Sys2Proof.Machine
end

