-- ==== Sys2Proof/Machine/Snoops.lean ====
section
/-! DEFINITION. Snoops at a compute die: the ring road (R170, R171, R202), and what each L2 does (R167, R168, R203, R206). -/

namespace Sys2Proof.Machine

/-! ## The ring road (R170, R202) -/

/-- Line of a tag of a die. -/
def tagLine (b : Block) (k tag : Nat) : Option Nat := ((getDie b k).reqs.find? fun r => r.tag == tag).map (·.line)

/-- Is an answer for a line waiting to be accepted by its L2? -/
def answersWait (b : Block) (k line : Nat) : Bool :=
  (getBox b (boxDie k) vcRsp ++ getBox b (boxDie k) vcDat).any fun m => tagLine b k (hTag m.hdr) == some line

/-- L2s that a snoop goes to: all, but the owner of the TAG of the die's own request. -/
def snoopHarts (b : Block) (k : Nat) (m : Hdr) : List Nat :=
  let all := (List.range 20).map (k * 20 + ·)
  if hSrc m = myNode b k then
    let owner := ((getDie b k).reqs.find? fun r => r.tag == hTag m).bind (·.hart)
    all.filter fun i => some i != owner
  else all

/-- SNOOP_DISPATCH. -/
def dispatchSnoop (b : Block) (k : Nat) : Block :=
  match popBox b (boxDie k) vcSnp with
  | none => b
  | some (m, b') =>
    let d := getDie b k
    if d.inReset || d.clockOff || d.frozen || answersWait b k (hLine m.hdr) then b
    else
      let left := snoopHarts b k m.hdr
      let b' := forEach left (fun i b => hpm b i 0x109 (hWorld m.hdr)) b'
      updDie b' k fun d => { d with snoops := d.snoops ++ [{ hdr := m.hdr, left := left }] }

def execSnoopDispatch (die : Die) (s : State) : Host.Outcome State Fault Refusal :=
  nextBlk s (dispatchSnoop s.blk die.val)

/-! ## The snooper's table (R167) -/

/-- Final state, state granted by DataFwd, and data for the home. -/
structure SnpAct where
  st : Nat
  fwd : Option Nat
  data : Bool
deriving DecidableEq, Repr

/-- R167, by the held state. -/
def snpAct (op st : Nat) (fwd : Bool) : SnpAct :=
  if st = stI then ⟨stI, none, false⟩
  else if op = opSnpShared then
    if fwd then
      if stDirty st then ⟨stO, some stS, false⟩ else if st = stS then ⟨stS, none, false⟩ else ⟨stS, some stF, false⟩
    else ⟨stS, none, stDirty st⟩
  else if op = opSnpUnique ∧ fwd = true then
    if stDirty st then ⟨stI, some stM, false⟩ else if st = stS then ⟨stI, none, false⟩ else ⟨stI, some stE, false⟩
  else if op = opSnpUnique ∨ op = opSnpBack then ⟨stI, none, stDirty st⟩
  else if op = opSnpInval then ⟨stI, none, false⟩
  else if st = stM then ⟨stE, none, true⟩ else if st = stO then ⟨stF, none, true⟩ else ⟨st, none, false⟩

/-! ## One L2 acts (R168, R203, R206) -/

/-- Is the third row of R203 the hart's position for a line: Comp received, DataFwd not? -/
def holdsSnoop (b : Block) (i line : Nat) : Bool := (lineReq b i line).any fun r => r.comp.isSome && r.fwd.isNone

/-- Is snoop `n` of a die the hart's next with this opcode, and none of its line before it? -/
def snoopIndex (b : Block) (i op : Nat) : Option Nat :=
  let l := (getDie b (hartDie i)).snoops
  let waits (x : DieSnoop) : Bool := x.left.contains i || x.held.contains i
  (List.range l.length).find? fun n =>
    match l[n]? with
    | none => false
    | some x => hOp x.hdr == op && waits x && !((l.take n).any fun y => hLine y.hdr == hLine x.hdr && waits y)

/-- Answer a snoop from the held state: the buffer of a write-back where one is outstanding (R206). -/
def actSnoop (b : Block) (i n : Nat) (x : DieSnoop) : Block :=
  let k := hartDie i
  let line := hLine x.hdr
  let h := getHart b i
  let wb := wbFind h line
  let held : Nat × LineData × Poison := match wb, l2Line h line with
    | some w, _ => (w.st, w.data, w.poison)
    | none, some l => (l.st, l.data, l.poison)
    | none, none => (stI, 0, 0)
  let a := snpAct (hOp x.hdr) held.1 (snpFwd x.hdr)
  let b := if held.1 ≠ stI then hpm b i 0x10A (hWorld x.hdr) else b
  let b := match wb with
    | some _ => updHart b i fun h => { h with wbs := updFirst (fun w => w.line == line) (fun w => { w with st := a.st }) h.wbs }
    | none => if held.1 = stI then b else setLineState b i line a.st
  let part : Part := { hart := i, st := a.st, fwd := a.fwd.isSome, data := if a.data then some held.2 else none }
  let note (y : DieSnoop) : DieSnoop :=
    { y with left := y.left.filter (· != i), held := y.held.filter (· != i), parts := y.parts ++ [part] }
  let b := updDie b k fun d => { d with snoops := listUpd d.snoops n note }
  match a.fwd with
  | none => b
  | some grant =>
    let hdr := mkDat opDataFwd (hWorld x.hdr) (hSrc x.hdr) (myNode b k) (hTag x.hdr) grant stsOk 0 beAll held.2.2
    dieSend b (dieOf k) { hdr := hdr, data := held.2.1 }

/-- SNP_SHARED to SNP_BACK: the hart's L2 acts on its next snoop of the opcode, or holds it (R203). -/
def runSnoop (b : Block) (i op : Nat) : Block :=
  let k := hartDie i
  match snoopIndex b i op with
  | none => b
  | some n => match (getDie b k).snoops[n]? with
    | none => b
    | some x =>
      if holdsSnoop b i (hLine x.hdr) then
        if x.held.contains i then b
        else
          let note (y : DieSnoop) : DieSnoop := { y with left := y.left.filter (· != i), held := y.held ++ [i] }
          updDie (bump b (CNT_DIE k 2)) k fun d => { d with snoops := listUpd d.snoops n note }
      else actSnoop b i n x

/-- What the protection of an L2 finds when a snoop reads its line (R279); a snoop that it holds, or answers from a write-back
buffer, reads nothing there. -/
def snoopCheck (b : Block) (i op : Nat) (err : ArrayErr) : Block :=
  match snoopIndex b i op with
  | none => b
  | some n => match (getDie b (hartDie i)).snoops[n]? with
    | none => b
    | some x =>
      let line := hLine x.hdr
      if holdsSnoop b i line || (wbFind (getHart b i) line).isSome then b else l2Check b i line (hWorld x.hdr) err

def execSnpShared (hart : Hart) (err : ArrayErr) (s : State) : Host.Outcome State Fault Refusal :=
  nextBlk s (runSnoop (snoopCheck s.blk hart.val opSnpShared err) hart.val opSnpShared)

def execSnpUnique (hart : Hart) (s : State) : Host.Outcome State Fault Refusal :=
  nextBlk s (runSnoop s.blk hart.val opSnpUnique)

def execSnpInval (hart : Hart) (s : State) : Host.Outcome State Fault Refusal :=
  nextBlk s (runSnoop s.blk hart.val opSnpInval)

def execSnpClean (hart : Hart) (s : State) : Host.Outcome State Fault Refusal :=
  nextBlk s (runSnoop s.blk hart.val opSnpClean)

def execSnpBack (hart : Hart) (s : State) : Host.Outcome State Fault Refusal :=
  nextBlk s (runSnoop s.blk hart.val opSnpBack)

/-! ## The combined answer (R171) -/

/-- STATE of a combined SnpResp. -/
def combinedState (parts : List Part) : Nat :=
  match parts.find? fun p => p.st != stI && p.st != stS with
  | some p => p.st
  | none => if parts.any fun p => p.st == stS then stS else stI

/-- The die's one answer to a snoop. -/
def dieAnswer (b : Block) (k : Nat) (x : DieSnoop) : Msg :=
  let w := hWorld x.hdr
  match x.parts.findSome? (·.data) with
  | some (d, p) =>
    { hdr := mkDat opSnpRespData w (snpHome x.hdr) (myNode b k) (hTag x.hdr) 0 stsOk (snpSlice x.hdr) beAll p, data := d }
  | none =>
    { hdr := mkSnpResp w (snpHome x.hdr) (myNode b k) (hTag x.hdr) (hSrc x.hdr) (snpSlice x.hdr) (combinedState x.parts)
        (x.parts.any (·.fwd)) }

/-- Have all L2s returned their parts? -/
def partsIn (x : DieSnoop) : Bool := x.left.isEmpty && x.held.isEmpty && x.parts.all (·.back)

/-- SNOOP_PART_ANSWER: the hart's oldest part goes back; with the last one the die answers. -/
def returnPart (b : Block) (i : Nat) : Block :=
  let k := hartDie i
  let mine (p : Part) : Bool := p.hart == i && !p.back
  let note := updFirst (fun x : DieSnoop => x.parts.any mine) fun x =>
    { x with parts := updFirst mine (fun p => { p with back := true }) x.parts }
  let b := updDie b k fun d => { d with snoops := note d.snoops }
  match takeFirst partsIn (getDie b k).snoops with
  | none => b
  | some (x, rest) => dieSend (updDie b k fun d => { d with snoops := rest }) (dieOf k) (dieAnswer b k x)

def execSnoopPartAnswer (hart : Hart) (s : State) : Host.Outcome State Fault Refusal :=
  nextBlk s (returnPart s.blk hart.val)

end Sys2Proof.Machine
end

