-- ==== Sys2Proof/Machine/DieAnswers.lean ====
section
/-! DEFINITION. Answers at a compute die (R163 to R166, R204, R206, R211, R214, R215, R260, R262, R263, R312, R393). -/

namespace Sys2Proof.Machine

/-- The sent request of a die under a tag. -/
def dieReq (b : Block) (k tag : Nat) : Option Req := (getDie b k).reqs.find? fun r => r.tag == tag && r.sent

/-- A read that may end with data: RdShared, RdUnique or CleanUnique of an L2. -/
def isLineReq (r : Req) : Bool :=
  let op := hOp r.hdr
  holdsMiss r.purpose && (op == opRdShared || op == opRdUnique || op == opCleanUnique)

/-- Record of STATUS LOST at a requester (R211). -/
def lostRecord (b : Block) (k : Nat) (r : Req) (m : Hdr) : Block :=
  if hStatus m = stsLost then
    raise b k (match r.hart with
      | some i => hartCore i
      | none => 20) 3 7 sevDefer (4 * b2n (hWorld m)) (r.line * 64) (m.toNat % 2 ^ 64)
  else b

/-- Purposes that fill an L1 beside the L2 (R281). -/
def hintFill (b : Block) (i : Nat) (r : Req) : Block :=
  match r.purpose with
  | .hint => l1dFill b i r.line
  | .hintI => l1iFill (l2Upd b i r.line fun l => { l with inL1i := true }) i r.line
  | _ => b

/-- A line request completes with the line held: its tag is freed and its core's accesses are performed (R204). -/
def completeHeld (b : Block) (k i : Nat) (r : Req) : Block :=
  performAll (dropReq (hintFill b i r) k r) i r.line r.accs

/-- A line request completes with data (R163, R393). -/
def completeData (b : Block) (k i : Nat) (r : Req) (st : Nat) (d : LineData) (p : Poison) : Block :=
  if st = stI then
    let b := dropReq (unreserve b i r) k r
    forEach r.accs (fun a b => performOnce b i d p a) b
  else completeHeld (install b i r st d p) k i r

/-- A request completes as R166, R262 and R263 give for STATUS ERROR. -/
def failReq (b : Block) (k : Nat) (r : Req) : Block :=
  match r.hart with
  | none => dropReq b k r
  | some i =>
    let lose (b : Block) : Block := dropReq b k r
    match r.purpose with
    | .cmo => addHartLost (lose b) i 2 1
    | .wb => lose (freeWb b i r.tag)
    | .binv => lose b
    | .flush => lose b
    | _ =>
      if hOp r.hdr = opWrUnique ∧ onReq r.purpose = true then storeLost (lose b) i (r.line * 64) (hWorld r.hdr)
      else
        let b := unreserve b i r
        let st := l2State (getHart b i) r.line
        let b := if isLineReq r && st != stI && !stDirty st then setLineState b i r.line stI else b
        forEach r.accs (fun a b => failAcc b i a) (lose b)

/-- A Comp answers an MsFlush (R260): the losses go to every hart whose set holds the node. -/
def flushComp (b : Block) (k : Nat) (r : Req) (m : Hdr) : Block :=
  let node := hDst r.hdr
  let n := rspLost m
  let lossy := hStatus m ≠ stsOk ∨ n ≠ 0
  let mark (i : Nat) (b : Block) : Block := updHart b i fun h =>
    if h.dest.any fun d => d.node == node then
      { h with lost := h.lost.upd 0 1 (· + n), lostMark := true } else h
  let b := if lossy then forEach ((List.range 20).map (k * 20 + ·)) mark b else b
  let b := match r.hart with
    | none => b
    | some i => updHart b i fun h => { h with dest := h.dest.filter fun d => !(d.node == node && d.flush == some r.tag) }
  let b := if (getDie b k).evacuating then updDie b k fun d => { d with evacLost := d.evacLost + n } else b
  dropReq b k r

/-- A Comp answers a BcastInval (R312). -/
def binvComp (b : Block) (k : Nat) (r : Req) (m : Hdr) : Block :=
  match r.hart with
  | none => dropReq b k r
  | some i =>
    if hStatus m = stsLost then addHartLost b i 3 1
    else
      let b := if hStatus m = stsOk then b else addHartLost b i 3 1
      dropReq (cset b i FCD_BINV FCD_BINV_OUTSTANDING (cget b i FCD_BINV FCD_BINV_OUTSTANDING - 1)) k r

/-- A CleanUnique is granted E or M (R163): in the held copy, or by data where the copy has gone. -/
def grantUpgrade (b : Block) (k i : Nat) (r : Req) (st : Nat) : Block :=
  if l2State (getHart b i) r.line = stI then
    let b := dropReq (unreserve b i r) k r
    missOrWait b i opRdUnique r.line 0 (hWorld r.hdr) r.purpose r.accs
  else completeHeld (l2Upd b i r.line fun l => { l with st := st, used := true }) k i r

/-- A Comp for a line request (R163, R164). -/
def lineComp (b : Block) (k i : Nat) (r : Req) (m : Hdr) : Block :=
  if hState m = stE ∨ hState m = stM then grantUpgrade b k i r (hState m)
  else match r.fwd with
  | some (d, p, st) => completeData b k i r st d p
  | none =>
    let note := updFirst (fun x : Req => x.tag == r.tag) fun x => { x with comp := some m }
    updDie b k fun d => { d with reqs := note d.reqs }

/-- A Comp at a die. -/
def dieComp (b : Block) (k : Nat) (m : Msg) : Block :=
  match dieReq b k (hTag m.hdr) with
  | none => unknownTag b m
  | some r =>
    let b := if r.purpose = .binv ∨ r.purpose = .flush then b else lostRecord b k r m.hdr
    let ok := hStatus m.hdr ≠ stsError
    match r.purpose with
    | .flush => flushComp b k r m.hdr
    | .binv => binvComp b k r m.hdr
    | .cmo => if hStatus m.hdr = stsOk then dropReq b k r else failReq b k r
    | .io | .wb => failReq b k r
    | .nc => if ok ∧ hOp r.hdr = opWrUnique then dropReq b k r else failReq b k r
    | _ => match r.hart with
      | none => dropReq b k r
      | some i => if ok then lineComp b k i r m.hdr else failReq b k r

/-- CompData at a die (R163, R215, R393). -/
def dieCompData (b : Block) (k : Nat) (m : Msg) : Block :=
  match dieReq b k (hTag m.hdr) with
  | none => unknownTag b m
  | some r =>
    match r.hart with
    | none => unknownTag b m
    | some i =>
      let p := datPoison m.hdr
      if isLineReq r then completeData (lostRecord b k r m.hdr) k i r (hState m.hdr) m.data p
      else if r.purpose = .io ∨ (r.purpose = .nc ∧ hOp r.hdr = opRdOnce) then
        forEach r.accs (fun a b => performOnce b i m.data p a) (dropReq (lostRecord b k r m.hdr) k r)
      else unknownTag b m

/-- DataFwd at a die (R164): the line is installed and the request completes once the Comp is in. -/
def dieDataFwd (b : Block) (k : Nat) (m : Msg) : Block :=
  match dieReq b k (hTag m.hdr) with
  | none => unknownTag b m
  | some r =>
    match r.hart with
    | none => unknownTag b m
    | some i =>
      if isLineReq r = false ∨ r.fwd.isSome = true then unknownTag b m
      else if r.comp.isSome then completeData b k i r (hState m.hdr) m.data (datPoison m.hdr)
      else
        let note := updFirst (fun x : Req => x.tag == r.tag) fun x =>
          { x with fwd := some (m.data, datPoison m.hdr, hState m.hdr) }
        updDie b k fun d => { d with reqs := note d.reqs }

/-- WbGrant at a die: WrData leaves from the buffer (R206), or with the bytes of a WrUnique. -/
def dieWbGrant (b : Block) (k : Nat) (m : Msg) : Block :=
  match dieReq b k (hTag m.hdr) with
  | none => unknownTag b m
  | some r =>
    let i := r.hart.getD 0
    let send (d : LineData) (be : Word) (p : Poison) : Block :=
      let hdr := mkDat opWrData (hWorld r.hdr) (hSrc m.hdr) (myNode b k) r.tag 0 stsOk (rspSlice m.hdr) be p
      let note := updFirst (fun x : Req => x.tag == r.tag) fun x => { x with granted := true }
      let b := updDie b k fun d => { d with reqs := note d.reqs }
      let mark := updFirst (fun w : WbBuf => w.tag == r.tag) fun w => { w with granted := true }
      dieSend (updHart b i fun h => { h with wbs := mark h.wbs }) (dieOf k) { hdr := hdr, data := d }
    if r.granted then unknownTag b m
    else match r.wr with
    | some (d, be, p) => send d be p
    | none =>
      match (getHart b i).wbs.find? fun w => w.tag == r.tag with
      | some w => if r.purpose = .wb then send w.data beAll w.poison else unknownTag b m
      | none => unknownTag b m

/-- WbAck at a die (R187, R206). -/
def dieWbAck (b : Block) (k : Nat) (m : Msg) : Block :=
  match dieReq b k (hTag m.hdr) with
  | none => unknownTag b m
  | some r =>
    match r.hart with
    | none => unknownTag b m
    | some i =>
      if r.purpose ≠ .wb then unknownTag b m
      else
        let b := lostRecord b k r m.hdr
        let b := if r.granted then b else hpm b i 0x108
        dropReq (freeWb b i r.tag) k r

/-! ## The requester's timers (R214) -/

/-- Quarantine the tag of a request that expired. -/
def quarantine (b : Block) (k tag : Nat) : Block :=
  bumpFld (updDie b k fun d => { d with quarantine := d.quarantine ++ [tag] }) (FCD_REQ_TIMEOUT k)
    FCD_REQ_TIMEOUT_QUARANTINED

/-- FWD_WAIT_EXPIRY: Comp STATE I is in, DataFwd is not. The bytes of the poisoned line are free. -/
def fwdWait (b : Block) (k tag : Nat) : Block :=
  match dieReq b k tag with
  | none => b
  | some r =>
    match r.hart with
    | none => b
    | some i =>
      if isLineReq r = false ∨ r.comp.isNone = true ∨ r.fwd.isSome = true then b
      else
        let b := bumpErr b (CNT_DIE k 1) k 20 3 sevDefer (r.line * 64)
        let b := quarantine b k tag
        let b := if hOp r.hdr = opRdShared then failReq b k r
          else
            let (d, b) := freeLine b
            completeData b k i r stM d 0xFF
        msCheckDie b k

def execFwdWaitExpiry (die : Die) (tag : BitVec 12) (s : State) : Host.Outcome State Fault Refusal :=
  nextBlk s (fwdWait s.blk die.val tag.toNat)

/-- REQ_LIMIT_EXPIRY: a request of an L2 completes as an error. -/
def reqLimit (b : Block) (k tag : Nat) : Block :=
  match dieReq b k tag with
  | none => b
  | some r =>
    if r.purpose = .flush ∨ r.purpose = .binv then b
    else
      let b := bumpErr b (CNT_DIE k 0) k 20 3 sevDefer (r.line * 64)
      msCheckDie (failReq (quarantine b k tag) k r) k

def execReqLimitExpiry (die : Die) (tag : BitVec 12) (s : State) : Host.Outcome State Fault Refusal :=
  nextBlk s (reqLimit s.blk die.val tag.toNat)

end Sys2Proof.Machine
end

