-- ==== Sys2Proof/Machine/Home.lean ====
section
/-! DEFINITION. The home slice: its snoop filter (R173 to R176, R549), its system cache (R272, R285, R286), its memory
requests, and the lookup, answers and end of every flow (R177 to R194, R197 to R215). -/

namespace Sys2Proof.Machine

/-! ## The snoop filter (R173) -/

/-- Set of a line in the filter. -/
def fSet (pa : Nat) : Nat := (pa / 2 ^ 6 % 2 ^ 14) ^^^ (pa / 2 ^ 20 % 2 ^ 14)

/-- Tag of a line in the filter. -/
def fTag (pa : Nat) : Nat := pa / 2 ^ 20 % 2 ^ 32

/-- Line number of the entry of a set with a tag. -/
def fLine (set tag : Nat) : Nat := tag * 2 ^ 14 + (set ^^^ tag % 2 ^ 14)

/-- Keys of the ways of a line's set. -/
def fWays (pa : Nat) : List Nat := (List.range 12).map (fSet pa * 16 + ·)

/-- Key of the valid entry of a line. -/
def fFind (sl : Slice) (pa : Nat) : Option Nat :=
  (fWays pa).find? fun k => (sl.filter.get {} k).valid && (sl.filter.get {} k).tag == fTag pa

/-- Entry of a line. -/
def fEntry (sl : Slice) (pa : Nat) : Option FEnt := (fFind sl pa).map (sl.filter.get {})

/-- An entry with no holder is freed (R174). -/
def fFree (e : FEnt) : FEnt := if e.present = 0 ∧ e.pkgs = 0 then { used := e.used } else e

/-- Change the entry of a line; nothing where it has none. -/
def fUpd (b : Block) (h : Hub) (s pa : Nat) (f : FEnt → FEnt) : Block :=
  updSlice b h s fun sl =>
    match fFind sl pa with
    | none => sl
    | some k => { sl with filter := sl.filter.upd {} k f }

/-- Number by which an entry names a node: a local agent 0 to 13, 0x10 + k for package k, 0x1F for no caching agent (R173,
R491). -/
def whoOf (b : Block) (n : Nat) : Nat :=
  if nodePkg n = pkgNo b then (if nodeAgent n < 14 then nodeAgent n else 0x1F) else 0x10 + nodePkg n

def entHas (e : FEnt) (w : Nat) : Bool :=
  if w < 14 then e.present.getLsbD w else if 16 ≤ w ∧ w < 24 then e.pkgs.getLsbD (w - 16) else false

/-- Set or clear the presence of an agent or package. -/
def entPut (e : FEnt) (w : Nat) (v : Bool) : FEnt :=
  if w < 14 then { e with present := BitVec.ofNat 14 (putBits e.present.toNat w w (b2n v)) }
  else if 16 ≤ w ∧ w < 24 then { e with pkgs := BitVec.ofNat 8 (putBits e.pkgs.toNat (w - 16) (w - 16) (b2n v)) }
  else e

def entMembers (e : FEnt) : List Nat := (List.range 14 ++ (List.range 8).map (16 + ·)).filter (entHas e)

/-- Remove a holder; RESP becomes none where it named it (R175, R210). -/
def entDrop (e : FEnt) (w : Nat) : FEnt :=
  let e := entPut e w false
  if e.resp = w then { e with resp := 0x1F } else e

/-- Is R dirty-capable: unique or O (R183)? -/
def entDirty (e : FEnt) : Bool := e.resp != 0x1F && decide (e.kind < 2)

/-! ## Nodes that a home snoops -/

/-- Hub index of the hub at the far end of a highway link, as its INIT named it (R104, R479). -/
def hwyFarHub (b : Block) (h : Hub) (k : Fin 2) : Nat :=
  (getLink b (.hwy h k)).partnerNode % 2

/-- Node of the proxy of package `p`: the I/O agent of the hub at the far end of the link to it (R490, R491; log
entry 30). -/
def proxyNode (b : Block) (p : Nat) : Nat :=
  match [(Hub.n, (0 : Fin 2)), (Hub.n, 1), (Hub.s, 0), (Hub.s, 1)].find? fun x => hwyNeighbour b x.1 x.2 == some p with
  | some (h, k) => nodeId p (18 + hwyFarHub b h k)
  | none => nodeId p 18

/-- Node that a filter entry's number names. -/
def whoNode (b : Block) (w : Nat) : Nat := if w < 14 then myNode b w else proxyNode b (w - 16)

/-- Is a holder lost, with the wait of R219 ended (R220)? -/
def gone (b : Block) (h : Hub) (w : Nat) : Bool :=
  if w < 14 then agentLost b h w && !b.pkg.lostWait.contains (waitKey h w)
  else if w < 24 then
    (pkgLost b h (w - 16) || (farPkgs b h).contains (w - 16)) && !b.pkg.lostWait.contains (waitKey h (32 + (w - 16)))
  else false

/-! ## Memory requests of a slice (R179, R186, R339, R459) -/

/-- Partition of a slice's quarter (R15). -/
def slicePart (b : Block) (h : Hub) (s : Nat) : Nat := (quarterPart b (h.idx * 2 + s / 16)).getD 0

/-- Bring an answer of memory to a slice. -/
def memAnswer (b : Block) (h : Hub) (s id : Nat) (d : LineData) (p : Poison) : Block :=
  updSlice b h s fun sl => { sl with memBack := sl.memBack ++ [(id, some (d, p))] }

/-- Tell a slice that a write was accepted or refused. -/
def memTold (b : Block) (h : Hub) (s : Nat) (id : Option Nat) (ok : Bool) : Block :=
  match id with
  | none => b
  | some i => updSlice b h s fun sl => { sl with accepted := sl.accepted ++ [(i, ok)] }

/-- Report a refused write that is no CMO's (R357). -/
def writeLost (b : Block) (h : Hub) (s pa : Nat) (world : Bool) : Block :=
  raise b (agHome h) s 3 7 sevDefer (b2n world * 4) pa 0

/-- A slice's request to the CXL device of a KIND 1 window (R459); a port that cannot deliver it is as a frozen channel. -/
def cxlRequest (b : Block) (h : Hub) (s port pa : Nat) (id : Option Nat) (wr : Option (LineData × Poison)) (world : Bool) :
    Block :=
  if portReady b h port then
    let io := getIo b h
    let t := io.nextPcie
    let b := updIo b h fun i => { i with nextPcie := t + 1, pcie := i.pcie ++
      [{ port := some (Fin.ofNat 16 port), tag := t, hdr := mkReq 0 world 0 0 0 (pa / 64) 0, write := wr.isSome, mem := some (s, id) }] }
    match wr with
    | none => emit b (.cxlRd h (Fin.ofNat 16 port) pa t)
    | some (d, p) => emit b (.cxlWr h (Fin.ofNat 16 port) pa d p t)
  else match wr, id with
    | none, some i =>
      let (d, b) := freeLine b
      memAnswer b h s i d 0xFF
    | none, none => b
    | some _, none => writeLost b h s pa world
    | some _, some _ => memTold b h s id false

/-- Read a line for tracker `id`. -/
def memRead (b : Block) (h : Hub) (s id part line hint port : Nat) (world : Bool) : Block :=
  match decodePa b h part (line * 64) with
  | .group _ _ spot =>
    updChan b spot.chan fun c => { c with input := c.input ++
      [{ slice := h.idx * 32 + s, tracker := some id, write := false, ma := spot.ma, line := line, port := port, hint := hint
         world := world }] }
  | .win wh _ 1 p => cxlRequest b wh s p (line * 64) (some id) none world
  | _ =>
    let (d, b) := freeLine b
    memAnswer b h s id d 0xFF

/-- Write a line; `id` names the tracker that waits for the acceptance, `page` the TH_SC_MAINT that does. -/
def memWrite (b : Block) (h : Hub) (s : Nat) (id : Option Nat) (part line : Nat) (d : LineData) (p : Poison)
    (world : Bool) (page : Nat := 20) : Block :=
  match decodePa b h part (line * 64) with
  | .group _ _ spot =>
    updChan b spot.chan fun c => { c with input := c.input ++
      [{ slice := h.idx * 32 + s, tracker := id, write := true, ma := spot.ma, line := line, data := d, poison := p
         world := world, page := page }] }
  | .win wh _ 1 port => cxlRequest b wh s port (line * 64) id (some (d, p)) world
  | _ => match id with
    | none => writeLost b h s (line * 64) world
    | some _ => memTold b h s id false

/-- Write a fully poisoned line, whose bytes are free (R210, R221). -/
def memPoison (b : Block) (h : Hub) (s part line : Nat) : Block :=
  let (d, b) := freeLine b
  bumpW h false (memWrite b h s none part line d 0xFF false) (CNT_JCT h s 5)

/-! ## The system cache (R272, R285, R286) -/

/-- Keys of the ways of a line's set. -/
def scWays (pa : Nat) : List Nat :=
  (List.range 16).map (((pa / 2 ^ 6 % 2 ^ 13) ^^^ (pa / 2 ^ 19 % 2 ^ 13)) * 16 + ·)

/-- Key of the way that holds a line. -/
def scFind (sl : Slice) (line : Nat) : Option Nat :=
  (scWays (line * 64)).find? fun k => (sl.sc.get {} k).valid && (sl.sc.get {} k).line == line

def scLine (sl : Slice) (line : Nat) : Option ScLine := (scFind sl line).map (sl.sc.get {})

/-- Locked ways of a slice: HUB_SC_LOCK (R288). -/
def scLocked (b : Block) (h : Hub) (s : Nat) : Nat :=
  fget b (HUB_SC_LOCK h) (if s < 16 then HUB_SC_LOCK_WAYS_LO else HUB_SC_LOCK_WAYS_HI)

/-- Is a way locked? Ways 16 − n to 15 are. -/
def scWayLocked (n key : Nat) : Bool := decide (16 - n ≤ key % 16)

/-- Ways of a line's set that an allocation may take: neither locked nor reserved (R285) nor out of use (R293). -/
def scAvail (sl : Slice) (n line : Nat) : List Nat :=
  (scWays (line * 64)).filter fun k => !scWayLocked n k && !(sl.sc.get {} k).reserved && !sl.dead.contains k

/-- Age the available ways of a set until one has age 3 (R286). -/
def scAge (sl : Slice) (ways : List Nat) : Slice :=
  let top := (ways.map fun k => (sl.sc.get {} k).age).foldl max 0
  { sl with sc := ways.foldl (fun t k => t.upd {} k fun l => { l with age := l.age + (3 - top) }) sl.sc }

/-- Reserve a way for a line: its own way, an empty way, or a victim's, whose dirty data goes to memory; none where no way
is available. -/
def scReserve (b : Block) (h : Hub) (s line : Nat) : Option Nat × Block :=
  let sl := getSlice b h s
  match scFind sl line with
  | some k => (some k, b)
  | none =>
    let ways := scAvail sl (scLocked b h s) line
    match ways.find? fun k => !(sl.sc.get {} k).valid with
    | some k => (some k, updSlice b h s fun sl => { sl with sc := sl.sc.upd {} k fun l => { l with reserved := true } })
    | none =>
      let sl := scAge sl ways
      match ways.find? fun k => (sl.sc.get {} k).age == 3 with
      | none => (none, b)
      | some k =>
        let v := sl.sc.get {} k
        let b := updSlice b h s fun _ => { sl with sc := sl.sc.set {} k { reserved := true } }
        let b := if v.dirty then
          bumpW h false (memWrite b h s none (slicePart b h s) v.line v.data v.poison false) (CNT_SC h s 4) else b
        (some k, b)

/-- Write a line into a way. -/
def scPut (b : Block) (h : Hub) (s key line : Nat) (d : LineData) (p : Poison) (dirty : Bool) (age : Nat)
    (next : Bool := false) : Block :=
  let l : ScLine :=
    { valid := true, dirty := dirty, line := line, data := d, poison := p, age := age, next := next }
  updSlice b h s fun sl => { sl with sc := sl.sc.set {} key l }

/-- Give back a reserved way that takes no line. -/
def scUnreserve (b : Block) (h : Hub) (s : Nat) (key : Option Nat) : Block :=
  match key with
  | none => b
  | some k => updSlice b h s fun sl => { sl with sc := sl.sc.upd {} k fun l => { l with reserved := false } }

/-- Place dirty data: in the system cache where a way is available, otherwise in memory (R285). Says whether the system
cache took it. -/
def scPlaceDirty (b : Block) (h : Hub) (s part line : Nat) (d : LineData) (p : Poison) (age : Nat) : Bool × Block :=
  match scReserve b h s line with
  | (some k, b) => (true, scPut b h s k line d p true age)
  | (none, b) => (false, memWrite b h s none part line d p false)

/-- Remove a line from the system cache, its way left empty (R159). -/
def scRemove (b : Block) (h : Hub) (s line : Nat) : Block :=
  updSlice b h s fun sl =>
    match scFind sl line with
    | none => sl
    | some k => { sl with sc := sl.sc.set {} k {} }

/-! ## Errors in the arrays of a slice (R293) -/

/-- SC_TAG_UE is set, with the FATAL record of the slice. -/
def setTagUe (b : Block) (h : Hub) (s line : Nat) (world : Bool) : Block :=
  let off := HUB_ERR_STATUS h
  let was := bitOf (rd b off) 2
  let n := b.coal.get 0 (off * 64 + 2)
  let count := if was then min 0xFFFF (n + 1) else n
  raise (putStatus b off 2 true count) (agHome h) s 4 1 sevFatal (b2n was + 4 * b2n world) (kind1Detail count off 2) (line * 64)

/-- A slice reads the set of a line: a single-bit error is corrected, an uncorrectable one in a data word poisons the word in
place, and one in both copies of a tag or state entry takes its way out of use, with what the way held (log entry 116). A way
that a flow has reserved, or whose line has one, is left. -/
def scCheck (b : Block) (h : Hub) (s line : Nat) (world : Bool) (err : ArrayErr) : Block :=
  let sl := getSlice b h s
  match err, scFind sl line with
  | .single, some _ => raiseArray b (agHome h) s sevCorr world
  | .word w, some k =>
    let mark (l : ScLine) : ScLine := { l with poison := poisonWord l.poison w }
    raiseArray (updSlice b h s fun sl => { sl with sc := sl.sc.upd {} k mark }) (agHome h) s sevDefer world
  | .tag way, _ =>
    let key := (scWays (line * 64)).getD way.val 0
    let l := sl.sc.get {} key
    if l.reserved || sl.dead.contains key || (l.valid && sl.trackers.any fun t => t.line == l.line) then b
    else setTagUe (updSlice b h s fun sl => { sl with sc := sl.sc.set {} key {}, dead := sl.dead ++ [key] }) h s line world
  | _, _ => b

/-! ## Trackers -/

def getTr (b : Block) (h : Hub) (s id : Nat) : Option Tracker := (getSlice b h s).trackers.find? fun t => t.id == id
def updTr (b : Block) (h : Hub) (s id : Nat) (f : Tracker → Tracker) : Block :=
  updSlice b h s fun sl => { sl with trackers := updFirst (fun t => t.id == id) f sl.trackers }

/-- Free a tracker, with the slice's own tag that it held. -/
def delTr (b : Block) (h : Hub) (s : Nat) (t : Tracker) : Block :=
  updSlice b h s fun sl => { sl with
    trackers := sl.trackers.filter fun x => x.id != t.id
    completed := sl.completed + 1
    ownTags := if hSrc t.hdr = myNode b (agHome h) then sl.ownTags.filter fun x => x != hTag t.hdr % 128
      else sl.ownTags }

/-- Trackers that a slice holds at most (R22, R177). -/
abbrev maxTrackers : Nat := 2048

/-- Add a tracker at the tail, or at the front for a back-invalidation. -/
def addTr (b : Block) (h : Hub) (s : Nat) (front : Bool) (t : Nat → Tracker) : Nat × Block :=
  let n := (getSlice b h s).nextId
  (n, updSlice b h s fun sl => { sl with
    nextId := n + 1
    trackers := if front then t n :: sl.trackers else sl.trackers ++ [t n] })

/-- REQ opcode by which a tracker's flow runs: IoRd as RdOnce and IoWr as WrUnique (R191), a converted CleanUnique as
RdUnique (R180). -/
def trOp (t : Tracker) : Nat :=
  match t.kind with
  | .req => if t.converted then opRdUnique else hOp t.hdr
  | .io => if hOp t.hdr = opIoRd then opRdOnce else opWrUnique
  | _ => 0

def trFull (t : Tracker) : Bool := t.kind == .req && hFull t.hdr
def isRead (op : Nat) : Bool := op == opRdShared || op == opRdUnique || op == opRdOnce

/-- Does the flow allocate a filter entry (R193)? -/
def allocates (op : Nat) : Bool := op == opRdShared || op == opRdUnique

/-- Does the flow wait for WrData (R183, R189)? -/
def takesWrData (t : Tracker) : Bool := t.kind == .req && (hOp t.hdr == opWrUnique || isAtomic (hOp t.hdr))

/-- Does the flow need the line's data where nothing else supplies it? -/
def needsBase (t : Tracker) : Bool :=
  let op := trOp t
  isRead op || isAtomic op || (op == opWrUnique && !trFull t)

/-- Is the requester a proxy (R491)? -/
def byProxy (b : Block) (t : Tracker) : Bool := nodePkg (hSrc t.hdr) != pkgNo b

/-- PAGE_HINT of a request; 3 is treated as 0 (R134). -/
def trHint (t : Tracker) : Nat :=
  match t.kind with
  | .req => if hPageHint t.hdr = 3 then 0 else hPageHint t.hdr
  | .nextLine => 2
  | _ => 0

/-- Port by which a message entered the hub (R342). -/
def entryPort (hdr : Hdr) (via : Option LinkId) : Nat :=
  match via with
  | some (.hub _ l) => l.val
  | some (.hwy _ _) => 10
  | _ => match nodeAgent (hSrc hdr) / 2 with
    | 9 => 8
    | 10 => 9
    | 11 => 11
    | _ => 12

/-! ## Snoops -/

/-- Send the snoops of a tracker (R178). -/
def sendSnoops (b : Block) (h : Hub) (s : Nat) (t : Tracker) : Block :=
  let b := updTr b h s t.id fun t =>
    { t with handover := false, snoops := t.snoops.map fun n => { n with sent := true } }
  forEach (t.snoops.filter fun n => !n.sent && !n.answered) (fun n b =>
    let b := bumpW h (hWorld t.hdr) b (CNT_COH h s 0)
    let b := if n.op = opSnpBack then bumpW h (hWorld t.hdr) b (CNT_COH h s 1) else b
    hubPut b h { hdr := mkSnp n.op (hWorld t.hdr) n.node (hSrc t.hdr) (hTag t.hdr) t.line (myNode b (agHome h)) s n.fwd })
    b

/-- Give a tracker its snoops: they go at once, or all wait for the handover of one of their targets (R201). -/
def startSnoops (b : Block) (h : Hub) (s id : Nat) (snoops : List Snoop) : Block :=
  let sl := getSlice b h s
  match getTr b h s id with
  | none => b
  | some t =>
    let wait := snoops.any fun n => sl.handovers.any fun w => w.line == t.line && w.node == n.node
    let t := { t with snoops := snoops, handover := wait }
    let b := updTr b h s id fun _ => t
    if wait then bumpW h (hWorld t.hdr) b (CNT_JCT h s 2) else sendSnoops b h s t

/-- Back-invalidate the holders of an entry (R176): a tracker and one of the slice's own tags, free ones being the caller's
to check. -/
def startBackInv (b : Block) (h : Hub) (s line : Nat) (e : FEnt) : Block :=
  let who := (entMembers e).filter fun w => !gone b h w
  if who.isEmpty then b
  else match chooseTag b 0 127 (getSlice b h s).ownTags with
  | (none, b) => b
  | (some tag, b) =>
    let me := myNode b (agHome h)
    let (id, b) := addTr b h s true fun n =>
      { id := n, kind := .backInv, line := line, active := true, looked := true, part := slicePart b h s
        resp := e.resp, respKind := e.kind
        hdr := mkHdr vcReq 0 e.world me me (s * 128 + tag) 0 }
    let b := updSlice b h s fun sl => { sl with ownTags := sl.ownTags ++ [tag] }
    startSnoops b h s id (who.map fun w => { node := whoNode b w, op := opSnpBack, fwd := false })

/-- Can another back-invalidation start (R176)? -/
def backInvFree (b : Block) (h : Hub) (s : Nat) : Bool :=
  decide ((getSlice b h s).ownTags.length < 128) && decide ((getSlice b h s).trackers.length < maxTrackers)

/-- Line of the valid entry at a key of the filter. -/
def fKeyLine (sl : Slice) (k : Nat) : Nat := fLine (k / 16) (sl.filter.get {} k).tag

/-- Take a filter way for a line (R176, R198, R549): an empty way, or a victim's, which a back-invalidation takes over.
None where no way qualifies. -/
def takeWay (b : Block) (h : Hub) (s line : Nat) (world : Bool) : Option Block :=
  let sl := getSlice b h s
  let ways := fWays (line * 64)
  let fresh : FEnt := { valid := true, tag := fTag (line * 64), world := world, used := true }
  let put (b : Block) (k : Nat) : Block := updSlice b h s fun sl => { sl with filter := sl.filter.set {} k fresh }
  match ways.find? fun k => !(sl.filter.get {} k).valid with
  | some k => some (put b k)
  | none =>
    if backInvFree b h s = false then none
    else
      let ok := ways.filter fun k => !sl.trackers.any fun t => t.line == fKeyLine sl k
      match ok.find? (fun k => !(sl.filter.get {} k).used), ok with
      | some k, _ => some (startBackInv (put b k) h s (fKeyLine sl k) (sl.filter.get {} k))
      | none, k :: _ =>
        let b := updSlice b h s fun sl =>
          { sl with filter := ways.foldl (fun t w => t.upd {} w fun e => { e with used := false }) sl.filter }
        some (startBackInv (put b k) h s (fKeyLine sl k) (sl.filter.get {} k))
      | none, [] => none

/-! ## Lost holders (R220, R221) -/

/-- Treat a lost holder of an entry as the scrub does (R221): its bit clears; where it was RESP with unique or O, a poisoned
line goes to memory, and for O the remaining holders are back-invalidated. -/
def scrubEntry (b : Block) (h : Hub) (s part line w : Nat) : Block :=
  match fEntry (getSlice b h s) (line * 64) with
  | none => b
  | some e =>
    if entHas e w = false then b
    else
      let owned := e.resp == w && decide (e.kind < 2)
      let rest := entDrop e w
      let b := if owned then
        let b := memPoison b h s part line
        { b with pkg := { b.pkg with
          scrubPoison := b.pkg.scrubPoison.upd 0 (h.idx * 32 + w) (· + 1) } }
        else b
      if owned && e.kind == 1 && !(entMembers rest).isEmpty then
        startBackInv (fUpd b h s (line * 64) fun e => { used := e.used }) h s line rest
      else fUpd b h s (line * 64) fun _ => fFree rest

/-! ## Write-backs (R187, R188, R207, R284) -/

/-- VSTATE by which R188 updates the filter (R207). -/
def wbState (e : FEnt) (w vst : Nat) : Nat :=
  if e.resp = w ∧ e.kind = 1 then stO
  else if e.resp = w ∧ e.kind = 2 then stF
  else if e.resp ≠ w then (if e.resp ≠ 0x1F ∧ e.kind = 1 then stO else stS)
  else vst

/-- Filter update of R188. -/
def wbFilter (b : Block) (h : Hub) (s : Nat) (t : Tracker) : Block :=
  let w := whoOf b (hSrc t.hdr)
  fUpd b h s (t.line * 64) fun e =>
    if entHas e w = false then e
    else
      let v := wbState e w (hVstate t.hdr)
      let e1 := if v = stM ∨ v = stE then entPut e w false else e
      fFree (if e.resp = w then { e1 with resp := 0x1F } else e1)

/-- Age of a WrBack's line in the system cache (R284, R286). -/
def wbAge (t : Tracker) : Nat := if hReuse t.hdr = 2 then 1 else 2

/-- Send a message of the home to a flow's requester; nothing goes to a lost one (R220). -/
def toRequester (b : Block) (h : Hub) (t : Tracker) (m : Msg) : Block :=
  if gone b h (whoOf b (hSrc t.hdr)) then b else hubPut b h m

def sendWbGrant (b : Block) (h : Hub) (s : Nat) (t : Tracker) : Block :=
  toRequester (updTr b h s t.id fun t => { t with granted := true }) h t
    { hdr := mkWbGrant (hWorld t.hdr) (hSrc t.hdr) (myNode b (agHome h)) (hTag t.hdr) s }

/-- End a WrBack with WbAck. -/
def sendWbAck (b : Block) (h : Hub) (s : Nat) (t : Tracker) (status : Nat) : Block :=
  let m := mkHdr vcRsp opWbAck (hWorld t.hdr) (hSrc t.hdr) (myNode b (agHome h)) (hTag t.hdr) (place status 41 40)
  delTr (toRequester b h t { hdr := m }) h s t

/-- Plan a WrBack's data and grant it, with its system-cache way reserved where it will be written (R285). -/
def wbAccept (b : Block) (h : Hub) (s : Nat) (t : Tracker) (plan : WbPlan) : Block :=
  let (way, b) := if plan = .dirty ∨ plan = .clean then scReserve b h s t.line else (none, b)
  let t := { t with wb := plan, scWay := way, looked := true }
  sendWbGrant (updTr b h s t.id fun _ => t) h s t

/-- A WrBack becomes active (R207, R284). -/
def wbLookup (b : Block) (h : Hub) (s : Nat) (t : Tracker) : Block :=
  let sl := getSlice b h s
  let w := whoOf b (hSrc t.hdr)
  let dirtyOffer := stDirty (hVstate t.hdr)
  let inSc := (scFind sl t.line).isSome
  match (fEntry sl (t.line * 64)).filter (entHas · w) with
  | none => if dirtyOffer then wbAccept b h s t .discard else sendWbAck b h s t stsOk
  | some e =>
    let other := e.resp != w && entDirty e
    if dirtyOffer then
      if e.resp = w ∧ e.kind < 2 then wbAccept b h s t .dirty
      else if inSc || other then wbAccept b h s t .noWrite
      else wbAccept b h s t .clean
    else
      let decline (b : Block) : Block := sendWbAck (bumpW h (hWorld t.hdr) (wbFilter b h s t) (CNT_COH h s 5)) h s t stsOk
      if inSc || decide (hReuse t.hdr < fget b (HUB_SC_CTRL h) HUB_SC_CTRL_CLEAN_MIN_REUSE) then decline b
      else if (scAvail sl (scLocked b h s) t.line).isEmpty || other then decline b
      else wbAccept (bumpW h (hWorld t.hdr) b (CNT_SC h s 2)) h s t .clean

/-- The WrData of a WrBack is here, or missing: place it and end the flow (R187, R207, R210). -/
def wbFinish (b : Block) (h : Hub) (s : Nat) (t : Tracker) : Block :=
  let status := if t.wrMissing then stsError else stsOk
  match t.wb with
  | .refused => sendWbAck (wbFilter b h s t) h s t stsError
  | .discard =>
    let b := if t.wrMissing then b else bumpW h (hWorld t.hdr) b (CNT_JCT h s 3)
    sendWbAck b h s t status
  | .noWrite => sendWbAck (wbFilter b h s t) h s t status
  | .clean =>
    let b := match t.wr, t.scWay with
      | some (d, _, p), some k => scPut b h s k t.line d p false (wbAge t)
      | _, k => scUnreserve b h s k
    sendWbAck (wbFilter b h s t) h s t status
  | .dirty =>
    let (d, p, b) := match t.wr with
      | some (d, _, p) => (d, p, b)
      | none =>
        let (d, b) := freeLine b
        (d, 0xFF, bumpW h (hWorld t.hdr) b (CNT_JCT h s 5))
    let b := match t.scWay with
      | some k =>
        let b := scPut b h s k t.line d p true (wbAge t)
        if t.wrMissing then b else bumpW h (hWorld t.hdr) b (CNT_SC h s 3)
      | none => memWrite b h s none t.part t.line d p (hWorld t.hdr)
    sendWbAck (wbFilter b h s t) h s t status
  | .none => sendWbAck b h s t status

/-! ## Lookup (R177 to R183, R282) -/

/-- Snoops of a flow: P without a requesting guest, and R (R178, R181, R183). -/
def snoopsOf (b : Block) (t : Tracker) (e : FEnt) : List Snoop :=
  let w := whoOf b (hSrc t.hdr)
  let guest := w == 12 || w == 13
  let members := (entMembers e).filter fun x => !(guest && x == w)
  let resp := if guest && e.resp == w then 0x1F else e.resp
  let fwd := !byProxy b t
  let node (x : Nat) := whoNode b x
  let inval := members.map fun x => ({ node := node x, op := opSnpInval, fwd := false } : Snoop)
  let uniqueR (f : Bool) := members.map fun x =>
    if x = resp then ({ node := node x, op := opSnpUnique, fwd := f } : Snoop)
    else { node := node x, op := opSnpInval, fwd := false }
  let toR (op : Nat) (f : Bool) : List Snoop := if resp = 0x1F then [] else [{ node := node resp, op := op, fwd := f }]
  let dirtyCap := resp != 0x1F && decide (e.kind < 2)
  let op := trOp t
  if op = opRdShared then toR opSnpShared fwd
  else if op = opRdUnique then if resp = 0x1F then inval else uniqueR fwd
  else if op = opRdOnce ∨ op = opCmoClean then if dirtyCap then toR opSnpClean false else []
  else if op = opCleanUnique ∨ op = opCmoInval then inval
  else if op = opWrUnique ∧ trFull t = true then inval
  else if dirtyCap then uniqueR false else inval

/-- Is a RdShared answered from the system cache past a responder in F (R181)? -/
def scDirect (b : Block) (h : Hub) (s : Nat) (t : Tracker) (e : FEnt) : Bool :=
  trOp t == opRdShared && e.resp != 0x1F && e.kind == 2 && (scFind (getSlice b h s) t.line).isSome &&
    fon b (HUB_COH_CTRL h) HUB_COH_CTRL_SC_F_DIRECT

/-- Trigger the next-line fetch of a read flow that reads memory (R282). -/
def nextLine (b : Block) (h : Hub) (t : Tracker) : Block :=
  let pa := t.line * 64 + 64
  if isRead (trOp t) && pa % 4096 != 0 && fon b (HUB_SC_CTRL h) HUB_SC_CTRL_NL_ENABLE then
    match homeSlice b h t.part pa with
    | some s2 => updSlice b h s2 fun sl => { sl with nextIn := sl.nextIn ++ [(t.line + 1, t.part, hWorld t.hdr)] }
    | none => b
  else b

/-- Start the memory read of a tracker. -/
def startRead (b : Block) (h : Hub) (s : Nat) (t : Tracker) : Block :=
  nextLine (memRead (updTr b h s t.id fun t => { t with reading := true }) h s t.id t.part t.line (trHint t)
    (entryPort t.hdr t.via) (hWorld t.hdr)) h t

/-- Count a lookup of the system cache, and the first hit of a next-line line (R294). -/
def countSc (b : Block) (h : Hub) (s : Nat) (t : Tracker) : Block :=
  match scFind (getSlice b h s) t.line with
  | none => if isRead (trOp t) then bumpW h (hWorld t.hdr) b (CNT_SC h s 1) else b
  | some k =>
    let b := bumpW h (hWorld t.hdr) b (CNT_SC h s 0)
    if ((getSlice b h s).sc.get {} k).next then
      bumpW h (hWorld t.hdr) (updSlice b h s fun sl => { sl with sc := sl.sc.upd {} k fun l => { l with next := false } }) (CNT_SC h s 7)
    else b

/-- The snoops and the memory read of a request that has its entry and way. -/
def launch (b : Block) (h : Hub) (s id : Nat) : Block :=
  match getTr b h s id with
  | none => b
  | some t =>
    let sl := getSlice b h s
    let e := (fEntry sl (t.line * 64)).getD {}
    let t := { t with looked := true, needWay := false, resp := e.resp, respKind := e.kind }
    let b := updTr b h s id fun _ => t
    let direct := scDirect b h s t e
    let b := startSnoops b h s id (if direct then [] else snoopsOf b t e)
    let spec := needsBase t && (scFind sl t.line).isNone && (e.resp == 0x1F || e.kind != 1) &&
      fon b (HUB_COH_CTRL h) HUB_COH_CTRL_SPEC_MEM_READ
    if spec then startRead b h s t else b

/-- Count a line for the command of a mailbox page; 20 where the command has ended. -/
def countLine (page i : Nat) (b : Block) : Block :=
  if page < 20 then updMbx b page fun m => { m with counts := listUpd m.counts i (· + 1) } else b

/-- What TH_SC_MAINT does to a line of the system cache (R292). Dirty lines are written, and lines leave unless `op` is CLEAN,
or EVICT_UNLOCKED and the way is locked. -/
def maintLine (b : Block) (h : Hub) (s key op page : Nat) : Block :=
  let l := (getSlice b h s).sc.get {} key
  if l.valid = false then b
  else
    let b := if l.dirty then
      countLine page 0 (memWrite b h s none (slicePart b h s) l.line l.data l.poison false page) else b
    let leaves := op = 3 ∨ (op = 2 ∧ scWayLocked (scLocked b h s) key = false)
    if leaves then countLine page 1 (updSlice b h s fun sl => { sl with sc := sl.sc.set {} key {} })
    else updSlice b h s fun sl => { sl with sc := sl.sc.upd {} key fun l => { l with dirty := false } }

/-- Locked empty way of a line's set (R289). -/
def scLockedEmpty (b : Block) (h : Hub) (s line : Nat) : Option Nat :=
  let sl := getSlice b h s
  (scWays (line * 64)).find? fun k =>
    scWayLocked (scLocked b h s) k && !(sl.sc.get {} k).valid && !(sl.sc.get {} k).reserved && !sl.dead.contains k

/-- A line of a preload becomes active (R289 step 6): count 1 a full set, count 2 a line held unique. -/
def preloadLookup (b : Block) (h : Hub) (s : Nat) (t : Tracker) : Block :=
  let sl := getSlice b h s
  let count (b : Block) (i : Nat) : Block := countLine t.page i b
  let e := (fEntry sl (t.line * 64)).getD {}
  let t := { t with looked := true, resp := e.resp, respKind := e.kind }
  let clean : List Snoop := [{ node := whoNode b e.resp, op := opSnpClean, fwd := false }]
  if e.resp ≠ 0x1F ∧ e.kind = 0 then
    startSnoops (updTr (count b 2) h s t.id fun _ => t) h s t.id clean
  else match scLockedEmpty b h s t.line with
  | none =>
    let b := updTr (count b 1) h s t.id fun _ => { t with placed := entDirty e == false }
    if entDirty e then startSnoops b h s t.id clean else b
  | some k =>
    let b := updSlice b h s fun sl => { sl with sc := sl.sc.upd {} k fun l => { l with reserved := true } }
    let t := { t with scWay := some k }
    let b := updTr b h s t.id fun _ => t
    if entDirty e then startSnoops b h s t.id clean
    else if (scFind sl t.line).isSome then b
    else memRead (updTr b h s t.id fun t => { t with reading := true }) h s t.id t.part t.line 2 12 false

/-- A tracker becomes active and looks its line up (R177, R197). -/
def activate (b : Block) (h : Hub) (s : Nat) (t : Tracker) : Block :=
  let b := updTr b h s t.id fun t => { t with active := true }
  let t := { t with active := true }
  match t.kind with
  | .maint =>
    let b := match scFind (getSlice b h s) t.line with
      | none => b
      | some k => maintLine b h s k t.op t.page
    updTr b h s t.id fun t => { t with looked := true, placed := true }
  | .preload => preloadLookup b h s t
  | .nextLine | .backInv | .scrub => b
  | .req | .io =>
    if t.wb = .refused then sendWbGrant (updTr b h s t.id fun t => { t with looked := true }) h s t
    else
      let lost := match fEntry (getSlice b h s) (t.line * 64) with
        | some e => (entMembers e).filter (gone b h)
        | none => []
      let b := forEach lost (fun w b => scrubEntry b h s t.part t.line w) b
      if (getSlice b h s).trackers.any fun x => x.kind == .backInv && x.line == t.line then
        bumpW h (hWorld t.hdr) (updTr b h s t.id fun t => { t with active := false, needWay := true }) (CNT_JCT h s 1)
      else if t.kind = .req ∧ hOp t.hdr = opWrBack then
        wbLookup (fUpd (countSc b h s t) h s (t.line * 64) fun e => { e with used := true }) h s t
      else
        let sl := getSlice b h s
        let e := fEntry sl (t.line * 64)
        let w := whoOf b (hSrc t.hdr)
        let conv := t.kind == .req && hOp t.hdr == opCleanUnique && !(e.any (entHas · w))
        let t := { t with converted := conv }
        let b := updTr b h s t.id fun _ => t
        let b := if conv then bumpW h (hWorld t.hdr) b (CNT_COH h s 4) else b
        let b := countSc b h s t
        let b := fUpd b h s (t.line * 64) fun e => { e with used := true }
        let b := if takesWrData t && !t.granted then sendWbGrant b h s t else b
        if e.isNone && allocates (trOp t) then
          match takeWay b h s t.line (hWorld t.hdr) with
          | some b => launch b h s t.id
          | none => updTr b h s t.id fun t => { t with needWay := true }
        else launch b h s t.id

/-! ## The end of a flow -/

/-- Data that a flow works on: dirty snoop data, the system cache's copy, or memory's; with whether it is dirty. -/
def baseData (b : Block) (h : Hub) (s : Nat) (t : Tracker) : Option (LineData × Poison × Bool) :=
  match t.dirty with
  | some (d, p) => some (d, p, true)
  | none => match scLine (getSlice b h s) t.line with
    | some l => some (l.data, l.poison, l.dirty)
    | none => t.memData.map fun x => (x.1, x.2, false)

/-- STATUS of a completing message (R211). -/
def trStatus (t : Tracker) : Nat := if t.synth then stsLost else stsOk

/-- Put the last message of a flow in its tracker, to go once its writes are accepted. -/
def setOut (b : Block) (h : Hub) (s : Nat) (t : Tracker) (m : Option Msg) : Block :=
  updTr b h s t.id fun t => { t with placed := true, out := m }

def compMsg (b : Block) (h : Hub) (t : Tracker) (state status : Nat) : Msg :=
  { hdr := mkComp (hWorld t.hdr) (hSrc t.hdr) (myNode b (agHome h)) (hTag t.hdr) state status 0 }

/-- CompData of a whole line, of the bytes of an IoRd, or of an atomic's operand (R137, R191). -/
def compData (b : Block) (h : Hub) (t : Tracker) (state : Nat) (d : LineData) (be : Word) (p : Poison) : Msg :=
  { hdr := mkDat opCompData (hWorld t.hdr) (hSrc t.hdr) (myNode b (agHome h)) (hTag t.hdr) state (trStatus t) 0 be
      (if be = beAll then p else p &&& beWords be)
    data := d &&& beMask be }

/-- The entry holds the requester alone, unique (R193). -/
def entUnique (b : Block) (h : Hub) (s : Nat) (t : Tracker) : Block :=
  let w := whoOf b (hSrc t.hdr)
  fUpd b h s (t.line * 64) fun e =>
    { entPut { e with present := 0, pkgs := 0, world := hWorld t.hdr } w true with resp := w, kind := 0 }

/-- The requester joins the entry; with `resp` it becomes RESP of that kind (R193). -/
def entJoin (b : Block) (h : Hub) (s : Nat) (t : Tracker) (resp : Option Nat) : Block :=
  let w := whoOf b (hSrc t.hdr)
  fUpd b h s (t.line * 64) fun e =>
    let e := { entPut e w true with world := hWorld t.hdr }
    match resp with
    | some k => { e with resp := w, kind := k }
    | none => e

/-- Remove the system cache's copy before a grant by DataFwd: a dirty copy is written to memory, and the Comp waits for its
acceptance (R159). -/
def scFlush (b : Block) (h : Hub) (s : Nat) (t : Tracker) : Block :=
  match scLine (getSlice b h s) t.line with
  | none => b
  | some l =>
    let b := scRemove b h s t.line
    if l.dirty then
      memWrite (updTr b h s t.id fun t => { t with writes := t.writes + 1 }) h s (some t.id) t.part t.line l.data l.poison
        (hWorld t.hdr)
    else b

/-- A read answered by DataFwd (R181, R193). -/
def finishFwd (b : Block) (h : Hub) (s : Nat) (t : Tracker) (st : Nat) : Block :=
  let b := if t.memData.isSome then bumpW h (hWorld t.hdr) b (CNT_COH h s 7) else b
  let b := if trOp t = opRdShared then
      if st = stO then
        scFlush (fUpd (entJoin b h s t none) h s (t.line * 64) fun e => { e with kind := 1 }) h s t
      else entJoin b h s t (some 2)
    else entUnique (scFlush b h s t) h s t
  setOut b h s t (some (compMsg b h t stI (trStatus t)))

/-- Holders that remain beside a guest that asks (R181). -/
def othersLeft (b : Block) (h : Hub) (s : Nat) (t : Tracker) : Bool :=
  let w := whoOf b (hSrc t.hdr)
  match fEntry (getSlice b h s) (t.line * 64) with
  | none => false
  | some e => (entMembers e).any fun x => !((w == 12 || w == 13) && x == w)

/-- A RdShared answered by CompData (R181, R491). -/
def finishShared (b : Block) (h : Hub) (s : Nat) (t : Tracker) (d : LineData) (p : Poison) (dirty : Bool) : Block :=
  let held := scFind (getSlice b h s) t.line
  let e := (fEntry (getSlice b h s) (t.line * 64)).getD {}
  let fresh (b : Block) : Block := match held with
    | some k => updSlice b h s fun sl => { sl with sc := sl.sc.upd {} k fun l => { l with age := 0 } }
    | none => b
  if t.snoops.isEmpty && e.resp != 0x1F && e.kind == 2 && held.isSome && whoOf b (hSrc t.hdr) != e.resp then
    setOut (entJoin (fresh b) h s t none) h s t (some (compData b h t stS d beAll p))
  else if othersLeft b h s t then
    let b := match t.dirty, held with
      | some _, _ => (scPlaceDirty b h s t.part t.line d p 1).2
      | none, some _ => fresh b
      | none, none => match scReserve b h s t.line with
        | (some k, b) => scPut b h s k t.line d p false 2
        | (none, b) => b
    setOut (entJoin b h s t (some 2)) h s t (some (compData b h t stF d beAll p))
  else
    setOut (entUnique (scRemove b h s t.line) h s t) h s t
      (some (compData b h t (if dirty then stM else stE) d beAll p))

/-- A RdOnce or IoRd (R181, R191): dirty snoop data goes to memory (R182), and O becomes F (R193). -/
def finishOnce (b : Block) (h : Hub) (s : Nat) (t : Tracker) (d : LineData) (p : Poison) : Block :=
  let b := match t.dirty with
    | some _ => memWrite b h s none t.part t.line d p (hWorld t.hdr)
    | none => match scFind (getSlice b h s) t.line with
      | some k => updSlice b h s fun sl => { sl with sc := sl.sc.upd {} k fun l => { l with age := 0 } }
      | none => b
  let be := if t.kind = .io then beOf (pioPa t.hdr % 64) (pioLen t.hdr + 1) else beAll
  setOut b h s t (some (compData b h t stI d be p))

/-- Place the result of a WrUnique, a far atomic or an IoWr (R183): dirty in the system cache at age 1, otherwise in
memory. The entry is freed (R193). -/
def placeResult (b : Block) (h : Hub) (s : Nat) (t : Tracker) (d : LineData) (p : Poison) : Block :=
  fUpd (scPlaceDirty b h s t.part t.line d p 1).2 h s (t.line * 64) fun e => { used := e.used }

/-- Leave the line as it was: dirty snoop data becomes the result (R189, R210). The entry is freed. -/
def keepLine (b : Block) (h : Hub) (s : Nat) (t : Tracker) : Block :=
  match t.dirty with
  | some (d, p) => placeResult b h s t d p
  | none => fUpd b h s (t.line * 64) fun e => { used := e.used }

/-- Operand size of a far atomic, where its WrData marks what R189 asks; none otherwise. -/
def atomSize (op off : Nat) (be : Word) : Option Nat :=
  [4, 8].find? fun n =>
    off % n == 0 &&
      (if op = opAtomCas then be == beOf off n ||| beOf (off ^^^ 32) n else be == beOf off n)

/-- New value of the target of a far atomic (R189). -/
def atomNew (hdr : Hdr) (n old arg cmp : Nat) : Nat :=
  let op := hOp hdr
  if op = opAtomAdd then (old + arg) % 2 ^ (8 * n)
  else if op = opAtomSwap then arg
  else if op = opAtomCas then (if old = cmp then arg else old)
  else
    let key (v : Nat) : Int := if hSigned hdr && decide (2 ^ (8 * n - 1) ≤ v) then (v : Int) - 2 ^ (8 * n) else v
    if hMin hdr then (if key arg < key old then arg else old) else (if key old < key arg then arg else old)

/-- A far atomic (R189, R190). -/
def finishAtomic (b : Block) (h : Hub) (s : Nat) (t : Tracker) (d : LineData) (p : Poison) (wr : LineData) (be : Word)
    (wp : Poison) : Block :=
  let off := hOff t.hdr
  match atomSize (hOp t.hdr) off be with
  | none =>
    let b := keepLine b h s t
    let b := match t.via with
      | some e => msgFault b e (CNT_MSG_BAD_OPCODE e) 3 t.hdr
      | none => b
    setOut b h s t (some (compMsg b h t stI stsError))
  | some n =>
    let old := lineBytes d off n
    let out (b : Block) (q : Poison) : Msg := compData b h t stI (lineOf off n old) (beOf off n) q
    let word (x : Nat) (q : Poison) : Bool := q.getLsbD (x / 8)
    if word off p || word off wp || (hOp t.hdr == opAtomCas && word (off ^^^ 32) wp) then
      let b := keepLine b h s t
      setOut b h s t (some (out b (BitVec.ofNat 8 (2 ^ (off / 8)))))
    else
      let new := atomNew t.hdr n old (lineBytes wr off n) (lineBytes wr (off ^^^ 32) n)
      let b := placeResult (bumpW h (hWorld t.hdr) b (CNT_COH h s 6)) h s t (mergeLine d (lineOf off n new) (beOf off n)) p
      setOut b h s t (some (out b 0))

/-- A CMO (R183, R186). -/
def finishCmo (b : Block) (h : Hub) (s : Nat) (t : Tracker) : Block :=
  let op := hOp t.hdr
  let sc := scLine (getSlice b h s) t.line
  let data : Option (LineData × Poison) := match t.dirty with
    | some x => some x
    | none => sc.bind fun l => if l.dirty then some (l.data, l.poison) else none
  let b := match data with
    | some (d, p) =>
      if op = opCmoInval ∧ t.dirty.isNone = true then b
      else memWrite (updTr b h s t.id fun t => { t with writes := 1 }) h s (some t.id) t.part t.line d p (hWorld t.hdr)
    | none => b
  let b := if op = opCmoClean then
      match scFind (getSlice b h s) t.line with
      | some k => updSlice b h s fun sl => { sl with sc := sl.sc.upd {} k fun l => { l with dirty := false } }
      | none => b
    else fUpd (scRemove b h s t.line) h s (t.line * 64) fun e => { used := e.used }
  setOut b h s t (some (compMsg b h t stI (trStatus t)))

/-- The flow of an active request has every answer it waits for: finish it by R181 or R183, from the entry as it now
stands (R208). -/
def finishReq (b : Block) (h : Hub) (s : Nat) (t : Tracker) : Block :=
  let op := trOp t
  if op = opCleanUnique then
    let dirty := (t.resp != 0x1F && t.respKind == 1) || ((scLine (getSlice b h s) t.line).any (·.dirty)) || t.dirty.isSome
    setOut (entUnique (scRemove b h s t.line) h s t) h s t
      (some (compMsg b h t (if dirty then stM else stE) (trStatus t)))
  else if op = opCmoClean ∨ op = opCmoInval ∨ op = opCmoCleanInval then finishCmo b h s t
  else if t.wrMissing then setOut (keepLine b h s t) h s t (some (compMsg b h t stI stsError))
  else match t.fwd with
  | some st => finishFwd b h s t st
  | none =>
    let b := if t.memData.isSome && (t.dirty.isSome || (op == opWrUnique && trFull t)) then bumpW h (hWorld t.hdr) b (CNT_COH h s 7) else b
    let (d, p, dirty) := (baseData b h s t).getD (0, 0, false)
    if op = opRdShared then finishShared b h s t d p dirty
    else if op = opRdUnique then
      setOut (entUnique (scRemove b h s t.line) h s t) h s t
        (some (compData b h t (if dirty then stM else stE) d beAll p))
    else if op = opRdOnce then finishOnce b h s t d p
    else match t.wr with
    | none => b
    | some (wd, be, wp) =>
      if isAtomic op then finishAtomic b h s t d p wd be wp
      else
        let b := placeResult b h s t (mergeLine d wd be) (mergePoison p be wp)
        setOut b h s t (if t.kind = .io then none else some (compMsg b h t stI (trStatus t)))

/-- End of a back-invalidation: dirty data goes to the system cache, otherwise to memory (R176). -/
def finishBackInv (b : Block) (h : Hub) (s : Nat) (t : Tracker) : Block :=
  let b := match t.dirty with
    | some (d, p) => (scPlaceDirty b h s t.part t.line d p 1).2
    | none => b
  delTr b h s t

/-- End of a line of a preload (R289): count 0 the lines placed. -/
def finishPreload (b : Block) (h : Hub) (s : Nat) (t : Tracker) : Block :=
  let count (b : Block) : Block := countLine t.page 0 b
  let save (b : Block) (d : LineData) (p : Poison) : Block :=
    memWrite (updTr b h s t.id fun t => { t with writes := 1 }) h s (some t.id) t.part t.line d p false
  let b := match t.scWay with
    | none => match t.dirty with
      | some (d, p) => save b d p
      | none => b
    | some k =>
      match t.dirty, scLine (getSlice b h s) t.line, t.memData with
      | some (d, p), _, _ => count (scPut (save b d p) h s k t.line d p false 0)
      | none, some l, _ =>
        let b := if l.dirty then save b l.data l.poison else b
        count (scPut (scRemove b h s t.line) h s k t.line l.data l.poison false 0)
      | none, none, some (d, p) => count (scPut b h s k t.line d p false 0)
      | none, none, none => scUnreserve b h s (some k)
  setOut b h s t none

/-- Send the last message of a flow and free its tracker; a completion of a RdShared, RdUnique or CleanUnique opens a
handover (R201). -/
def closeFlow (b : Block) (h : Hub) (s : Nat) (t : Tracker) : Block :=
  let w := whoOf b (hSrc t.hdr)
  let b := match t.out with
    | none => b
    | some m =>
      let m := if t.refused ∧ (hOp t.hdr = opCmoClean ∨ hOp t.hdr = opCmoCleanInval) then compMsg b h t stI stsError else m
      let b := if t.refused ∧ ¬(hOp t.hdr = opCmoClean ∨ hOp t.hdr = opCmoCleanInval) then
        writeLost b h s (t.line * 64) (hWorld t.hdr) else b
      let op := hOp t.hdr
      let b := if t.kind = .req ∧ (op = opRdShared ∨ op = opRdUnique ∨ op = opCleanUnique) ∧ w ≠ 0x1F ∧
          gone b h w = false then
        updSlice b h s fun sl => { sl with
          handovers := sl.handovers ++ [{ line := t.line, node := hSrc t.hdr, tag := hTag t.hdr }] }
        else b
      toRequester b h t m
  delTr b h s t

/-- Is every snoop of a tracker answered? -/
def allAnswered (t : Tracker) : Bool := !t.handover && t.snoops.all fun n => n.answered

/-- A next-line fetch, whose data has come (R282, R285). -/
def finishNext (b : Block) (h : Hub) (s : Nat) (t : Tracker) : Block :=
  let b := match t.scWay, t.memData with
    | some k, some (d, p) =>
      if p = 0 then scPut b h s k t.line d p false 3 true else bumpW h (hWorld t.hdr) (scUnreserve b h s (some k)) (CNT_SC h s 6)
    | k, _ => scUnreserve b h s k
  delTr b h s t

/-- The next thing that a tracker can do by itself; none where it waits. -/
def stepTracker (b : Block) (h : Hub) (s : Nat) (t : Tracker) : Option Block :=
  if t.active = false then
    let first := ((getSlice b h s).trackers.find? fun x => x.line == t.line).map (·.id)
    if t.needWay = false ∧ first = some t.id then some (activate b h s t) else none
  else if t.placed then (if t.writes = 0 then some (closeFlow b h s t) else none)
  else if t.looked = false ∨ t.needWay = true ∨ allAnswered t = false then none
  else match t.kind with
  | .backInv => some (finishBackInv b h s t)
  | .nextLine => if t.memData.isSome then some (finishNext b h s t) else none
  | .preload => if t.reading then none else some (finishPreload b h s t)
  | .maint | .scrub => none
  | .req | .io =>
    if t.kind = .req ∧ hOp t.hdr = opWrBack then (if t.wr.isSome || t.wrMissing then some (wbFinish b h s t) else none)
    else if takesWrData t && t.wr.isNone && !t.wrMissing then none
    else if needsBase t && t.fwd.isNone && !t.wrMissing && (baseData b h s t).isNone then
      (if t.reading then none else some (startRead b h s t))
    else some (finishReq b h s t)

/-- First tracker that can go on, with what it does. -/
def firstStep (b : Block) (h : Hub) (s : Nat) : List Tracker → Option Block
  | [] => none
  | t :: r => match stepTracker b h s t with
    | some b => some b
    | none => firstStep b h s r

/-- Let every tracker of a slice go as far as it can. -/
def settleN (h : Hub) (s : Nat) : Nat → Block → Block
  | 0, b => b
  | n + 1, b => match firstStep b h s (getSlice b h s).trackers with
    | none => b
    | some b => settleN h s n b

def settle (b : Block) (h : Hub) (s : Nat) : Block := settleN h s (8 * (getSlice b h s).trackers.length + 8) b

/-! ## Snoop answers (R175, R201, R210, R213) -/

/-- Update the entry by an answer whose final state is `st` (R175); dirty data and a forward show the holder it recorded. -/
def answerEntry (b : Block) (h : Hub) (s : Nat) (t : Tracker) (n : Snoop) (st : Nat) (showed : Bool) : Block :=
  let w := whoOf b n.node
  match fEntry (getSlice b h s) (t.line * 64) with
  | none => b
  | some e =>
    let stale := (n.op = opSnpShared ∨ n.op = opSnpClean) ∧ showed = false ∧
      ((st = stI ∧ entHas e w = true) ∨ (e.resp = w ∧ (st = stI ∨ st = stS)))
    let b := if stale then bumpW h (hWorld t.hdr) b (CNT_COH h s 2) else b
    fUpd b h s (t.line * 64) fun e =>
      let e := if st = stI then entPut e w false else e
      if e.resp = w ∧ (st = stI ∨ st = stS) then { e with resp := 0x1F } else e

/-- Mark a snoop answered. -/
def markAnswered (b : Block) (h : Hub) (s id node : Nat) : Block :=
  let mark := updFirst (fun n => n.node == node && !n.answered) fun n : Snoop => { n with answered := true }
  updTr b h s id fun t => { t with snoops := mark t.snoops }

/-- A SnpResp for a tracker (R175, R193). -/
def takeSnpResp (b : Block) (h : Hub) (s : Nat) (t : Tracker) (n : Snoop) (m : Hdr) : Block :=
  let fwd := rspFwd m && n.fwd
  let b := if rspFwd m then bumpW h (hWorld t.hdr) b (CNT_COH h s 3) else b
  let b := markAnswered b h s t.id n.node
  let b := answerEntry b h s t n (hState m) fwd
  let b := if n.op = opSnpClean ∧ hState m = stF then fUpd b h s (t.line * 64) fun e => { e with kind := 2 } else b
  if fwd then updTr b h s t.id fun t => { t with fwd := some (hState m) } else b

/-- Final state of a dirty holder that answers with data (R167). -/
def dirtyFinal (n : Snoop) (kind : Nat) : Nat :=
  if n.op = opSnpShared then stS else if n.op = opSnpClean then (if kind = 1 then stF else stE) else stI

/-- A SnpRespData for a tracker (R168, R182, R193). -/
def takeSnpData (b : Block) (h : Hub) (s : Nat) (t : Tracker) (n : Snoop) (d : LineData) (p : Poison) : Block :=
  let b := markAnswered b h s t.id n.node
  let st := dirtyFinal n t.respKind
  let b := answerEntry b h s t n st true
  let b := if st = stF then fUpd b h s (t.line * 64) fun e => { e with kind := 2 } else b
  updTr b h s t.id fun t => { t with dirty := some (d, p) }

/-- Does the entry of a tracker's line, or the victim entry of a back-invalidation, name a holder as RESP with unique or O? -/
def ownsLine (b : Block) (h : Hub) (s : Nat) (t : Tracker) (w : Nat) : Bool :=
  match fEntry (getSlice b h s) (t.line * 64) with
  | some e => e.resp == w && decide (e.kind < 2)
  | none => t.kind == .backInv && t.resp == w && decide (t.respKind < 2)

/-- Synthesise the missing answer of a node (R210). -/
def synthSnoop (b : Block) (h : Hub) (s : Nat) (t : Tracker) (n : Snoop) : Block :=
  let w := whoOf b n.node
  let b := bumpErrW h (hWorld t.hdr) b (CNT_JCT h s 4) (agHome h) s 3 sevDefer (t.line * 64)
  let b := updTr (markAnswered b h s t.id n.node) h s t.id fun t => { t with synth := true }
  let owned := ownsLine b h s t w
  let b := fUpd b h s (t.line * 64) fun e => entDrop e w
  if owned then
    let (d, b) := freeLine b
    bumpW h (hWorld t.hdr) (updTr b h s t.id fun t => { t with dirty := some (d, 0xFF) }) (CNT_JCT h s 5)
  else b

/-- Synthesise a missing WrData (R210). -/
def synthWrData (b : Block) (h : Hub) (s : Nat) (t : Tracker) : Block :=
  updTr (bumpErrW h (hWorld t.hdr) b (CNT_JCT h s 4) (agHome h) s 3 sevDefer (t.line * 64)) h s t.id fun t => { t with wrMissing := true }

/-- Does a tracker await the WrData of its requester? -/
def awaitsWr (t : Tracker) : Bool :=
  t.kind == .req && t.granted && t.wr.isNone && !t.wrMissing && !t.placed

end Sys2Proof.Machine
end

