-- ==== Sys2Proof/Machine/HomeFlows.lean ====
section
/-! DEFINITION. The commands of the home slices: requests, snoop answers, write data, memory answers, waits and timeouts
(chapters 5, 6 and 9). -/

namespace Sys2Proof.Machine

/-! ## Requests arriving (R192, R197, R316, R317, R472) -/

/-- The home refuses a request as its destination: the answers of R192 and R317, with an IoWr counted by the home itself
(R259). -/
def homeRefuse (b : Block) (h : Hub) (m : Hdr) : Block :=
  match refusal b 0 m with
  | none => refusalCount b 0 m
  | some c => hubPut (refusalCount b 0 m) h { hdr := c }

/-- Is a request refused by a world region or a lent range? -/
def homeDenies (b : Block) (h : Hub) (part pa : Nat) (m : Hdr) : Bool :=
  (!hWorld m && inRegion b h part pa) || inLent b part pa (hSrc m)

/-- Does WbGrant go at once, before the request is active (R184, R464)? -/
def grantsEarly (t : Tracker) : Bool :=
  takesWrData t && !(hOp t.hdr == opWrUnique && nodeAgent (hSrc t.hdr) / 2 == 9)

/-- A request takes a tracker and joins its line's queue (R197, R198). -/
def queueReq (b : Block) (h : Hub) (s : Nat) (t : Tracker) : Block :=
  let same := (getSlice b h s).trackers.filter fun x => x.line == t.line
  let back := same.any fun x => x.kind == .backInv
  let b := if same.isEmpty then b else bumpW h (hWorld t.hdr) b (CNT_JCT h s (if back then 1 else 0))
  let first := same.all fun x => x.kind == .backInv
  let (id, b) := addTr b h s false fun n => { t with id := n, needWay := back && first }
  let b := match getTr b h s id with
    | some t => if grantsEarly t && t.wb != .refused then sendWbGrant b h s t else b
    | none => b
  settle b h s

/-- A request arrives at its slice. -/
def arriveReq (b : Block) (h : Hub) (s : Nat) (m : Msg) (kind : TKind) : Block :=
  let pa := if kind = .io then pioPa m.hdr else hLine m.hdr * 64
  let part := msgPart b h m.hdr pa
  let wr : Option (LineData × Word × Poison) :=
    if kind = .io ∧ hOp m.hdr = opIoWr then
      some (m.data, beOf (pioPa m.hdr % 64) (pioLen m.hdr + 1), pioPoison m.hdr) else none
  let t : Tracker := { id := 0, kind := kind, line := pa / 64, hdr := m.hdr, part := part, via := m.via, wr := wr }
  if homeDenies b h part pa m.hdr then
    let b := countDenied b h (agHome h) s pa m.hdr
    if kind = .req ∧ hOp m.hdr = opWrBack then queueReq b h s { t with wb := .refused } else homeRefuse b h m.hdr
  else queueReq b h s t

/-- Serve the oldest message of a channel at a slice where it has the opcode; one that no group of the hub holds is refused
(R192). A slice without a free tracker takes nothing (R128), nor do slices that have accepted in a power attempt (R405). -/
def serveReq (b : Block) (h : Hub) (s vc op : Nat) (kind : TKind) : Block :=
  if maxTrackers ≤ (getSlice b h s).trackers.length ∨ hasAccepted b (512 + h.idx) = true then b
  else if boxHeadIs b (boxSlice h s) vc op then
    match popBox b (boxSlice h s) vc with
    | some (m, b) => arriveReq b h s m kind
    | none => b
  else if boxHeadIs b (boxHome h) vc op then
    match popBox b (boxHome h) vc with
    | some (m, b) =>
      homeRefuse (reportPio b h m.hdr) h m.hdr
    | none => b
  else b

/-! ## Answers arriving -/

/-- The tracker, and its snoop, that an answer of `node` under (`req`, `tag`) belongs to; with no `req` the oldest of the
tag (R168; log entry 31). Snoops still unanswered come first. -/
def findSnoop (sl : Slice) (node tag : Nat) (req : Option Nat) : Option (Tracker × Snoop) :=
  let ok (t : Tracker) : Bool := hTag t.hdr == tag && (match req with
    | some r => hSrc t.hdr == r
    | none => true)
  let all := (sl.trackers.filter ok).flatMap fun t => (t.snoops.filter fun n => n.node == node && n.sent).map fun n => (t, n)
  match all.find? fun x => !x.2.answered with
  | some x => some x
  | none => all.head?

/-- A second answer to a snoop is dropped (R213). -/
def dupAnswer (b : Block) (h : Hub) (s : Nat) (m : Hdr) : Block :=
  let b := bumpErrW h (hWorld m) b (CNT_JCT h s 7) (agHome h) s 3 sevDefer (m.toNat % 2 ^ 64)
  let a := nodeAgent (hSrc m)
  if nodePkg (hSrc m) = pkgNo b ∧ (a = 12 ∨ a = 13) then violate b (hubOf (a % 2)) else b

/-- The front message of a slice's RSP input: a SnpResp, or one that no home waits for (row 7 of R150). -/
def homeRsp (b : Block) (h : Hub) (s : Nat) : Block :=
  match popBox b (boxSlice h s) vcRsp with
  | none => b
  | some (m, b) =>
    if hOp m.hdr ≠ opSnpResp then unknownTag b m
    else match findSnoop (getSlice b h s) (hSrc m.hdr) (hTag m.hdr) (some (rspReqNode m.hdr)) with
    | none => unknownTag b m
    | some (t, n) => if n.answered then dupAnswer b h s m.hdr else settle (takeSnpResp b h s t n m.hdr) h s

/-- The front message of a slice's DAT input, where it is a SnpRespData. -/
def homeSnpData (b : Block) (h : Hub) (s : Nat) : Block :=
  match popBox b (boxSlice h s) vcDat with
  | none => b
  | some (m, b') =>
    if hOp m.hdr = opWrData then b
    else if hOp m.hdr ≠ opSnpRespData then unknownTag b' m
    else match findSnoop (getSlice b' h s) (hSrc m.hdr) (hTag m.hdr) none with
    | none => unknownTag b' m
    | some (t, n) =>
      if n.answered then dupAnswer b' h s m.hdr
      else settle (takeSnpData b' h s t n m.data (datPoison m.hdr)) h s

/-- The front message of a slice's DAT input, where it is a WrData (R184, R187). -/
def homeWrData (b : Block) (h : Hub) (s : Nat) : Block :=
  match popBox b (boxSlice h s) vcDat with
  | none => b
  | some (m, b') =>
    if hOp m.hdr = opSnpRespData then b
    else if hOp m.hdr ≠ opWrData then unknownTag b' m
    else match (getSlice b' h s).trackers.find? fun t =>
        hSrc t.hdr == hSrc m.hdr && hTag t.hdr == hTag m.hdr && awaitsWr t with
    | none => unknownTag b' m
    | some t =>
      settle (updTr b' h s t.id fun t => { t with wr := some (m.data, datBe m.hdr, datPoison m.hdr) }) h s

/-- Memory data reaches a slice; data that no tracker waits for is discarded (R179). -/
def homeMem (b : Block) (h : Hub) (s : Nat) : Block :=
  match (getSlice b h s).memBack with
  | [] => b
  | (id, x) :: r =>
    let b := updSlice b h s fun sl => { sl with memBack := r }
    match getTr b h s id with
    | none => bumpW h false b (CNT_COH h s 7)
    | some _ =>
      settle (updTr b h s id fun t => { t with reading := false, memData := some (x.getD (0, 0xFF)) }) h s

/-- A next-line fetch reaches its slice (R282, R285). -/
def homeNext (b : Block) (h : Hub) (s : Nat) : Block :=
  match (getSlice b h s).nextIn with
  | [] => b
  | (line, part, world) :: r =>
    let b := updSlice b h s fun sl => { sl with nextIn := r }
    let sl := getSlice b h s
    let free := maxTrackers - sl.trackers.length
    let drop := decide (free < fget b (HUB_SC_CTRL h) HUB_SC_CTRL_NL_MIN_FREE * 16) || free == 0 ||
      (fEntry sl (line * 64)).isSome || sl.trackers.any (fun t => t.line == line) || (scFind sl line).isSome ||
      (!world && inRegion b h part (line * 64)) || inLent b part (line * 64) 0x100
    if drop then bumpW h world b (CNT_SC h s 6)
    else match scReserve b h s line with
    | (none, b) => bumpW h world b (CNT_SC h s 6)
    | (some k, b) =>
      let (id, b) := addTr b h s false fun n =>
        { id := n, kind := .nextLine, line := line, active := true, looked := true, reading := true, part := part
          hdr := mkHdr vcReq 0 world 0 0 0 0, scWay := some k }
      memRead (bumpW h world b (CNT_SC h s 5)) h s id part line 2 12 world

/-- Can the wait of a tracker for a back-invalidation of its line end now (R198)? -/
def waitOver (sl : Slice) (t : Tracker) : Bool :=
  t.needWay && (t.active || !sl.trackers.any fun x => x.kind == .backInv && x.line == t.line)

/-- WAY_AVAILABLE: the oldest request whose wait can end goes on (R176, R198). -/
def homeWay (b : Block) (h : Hub) (s : Nat) : Block :=
  match (getSlice b h s).trackers.find? (waitOver (getSlice b h s)) with
  | none => b
  | some t =>
    if t.active then
      match takeWay b h s t.line (hWorld t.hdr) with
      | some b => settle (launch b h s t.id) h s
      | none => b
    else settle (updTr b h s t.id fun t => { t with needWay := false }) h s

/-- Release the flows of a slice whose handovers have all ended (R201). -/
def releaseHandovers (b : Block) (h : Hub) (s : Nat) : Block :=
  let sl := getSlice b h s
  forEach (sl.trackers.filter fun t => t.handover &&
      !t.snoops.any fun n => sl.handovers.any fun w => w.line == t.line && w.node == n.node)
    (fun t b => sendSnoops b h s t) b

/-- A delivery report ends a handover (R200, R201). -/
def homeReport (b : Block) (h : Hub) (s : Nat) : Block :=
  let hit (r : Nat × Nat) : Bool := (getSlice b h s).handovers.any fun w => w.node == r.1 && w.tag == r.2
  match takeFirst hit (b.reports.get [] h.idx) with
  | none => b
  | some (r, rest) =>
    let b := { b with reports := b.reports.set [] h.idx rest }
    let b := updSlice b h s fun sl => { sl with handovers :=
      ((takeFirst (fun w : Handover => w.node == r.1 && w.tag == r.2) sl.handovers).map (·.2)).getD sl.handovers }
    releaseHandovers b h s

/-- A channel has accepted or refused a write (R186, R341, R357). -/
def homeAccept (b : Block) (h : Hub) (s : Nat) : Block :=
  match (getSlice b h s).accepted with
  | [] => b
  | (id, ok) :: r =>
    let b := updSlice b h s fun sl => { sl with accepted := r }
    settle (updTr b h s id fun t => { t with writes := t.writes - 1, refused := t.refused || !ok }) h s

/-! ## Answers that do not come (R209, R494) -/

/-- The answer timer of a tracker expires for a node. -/
def homeTimeout (b : Block) (h : Hub) (s id node : Nat) : Block :=
  match getTr b h s id with
  | none => b
  | some t =>
    let sn := t.snoops.find? fun n => n.node == node && n.sent && !n.answered
    let wr := awaitsWr t && hSrc t.hdr == node
    if sn.isNone && !wr then b
    else if nodePkg node ≠ pkgNo b then declarePkgLost b (nodePkg node)
    else
      let a := nodeAgent node
      if a < 12 then declareLost b a 2
      else
        let b := match sn with
          | some n => synthSnoop b h s t n
          | none => synthWrData b h s t
        let b := if a < 14 then
            let g := hubOf (a % 2)
            let o := if sn.isSome then Orphan.snoop s (hSrc t.hdr) (hTag t.hdr) false else .wr s (hTag t.hdr)
            addOrphan (violate (bumpErrW h (hWorld t.hdr) b (CNT_JCT h s 6) (agHome h) s 3 sevDefer (t.line * 64)) g) g o
          else b
        settle b h s

/-! ## Commands -/

/-- What the protection of a slice finds when it reads the set of the RdShared that it is about to serve (R293). -/
def readCheck (b : Block) (h : Hub) (s : Nat) (err : ArrayErr) : Block :=
  if maxTrackers ≤ (getSlice b h s).trackers.length ∨ hasAccepted b (512 + h.idx) = true then b
  else match getBox b (boxSlice h s) vcReq with
  | m :: _ => if hOp m.hdr = opRdShared then scCheck b h s (hLine m.hdr) (hWorld m.hdr) err else b
  | [] => b

def execRdShared (hub : Hub) (slice : Fin 32) (err : ArrayErr) (s : State) : Host.Outcome State Fault Refusal :=
  nextBlk s (serveReq (readCheck s.blk hub slice.val err) hub slice.val vcReq opRdShared .req)
def execRdUnique (hub : Hub) (slice : Fin 32) (s : State) : Host.Outcome State Fault Refusal :=
  nextBlk s (serveReq s.blk hub slice.val vcReq opRdUnique .req)
def execRdOnce (hub : Hub) (slice : Fin 32) (s : State) : Host.Outcome State Fault Refusal :=
  nextBlk s (serveReq s.blk hub slice.val vcReq opRdOnce .req)
def execCleanUnique (hub : Hub) (slice : Fin 32) (s : State) : Host.Outcome State Fault Refusal :=
  nextBlk s (serveReq s.blk hub slice.val vcReq opCleanUnique .req)
def execWrUnique (hub : Hub) (slice : Fin 32) (s : State) : Host.Outcome State Fault Refusal :=
  nextBlk s (serveReq s.blk hub slice.val vcReq opWrUnique .req)
def execWrBack (hub : Hub) (slice : Fin 32) (s : State) : Host.Outcome State Fault Refusal :=
  nextBlk s (serveReq s.blk hub slice.val vcReq opWrBack .req)
def execCmoClean (hub : Hub) (slice : Fin 32) (s : State) : Host.Outcome State Fault Refusal :=
  nextBlk s (serveReq s.blk hub slice.val vcReq opCmoClean .req)
def execCmoInval (hub : Hub) (slice : Fin 32) (s : State) : Host.Outcome State Fault Refusal :=
  nextBlk s (serveReq s.blk hub slice.val vcReq opCmoInval .req)
def execCmoCleanInval (hub : Hub) (slice : Fin 32) (s : State) : Host.Outcome State Fault Refusal :=
  nextBlk s (serveReq s.blk hub slice.val vcReq opCmoCleanInval .req)
def execAtomAdd (hub : Hub) (slice : Fin 32) (s : State) : Host.Outcome State Fault Refusal :=
  nextBlk s (serveReq s.blk hub slice.val vcReq opAtomAdd .req)
def execAtomSwap (hub : Hub) (slice : Fin 32) (s : State) : Host.Outcome State Fault Refusal :=
  nextBlk s (serveReq s.blk hub slice.val vcReq opAtomSwap .req)
def execAtomCas (hub : Hub) (slice : Fin 32) (s : State) : Host.Outcome State Fault Refusal :=
  nextBlk s (serveReq s.blk hub slice.val vcReq opAtomCas .req)
def execAtomMinMax (hub : Hub) (slice : Fin 32) (s : State) : Host.Outcome State Fault Refusal :=
  nextBlk s (serveReq s.blk hub slice.val vcReq opAtomMinMax .req)
def execWayAvailable (hub : Hub) (slice : Fin 32) (s : State) : Host.Outcome State Fault Refusal :=
  nextBlk s (homeWay s.blk hub slice.val)
def execDeliveryReport (hub : Hub) (slice : Fin 32) (s : State) : Host.Outcome State Fault Refusal :=
  nextBlk s (homeReport s.blk hub slice.val)
def execSnpResp (hub : Hub) (slice : Fin 32) (s : State) : Host.Outcome State Fault Refusal :=
  nextBlk s (homeRsp s.blk hub slice.val)
def execSnpRespData (hub : Hub) (slice : Fin 32) (s : State) : Host.Outcome State Fault Refusal :=
  nextBlk s (homeSnpData s.blk hub slice.val)
def execWrData (hub : Hub) (slice : Fin 32) (s : State) : Host.Outcome State Fault Refusal :=
  nextBlk s (homeWrData s.blk hub slice.val)
def execMemoryReadDone (hub : Hub) (slice : Fin 32) (s : State) : Host.Outcome State Fault Refusal :=
  nextBlk s (homeMem s.blk hub slice.val)
def execNextLineFetch (hub : Hub) (slice : Fin 32) (s : State) : Host.Outcome State Fault Refusal :=
  nextBlk s (homeNext s.blk hub slice.val)
def execMcWriteAccept (hub : Hub) (slice : Fin 32) (s : State) : Host.Outcome State Fault Refusal :=
  nextBlk s (homeAccept s.blk hub slice.val)

/-- ANSWER_TIMEOUT (R209, R210, R494). -/
def execAnswerTimeout (hub : Hub) (slice : Fin 32) (tracker : Nat) (node : BitVec 8) (s : State) :
    Host.Outcome State Fault Refusal :=
  nextBlk s (homeTimeout s.blk hub slice.val tracker node.toNat)

end Sys2Proof.Machine
end

