-- ==== Sys2Proof/Machine/Proxy.lean ====
section
/-! DEFINITION. The highway proxies (R490 to R493): the I/O agents stand for the dies and guests of their package before the
homes of neighbour packages. -/

namespace Sys2Proof.Machine

/-! ## Requests -/

/-- A header slot with another DST, SRC or TAG. -/
def withDst (m : Hdr) (n : Nat) : Hdr := BitVec.ofNat 128 (putBits m.toNat 16 9 n)
def withSrc (m : Hdr) (n : Nat) : Hdr := BitVec.ofNat 128 (putBits m.toNat 24 17 n)
def withTag (m : Hdr) (t : Nat) : Hdr := BitVec.ofNat 128 (putBits m.toNat 36 25 t)

/-- Requests whose completing message is handed over (R201). -/
def handsOver (op : Nat) : Bool := op == opRdShared || op == opRdUnique || op == opCleanUnique

/-- Send a waiting request of the proxy under a tag of its own (R490). -/
def proxySend (h : Hub) (b : Block) (p : ProxyReq) : Block :=
  match chooseTag b 2048 4095 ((getIo b h).reqs.map (·.tag)) with
  | (none, b) => b
  | (some tag, b) =>
    let me := myNode b (agIo h)
    let hdr := withTag (withSrc p.hdr me) tag
    let r : Req := { tag := tag, line := hLine p.hdr, hdr := hdr, purpose := .io }
    let note := updFirst (fun x : ProxyReq => x.tag.isNone && x.hdr == p.hdr) fun x => { x with tag := some tag }
    hubSend (updIo b h fun i => { i with proxy := note i.proxy, reqs := i.reqs ++ [r] }) h { hdr := hdr }

/-- Try the waiting requests in arrival order: one per line at a time (R160, R490). -/
def proxyTry (h : Hub) : List ProxyReq → List Nat → Block → Block
  | [], _, b => b
  | p :: rest, lines, b =>
    let line := hLine p.hdr
    if lines.contains line || lineBusy (getIo b h).reqs line then proxyTry h rest (line :: lines) b
    else proxyTry h rest (line :: lines) (proxySend h b p)

def proxyIssue (b : Block) (h : Hub) : Block := proxyTry h ((getIo b h).proxy.filter (·.tag.isNone)) [] b

/-- The proxy takes a request; one that is not for a neighbour's home is refused (R192). -/
def proxyTake (b : Block) (h : Hub) (m : Msg) : Block :=
  if forProxy b m.hdr = false then hubRefuse b h m.hdr
  else proxyIssue (updIo b h fun i => { i with proxy := i.proxy ++ [{ hdr := m.hdr }], proxyIn := i.proxyIn + 1 }) h

/-- WrData of a requester goes on under the proxy's tag. -/
def proxyData (b : Block) (h : Hub) (m : Msg) : Block :=
  match (getIo b h).proxy.find? fun p => hSrc p.hdr == hSrc m.hdr && hTag p.hdr == hTag m.hdr && p.tag.isSome with
  | none => unknownTag b m
  | some p => hubPut b h { hdr := withTag (withSrc m.hdr (myNode b (agIo h))) (p.tag.getD 0), data := m.data }

/-- PROXY_REQUEST: write data first, then the oldest request (R490). -/
def proxyRequest (b : Block) (h : Hub) : Block :=
  match popBox b (boxIo h) vcDat with
  | some (m, b') =>
    if forProxy b m.hdr then proxyData b' h m
    else match popBox b (boxIo h) vcReq with
      | some (m, b) => proxyTake b h m
      | none => b
  | none =>
    match popBox b (boxIo h) vcReq with
    | some (m, b) => proxyTake b h m
    | none => b

def execProxyRequest (hub : Hub) (s : State) : Host.Outcome State Fault Refusal := nextBlk s (proxyRequest s.blk hub)

/-- An answer of a home to one of the proxy's tags goes to the requester under its own tag; all but WbGrant complete the
request. The completing message of a cached line is noted until it is delivered (R493). -/
def proxyAnswer (b : Block) (h : Hub) (m : Msg) : Block :=
  match (getIo b h).proxy.find? fun p => p.tag == some (hTag m.hdr) with
  | none => unknownTag b m
  | some p =>
    let n := hSrc p.hdr
    let b :=
      if hVc m.hdr = vcRsp ∧ hOp m.hdr = opWbGrant then b
      else
        let out : List Handover := if handsOver (hOp p.hdr) then [{ line := hLine p.hdr, node := n, tag := hTag p.hdr }] else []
        updIo b h fun i => { i with
          proxy := i.proxy.filter (fun x => x.tag != p.tag)
          reqs := i.reqs.filter (fun r => some r.tag != p.tag)
          proxyDone := i.proxyDone + 1
          proxyOut := i.proxyOut ++ out }
    proxyIssue (hubPut b h { hdr := withTag (withDst m.hdr n) (hTag p.hdr), data := m.data }) h

/-! ## Snoops (R492, R493) -/

/-- The caching agents of the joined partition on this package: its dies that run, and its C-class guests. -/
def proxyTargets (b : Block) : List Nat :=
  match joinedPart b with
  | none => []
  | some p =>
    let dies := (List.range 12).filter fun k => diePart b k == some p && !agentLost b (dieHub k) k && endMilepost b (dieHub k) (k % 6)
    let guests := [Hub.n, Hub.s].filter fun h =>
      sitePart b h == some p && fon b (SPUR_BRINGUP h) SPUR_BRINGUP_CLASS && endMilepost b h 6 && !agentLost b h (agGuest h)
    dies ++ guests.map agGuest

/-- The proxy's own request that a snoop's SRC and TAG name: the requester's header. -/
def namedReq (b : Block) (m : Hdr) : Option Hdr :=
  let a := nodeAgent (hSrc m)
  if nodePkg (hSrc m) = pkgNo b ∧ (a = 18 ∨ a = 19) then
    ((getIo b (hubOf (a % 2))).proxy.find? fun p => p.tag == some (hTag m)).map (·.hdr)
  else none

/-- SRC and TAG of the copy for an agent (R492). -/
def copyName (b : Block) (m : Hdr) (node : Nat) : Nat × Nat :=
  match namedReq b m with
  | some r => if hSrc r = node then (node, hTag r) else (hSrc m, hTag m)
  | none => (hSrc m, hTag m)

/-- The proxy's combined answer to a snoop (R171, R492). -/
def proxyReply (b : Block) (h : Hub) (x : ProxySnp) : Block :=
  hubPut b h (let w := hWorld x.hdr
    match x.parts.findSome? (·.data) with
    | some (d, p) =>
      { hdr := mkDat opSnpRespData w (snpHome x.hdr) (myNode b (agIo h)) (hTag x.hdr) 0 stsOk (snpSlice x.hdr) beAll p, data := d }
    | none =>
      { hdr := mkSnpResp w (snpHome x.hdr) (myNode b (agIo h)) (hTag x.hdr) (hSrc x.hdr) (snpSlice x.hdr) (combinedState x.parts)
          (x.parts.any (·.fwd)) })

/-- Answer the snoops whose copies have all been answered. -/
def proxyReplies (b : Block) (h : Hub) : Block :=
  let done := (getIo b h).proxySnoops.filter fun x => x.left.isEmpty
  let b := updIo b h fun i => { i with proxySnoops := i.proxySnoops.filter fun x => !x.left.isEmpty }
  forEach done (fun x b => proxyReply b h x) b

/-- A snoop at the front: its copies go out, once every message forwarded to their agents for the line is delivered. -/
def proxySpread (b b' : Block) (h : Hub) (m : Msg) : Block :=
  let targets := (proxyTargets b).map (myNode b)
  let line := hLine m.hdr
  if (getIo b h).proxyOut.any fun w => w.line == line && targets.contains w.node then b
  else
    let b := updIo b' h fun i => { i with proxySnoops := i.proxySnoops ++ [{ hdr := m.hdr, left := targets }] }
    let me := myNode b (agIo h)
    let one (n : Nat) (b : Block) : Block :=
      let nm := copyName b m.hdr n
      hubPut b h { hdr := mkSnp (hOp m.hdr) (hWorld m.hdr) n nm.1 nm.2 line me 0 (snpFwd m.hdr) }
    proxyReplies (forEach targets one b) h

/-- An answer of an agent to its copy. -/
def proxyPart (b : Block) (h : Hub) (m : Msg) : Block :=
  let data := hVc m.hdr == vcDat
  let n := hSrc m.hdr
  let mine (x : ProxySnp) : Bool :=
    x.left.contains n && (copyName b x.hdr n).2 == hTag m.hdr && (data || (copyName b x.hdr n).1 == rspReqNode m.hdr)
  if (getIo b h).proxySnoops.any mine then
    let part : Part := { hart := nodeAgent n, st := if data then stI else hState m.hdr, fwd := !data && rspFwd m.hdr
                         data := if data then some (m.data, datPoison m.hdr) else none, back := true }
    let note := updFirst mine fun x => { x with left := x.left.filter (· != n), parts := x.parts ++ [part] }
    proxyReplies (updIo b h fun i => { i with proxySnoops := note i.proxySnoops }) h
  else unknownTag b m

/-- PROXY_SNOOP: an answer that has come, or the next snoop. -/
def proxySnoop (b : Block) (h : Hub) : Block :=
  let snoop (b : Block) : Block := match popBox b (boxIo h) vcSnp with
    | some (m, b') => proxySpread b b' h m
    | none => b
  if boxHeadIs b (boxIo h) vcRsp opSnpResp then
    match popBox b (boxIo h) vcRsp with
    | some (m, b) => proxyPart b h m
    | none => b
  else if boxHeadIs b (boxIo h) vcDat opSnpRespData then
    match popBox b (boxIo h) vcDat with
    | some (m, b) => proxyPart b h m
    | none => b
  else snoop b

def execProxySnoop (hub : Hub) (s : State) : Host.Outcome State Fault Refusal := nextBlk s (proxySnoop s.blk hub)

/-! ## Losses (R220, R495) -/

/-- A lost agent of this package answers no copy any more: its answers are taken as I (R209, R220). -/
def proxyWithout (a : Nat) (h : Hub) (b : Block) : Block :=
  let n := myNode b a
  proxyReplies (updIo b h fun i => { i with
    proxySnoops := i.proxySnoops.map (fun x => { x with left := x.left.filter (· != n) })
    proxyOut := i.proxyOut.filter fun w => w.node != n }) h

/-- The proxy of a hub answers its open transactions with a lost package and forgets that package's snoops (R495). -/
def clearProxy (h : Hub) (k : Nat) (b : Block) : Block :=
  let mine (p : ProxyReq) : Bool := nodePkg (hDst p.hdr) == k
  let ps := (getIo b h).proxy.filter mine
  let b := updIo b h fun i => { i with
    proxy := i.proxy.filter (fun p => !mine p)
    reqs := i.reqs.filter (fun r => !ps.any fun p => p.tag == some r.tag)
    proxyDone := i.proxyDone + ps.length
    proxySnoops := i.proxySnoops.filter fun x => nodePkg (snpHome x.hdr) != k }
  forEach ps (fun p b => hubRefuse b h p.hdr) b

end Sys2Proof.Machine
end

