-- ==== Sys2Proof/Machine/Relay.lean ====
section
/-! DEFINITION. Broadcast invalidation: the relays of the hubs (R309, R311, R496), the copies at the dies (R310), and the MGT
messages that reach a Tollhouse (R141). -/

namespace Sys2Proof.Machine

/-! ## Relays -/

/-- Compute dies of a hub that belong to a partition. -/
def partDies (b : Block) (h : Hub) (p : Nat) : List Nat :=
  ((List.range 6).map (h.idx * 6 + ·)).filter fun k => diePart b k == some p

/-- Partition of the issuer of a BcastInval: of its die; for a copy of the other hub's relay that of the relay's operation;
for one of another package the joined partition (R309, R489; log entry 40). -/
def binvPart (b : Block) (h : Hub) (m : Hdr) : Nat :=
  if nodePkg (hSrc m) ≠ pkgNo b then (joinedPart b).getD 0
  else if nodeAgent (hSrc m) < 12 then (diePart b (nodeAgent (hSrc m))).getD 0
  else
    let mine (o : RelayOp) : Bool := o.left.contains (myNode b (agTh h), hTag m)
    (((getTh b h.other).relay.find? mine).map (·.part)).getD 0

/-- Members other than this package whose joined partition has quarters on a hub (R496). -/
def remoteRelays (b : Block) (x : Hub) : List Nat :=
  let members := (List.range 8).filter fun k =>
    k != pkgNo b && bitOf (fget b (HWY_FABRIC_STATUS .n) HWY_FABRIC_STATUS_MEMBERS) k &&
      (b.pkg.joinNow.getD k 0xFF != 0xFF) && bitsOf (b.pkg.memberQuarters.get 0 k) (2 * x.idx + 1) (2 * x.idx) != 0
  members.map fun k => nodeId k (agTh x)

/-- Nodes that a relay copies a BcastInval to (R309, R496). -/
def relayTargets (b : Block) (h : Hub) (m : Hdr) (p : Nat) : List Nat :=
  let dies := (partDies b h p).map (myNode b)
  let first := nodePkg (hSrc m) == pkgNo b && decide (nodeAgent (hSrc m) < 12)
  let other := if first && !(partDies b h.other p).isEmpty then [myNode b (agTh h.other)] else []
  let remote := if first && bitOf (mgtArg m) 81 && joinedPart b == some p then
    remoteRelays b .n ++ remoteRelays b .s else []
  dies ++ other ++ remote

/-- How many compute dies of the scope lie behind a target. -/
def diesBehind (b : Block) (p node : Nat) : Nat :=
  let a := nodeAgent node
  if a < 12 then 1
  else if nodePkg node = pkgNo b then (partDies b (hubOf (a % 2)) p).length
  else 3 * popcount 2 (bitsOf (b.pkg.memberQuarters.get 0 (nodePkg node)) (2 * (a % 2) + 1) (2 * (a % 2)))

/-- Answer the sender of an operation. -/
def relayAnswer (h : Hub) (m : Hdr) (status : Nat) (b : Block) : Block :=
  hubPut b h { hdr := mkComp (hWorld m) (hSrc m) (myNode b (agTh h)) (hTag m) stI status 0 }

/-- Count the dies behind a target as unable to acknowledge (R311): a record and a Comp STATUS LOST for each. -/
def relayCount (h : Hub) (m : Hdr) (p node : Nat) (b : Block) : Block :=
  let r := HUB_JCT_LOST h
  let one (_ : Nat) (b : Block) : Block :=
    relayAnswer h m stsLost (raise b (agTh h) 2 6 4 sevDefer (4 * b2n (hWorld m)) (place r 43 8) (rd b r))
  forEach (List.range (diesBehind b p node)) one b

/-- End an operation to which everyone has answered (R311). -/
def relayFinish (b : Block) (h : Hub) : Block :=
  match takeFirst (fun o : RelayOp => o.left.isEmpty) (getTh b h).relay with
  | none => b
  | some (o, rest) => relayAnswer h o.hdr stsOk (updTh b h fun t => { t with relay := rest })

/-- Tags of a Tollhouse in use. -/
def thTags (t : Tollhouse) : List Nat :=
  t.reqs.map (·.tag) ++ (t.relay.map fun o => o.left.map (·.2)).foldl (· ++ ·) []

/-- Send the copies of an operation, each under a tag of its own. -/
def sendCopies (h : Hub) (m : Hdr) (num : Nat) (node : Nat) (b : Block) : Block :=
  match chooseTag b 0 4095 (thTags (getTh b h)) with
  | (none, b) => b
  | (some tag, b) =>
    let note := updFirst (fun o : RelayOp => o.num == num) fun o => { o with left := o.left ++ [(node, tag)] }
    let b := updTh b h fun t => { t with relay := note t.relay }
    hubPut b h { hdr := mkMgt opBcastInval (hWorld m) node (myNode b (agTh h)) tag (mgtArg m) }

/-- BCAST_INVAL: the relay of a hub takes the BcastInval at the front. -/
def takeBinv (b : Block) (h : Hub) : Block :=
  if boxHeadIs b (boxTh h) vcMgt opBcastInval = false ∨ 256 ≤ (getTh b h).relay.length then b
  else match popBox b (boxTh h) vcMgt with
  | none => b
  | some (m, b') =>
    let p := binvPart b h m.hdr
    let targets := relayTargets b h m.hdr p
    if (freeTags 0 4095 (thTags (getTh b h))).length < targets.length then b else
    let num := (getTh b h).nextRelay
    let op : RelayOp := { num := num, hdr := m.hdr, part := p, left := [] }
    let b' := updTh b' h fun t => { t with relay := t.relay ++ [op], nextRelay := num + 1 }
    let b' := forEach (targets.filter fun n => !reachable b h n) (relayCount h m.hdr p) b'
    relayFinish (forEach (targets.filter fun n => reachable b h n) (sendCopies h m.hdr num) b') h

def execBcastInval (hub : Hub) (s : State) : Host.Outcome State Fault Refusal := nextBlk s (takeBinv s.blk hub)

/-- A Comp for a copy of a relay (R311): LOST is passed on, OK ends the wait for its sender. -/
def relayComp (b : Block) (h : Hub) (m : Msg) : Block :=
  let key := (hSrc m.hdr, hTag m.hdr)
  match (getTh b h).relay.find? fun o => o.left.contains key with
  | none => unknownTag b m
  | some o =>
    if hStatus m.hdr = stsLost then relayAnswer h o.hdr stsLost b
    else
      let note := updFirst (fun x : RelayOp => x.num == o.num) fun x => { x with left := x.left.filter (· != key) }
      relayFinish (updTh b h fun t => { t with relay := note t.relay }) h

/-- RELAY_TIMEOUT: the wait of an operation for a node ends. -/
def relayTimeout (b : Block) (h : Hub) (num node : Nat) : Block :=
  match (getTh b h).relay.find? fun o => o.num == num && o.left.any fun x => x.1 == node with
  | none => b
  | some o =>
    let b := relayCount h o.hdr o.part node b
    let note := updFirst (fun x : RelayOp => x.num == num) fun x => { x with left := x.left.filter fun y => y.1 != node }
    relayFinish (updTh b h fun t => { t with relay := note t.relay }) h

def execRelayTimeout (hub : Hub) (op : Nat) (target : BitVec 8) (s : State) : Host.Outcome State Fault Refusal :=
  nextBlk s (relayTimeout s.blk hub op target.toNat)

/-! ## Copies at a die (R310) -/

/-- Does a fetched instruction, or one being fetched, belong to a scope: all of the modes that the scope names? -/
def scopeFetched (c : Scope) (virt : Bool) : Bool := virt == decide (5 ≤ c.op)

/-- Steps 1 to 3 of R310 on one hart. -/
def actBinv (c : Scope) (i : Nat) (b : Block) : Block :=
  let b := hpm (invalidate b i c) i 0x207 c.world
  let virt := isVirt (getHart b i).priv
  let drop (a : Access) : Bool := match a with
    | .fetch _ _ => !scopeFetched c virt
    | _ => true
  let clean (r : Req) : Req := if r.hart = some i then { r with accs := r.accs.filter drop } else r
  let b := updDie b (hartDie i) fun d => { d with reqs := d.reqs.map clean }
  updHart b i fun h => { h with
    fetched := h.fetched.filter fun f => !scopeFetched c f.virt
    waiting := h.waiting.map fun w => { w with accs := w.accs.filter drop } }

/-- BCAST_INVAL_COPY: a die passes the copy at the front to its harts. -/
def takeCopy (b : Block) (k : Nat) : Block :=
  if boxHeadIs b (boxDie k) vcMgt opBcastInval = false then b
  else match popBox b (boxDie k) vcMgt with
  | none => b
  | some (m, b) =>
    let harts := (List.range 20).map (k * 20 + ·)
    let b := forEach harts (actBinv (binvScope m.hdr)) b
    updDie b k fun d => { d with copies := d.copies ++ [{ hdr := m.hdr, left := harts }] }

def execBcastInvalCopy (die : Die) (s : State) : Host.Outcome State Fault Refusal := nextBlk s (takeCopy s.blk die.val)

/-- Are all loads and stores of a hart performed (step 4 of R310)? -/
def accessesDone (b : Block) (i : Nat) : Bool :=
  let waits (accs : List Access) : Bool := accs.any fun a => match a with
    | .fetch _ _ | .walk _ _ _ _ _ _ => false
    | _ => true
  unperformed b i == 0 && !((getDie b (hartDie i)).reqs.any fun r => r.hart == some i && waits r.accs) &&
    !((getHart b i).waiting.any fun w => waits w.accs)

/-- HART_INVAL_ACK: a hart acknowledges its oldest copy; with the last hart the die sends Comp. -/
def ackCopy (b : Block) (i : Nat) : Block :=
  let k := hartDie i
  if accessesDone b i = false then b
  else
    let note := updFirst (fun c : BinvCopy => c.left.contains i) fun c => { c with left := c.left.filter (· != i) }
    let b := updDie b k fun d => { d with copies := note d.copies }
    match takeFirst (fun c : BinvCopy => c.left.isEmpty) (getDie b k).copies with
    | none => b
    | some (c, rest) =>
      let m := c.hdr
      let hdr := mkComp (hWorld m) (hSrc m) (myNode b k) (hTag m) stI stsOk 0
      dieSend (updDie b k fun d => { d with copies := rest }) (dieOf k) { hdr := hdr }

def execHartInvalAck (hart : Hart) (s : State) : Host.Outcome State Fault Refusal := nextBlk s (ackCopy s.blk hart.val)

/-! ## MgtMsg (R141) -/

/-- MGT_MSG: the firmware takes the MgtMsg at the front; its ARG and data are private to it. -/
def takeMgt (b : Block) (h : Hub) : Block :=
  if boxHeadIs b (boxTh h) vcMgt opMgtMsg = false then b
  else match popBox b (boxTh h) vcMgt with
  | none => b
  | some (m, b) => updTh b h fun t => { t with mail := t.mail ++ [m] }

def execMgtMsg (hub : Hub) (s : State) : Host.Outcome State Fault Refusal := nextBlk s (takeMgt s.blk hub)

end Sys2Proof.Machine
end

