-- ==== Sys2Proof/Machine/Lost.lean ====
section
/-! DEFINITION. What follows a loss: the end of the wait of R219, the treatment of R220, and the scrub (R221, R495). -/

namespace Sys2Proof.Machine

/-- Number by which the filter and the scrub counts name what is lost: agent, or 16 + package. -/
def lostNum : LostTarget → Nat
  | .agent a => a.val
  | .pkg k => 16 + k.val

/-- Entry of `Pkg.lostWait` of what is lost, at a hub. -/
def lostKeyOf (h : Hub) : LostTarget → Nat
  | .agent a => waitKey h a.val
  | .pkg k => waitKey h (32 + k.val)

/-- Is a node the lost agent's, or of the lost package? -/
def lostNode (b : Block) (t : LostTarget) (n : Nat) : Bool :=
  match t with
  | .agent a => n == myNode b a.val
  | .pkg k => nodePkg n == k.val

/-! ## The wait of R219 -/

/-- Does an end lead nowhere: to a lost agent, across a split, or to a lost package? What it would send is dropped. -/
def endDead (b : Block) (e : LinkId) : Bool :=
  match e with
  | .hub h l =>
    if l.val = 7 then fon b (HUB_SPLIT_STATUS h) HUB_SPLIT_STATUS_SPLIT
    else agentLost b h (if l.val = 6 then agGuest h else h.idx * 6 + l.val)
  | .die _ => true
  | .hwy h k => match hwyNeighbour b h k with
    | some p => pkgLost b h p
    | none => false

/-- Does a hub's link end hold a message of the lost target? -/
def endHolds (b : Block) (t : LostTarget) (e : LinkId) : Bool :=
  let l := getLink b e
  let mine (m : Msg) : Bool := lostNode b t (hSrc m.hdr)
  let waits (c : Nat) : Bool := (l.rxq.get [] c).any mine || (!endDead b e && (l.txq.get [] c).any mine)
  (List.range 6).any waits ||
    (!endDead b e && ((l.replay.any fun f => f.ends.any fun m => lostNode b t (hSrc m)) ||
      l.txSlots.any fun x => x.last.any fun m => lostNode b t (hSrc m)))

/-- Does a home slice's input hold a message of the lost target that has not arrived (R197)? -/
def inputHolds (b : Block) (t : LostTarget) (h : Hub) : Bool :=
  let mine (m : Msg) : Bool := lostNode b t (hSrc m.hdr)
  let box (key : Nat) : Bool := (List.range 6).any fun c => (getBox b key c).any mine
  box (boxHome h) || (List.range 32).any fun s => box (boxSlice h s)

/-- Link ends of a hub. -/
def hubEnds (h : Hub) : List LinkId := (List.finRange 8).map (.hub h) ++ (List.finRange 2).map (.hwy h)

/-- Have the earlier messages of what is lost arrived or been dropped, as far as a hub can see (R219)? -/
def lostDrained (b : Block) (h : Hub) (t : LostTarget) : Bool :=
  let hubs := if fon b (HUB_SPLIT_STATUS h) HUB_SPLIT_STATUS_SPLIT then [h] else [Hub.n, Hub.s]
  hubs.all fun x => !inputHolds b t x && !(hubEnds x).any (endHolds b t)

/-! ## R220 -/

/-- One slice after the wait: waiting requests of the lost target go, its answers and write data are synthesised, its
handovers end. -/
def drainSlice (t : LostTarget) (h : Hub) (s : Nat) (b : Block) : Block :=
  let mine (x : Tracker) : Bool := (x.kind == .req || x.kind == .io) && lostNode b t (hSrc x.hdr)
  let b := forEach ((getSlice b h s).trackers.filter fun x => !x.active && mine x) (fun x b => delTr b h s x) b
  let answer (x : Tracker) (n : Snoop) (b : Block) : Block :=
    match getTr b h s x.id with
    | some x => synthSnoop b h s x n
    | none => b
  let b := forEach (getSlice b h s).trackers (fun x b =>
    forEach (x.snoops.filter fun n => lostNode b t n.node && !n.answered) (answer x) b) b
  let b := forEach ((getSlice b h s).trackers.filter fun x => awaitsWr x && mine x)
    (fun x b => synthWrData b h s x) b
  let b := updSlice b h s fun sl => { sl with handovers := sl.handovers.filter fun w => !lostNode b t w.node }
  settle (releaseHandovers b h s) h s

/-- Empty the waiting messages of an end, each by `f`. -/
def clearTx (e : LinkId) (f : Msg → Block → Block) (b : Block) : Block :=
  let l := getLink b e
  let ms := (List.range 6).flatMap fun c => l.txq.get [] c
  forEach ms f (updLink b e fun l => { l with txq := {} })

/-- Drop and count a message (R220). -/
def dropCounted (h : Hub) (b : Block) : Block := bumpFld b (HUB_JCT_LOST h) HUB_JCT_LOST_DROPPED

/-- Answer or drop a message that a hub holds for the far half or a lost package (R392): a relay's copy counts its dies. -/
def answerFar (h : Hub) (m : Msg) (b : Block) : Block :=
  if hVc m.hdr = vcReq ∨ hVc m.hdr = vcPio then hubRefuse b h m.hdr
  else if hVc m.hdr = vcMgt ∧ hOp m.hdr = opBcastInval then
    match (getTh b h).relay.find? fun o => o.left.contains (hDst m.hdr, hTag m.hdr) with
    | some o => relayTimeout b h o.num (hDst m.hdr)
    | none => b
  else dropCounted h b

/-- What a hub drops or answers at its ends once the wait has ended. -/
def drainEnds (b : Block) (h : Hub) (t : LostTarget) : Block :=
  match t with
  | .agent a =>
    let b := proxyWithout a.val h b
    if agentHub a.val = h then clearTx (hubEnd a.val) (fun _ b => dropCounted h b) b
    else if fon b (HUB_SPLIT_STATUS h) HUB_SPLIT_STATUS_SPLIT then clearTx (.hub h 7) (answerFar h) b
    else b
  | .pkg k =>
    let ends := (List.finRange 2).filter fun x => hwyNeighbour b h x == some k.val
    clearProxy h k.val (forEach ends (fun x b => clearTx (.hwy h x) (answerFar h) b) b)

/-- Show a scrub as running or ended. -/
def setScrub (b : Block) (h : Hub) (t : LostTarget) (v : Bool) : Block :=
  let put (r : Nat) (f : Fld) (i : Nat) : Block := fset b r f (putBits (fget b r f) i i (b2n v))
  match t with
  | .agent a => put (HUB_JCT_LOST h) HUB_JCT_LOST_SCRUB a.val
  | .pkg k => put (HWY_FABRIC_STATUS h) HWY_FABRIC_STATUS_FAB_SCRUB k.val

def scrubRuns (b : Block) (h : Hub) (t : LostTarget) : Bool :=
  match t with
  | .agent a => bitOf (fget b (HUB_JCT_LOST h) HUB_JCT_LOST_SCRUB) a.val
  | .pkg k => bitOf (fget b (HWY_FABRIC_STATUS h) HWY_FABRIC_STATUS_FAB_SCRUB) k.val

/-- LOST_DRAIN_DONE (R219, R220): the wait at a hub has ended. -/
def lostDrain (b : Block) (h : Hub) (t : LostTarget) : Block :=
  if b.pkg.lostWait.contains (lostKeyOf h t) = false ∨ lostDrained b h t = false then b
  else
    let b := { b with pkg := { b.pkg with
      lostWait := b.pkg.lostWait.filter fun k => k != lostKeyOf h t
      scrubPoison := b.pkg.scrubPoison.set 0 (h.idx * 32 + lostNum t) 0 } }
    setScrub (forEach (List.range 32) (drainSlice t h) (drainEnds b h t)) h t true

def execLostDrainDone (hub : Hub) (target : LostTarget) (s : State) : Host.Outcome State Fault Refusal :=
  nextBlk s (lostDrain s.blk hub target)

/-! ## The scrub (R221) -/

/-- Keys of the entries of a slice that hold the lost target. -/
def scrubKeys (b : Block) (h : Hub) (s w : Nat) : List Nat :=
  ((getSlice b h s).filter.cells.filter fun c => c.2.valid && entHas c.2 w).map (·.1)

/-- Scrub one entry; one whose remaining holders must be back-invalidated waits for a free tag (R176). -/
def scrubKey (h : Hub) (s w k : Nat) (b : Block) : Block :=
  let sl := getSlice b h s
  let e := sl.filter.get {} k
  if (e.resp == w && e.kind == 1) && !backInvFree b h s then b
  else scrubEntry b h s (slicePart b h s) (fKeyLine sl k) w

/-- SCRUB_DONE (R221, R511): every slice has scrubbed its filter. -/
def scrubDone (b : Block) (h : Hub) (t : LostTarget) : Block :=
  if scrubRuns b h t = false then b
  else
    let w := lostNum t
    let b := forEach (List.range 32) (fun s b => forEach (scrubKeys b h s w) (scrubKey h s w) b) b
    if (List.range 32).any fun s => !(scrubKeys b h s w).isEmpty then b
    else
      let n := b.pkg.scrubPoison.get 0 (h.idx * 32 + w)
      let d0 := match t with
        | .agent a => a.val
        | .pkg k => 2 ^ 8 + k.val
      raise (setScrub b h t false) (agHome h) 54 3 9 (if n = 0 then sevInfo else sevDefer) 0 d0 n

def execScrubDone (hub : Hub) (target : LostTarget) (s : State) : Host.Outcome State Fault Refusal :=
  nextBlk s (scrubDone s.blk hub target)

end Sys2Proof.Machine
end

