-- ==== Sys2Proof/Machine/Mem.lean ====
section
/-! DEFINITION. The memory channels: their queues, the choice of commands, refresh, retraining pauses, ECC outcomes, the
patrol scrub and the freeze (R329 to R363). -/

namespace Sys2Proof.Machine

/-! ## From media address to DRAM (R333) -/

/-- Where a media address lies in the DRAM of a channel. -/
structure McSpot where
  sub : Nat
  bg : Nat
  ba : Nat
  row : Nat
  rank : Nat
  /-- Column C10 to C0. -/
  col : Nat
deriving DecidableEq, Repr

/-- Package channel number. -/
def pkgChan (h : Hub) (c : Nat) : Nat := 8 * h.idx + c

/-- Row bits of the channel's devices. -/
def mcRowBits (b : Block) (h : Hub) (c : Nat) : Nat := if fon b (MC_CONFIG h c) MC_CONFIG_DENSITY then 17 else 16

/-- Logical ranks of a channel. -/
def mcRanks (b : Block) (h : Hub) (c : Nat) : Nat := fget b (MC_CONFIG h c) MC_CONFIG_LRANKS + 1

/-- log2 of the number of logical ranks, 1 to 16. -/
def log2Up (n : Nat) : Nat := if n ≤ 1 then 0 else if n ≤ 2 then 1 else if n ≤ 4 then 2 else if n ≤ 8 then 3 else 4

/-- Decode a media address (R333). -/
def mcSpot (b : Block) (h : Hub) (c ma : Nat) : McSpot :=
  let rb := mcRowBits b h c
  { sub := bitsOf ma 6 6
    bg := bitsOf ma 10 8 ^^^ bitsOf ma 21 19
    ba := bitsOf ma 12 11 ^^^ bitsOf ma 23 22
    row := bitsOf ma (18 + rb) 19
    rank := bitsOf ma (18 + rb + log2Up (mcRanks b h c)) (19 + rb)
    col := bitsOf ma 18 13 * 32 + bitsOf ma 7 7 * 16 }

/-- Key of a bank in the table of open rows. -/
def mcBankKey (p : McSpot) : Nat := p.rank * 64 + p.sub * 32 + p.bg * 4 + p.ba

/-- Package rank of a logical rank (R333). -/
def mcPkgRank (b : Block) (h : Hub) (c rank : Nat) : Nat := rank / 2 ^ fget b (MC_CONFIG h c) MC_CONFIG_STACK

/-- Package ranks of a channel. -/
def mcPkgRanks (b : Block) (h : Hub) (c : Nat) : Nat := mcRanks b h c / 2 ^ fget b (MC_CONFIG h c) MC_CONFIG_STACK

/-- Close the open rows of a package rank. -/
def mcCloseRank (b : Block) (h : Hub) (c rank : Nat) : Block :=
  updChan b (pkgChan h c) fun ch => { ch with
    rows := { cells := ch.rows.cells.filter fun x => mcPkgRank b h c (x.1 / 64) != rank } }

/-- Precharge every bank. -/
def mcCloseAll (b : Block) (h : Hub) (c : Nat) : Block := updChan b (pkgChan h c) fun ch => { ch with rows := {} }

/-! ## Answers -/

/-- Answer a read with its data. -/
def mcReply (b : Block) (req : MemReq) (d : LineData) (p : Poison) : Block :=
  match req.tracker with
  | some id => memAnswer b (hubOf (req.slice / 32)) (req.slice % 32) id d p
  | none => b

/-- Answer a read with all eight POISON bits set (R356, R357); its bytes are free. -/
def mcPoisonReply (b : Block) (req : MemReq) : Block :=
  let (d, b) := freeLine b
  mcReply b req d 0xFF

/-- Refuse a write (R357). -/
def mcRefuseWrite (b : Block) (req : MemReq) : Block :=
  let h := hubOf (req.slice / 32)
  let s := req.slice % 32
  match req.tracker with
  | some id => memTold b h s (some id) false
  | none => writeLost b h s (req.line * 64) req.world

/-- WORLD flag of a channel's records: the channel is claimed by the secure world (R321, R508). -/
def mcFlags (b : Block) (h : Hub) (c : Nat) : Nat := 4 * b2n (getChan b (pkgChan h c)).claimed

/-! ## Write drain (R345) -/

/-- Occupancy that starts write drain. -/
def mcHigh (b : Block) (h : Hub) (c : Nat) : Nat := min 128 (fget b (MC_SCHED h c) MC_SCHED_WQ_HIGH)

/-- Occupancy that ends it. -/
def mcLow (b : Block) (h : Hub) (c : Nat) : Nat :=
  let low := fget b (MC_SCHED h c) MC_SCHED_WQ_LOW
  if low < mcHigh b h c then low else mcHigh b h c - 1

/-- Reads whose command has not been issued. -/
def mcWaiting (ch : Chan) : List McEnt := ch.reads.filter fun e => !e.issued

/-- Enter or leave write drain as the queues now stand. -/
def mcDrain (b : Block) (h : Hub) (c : Nat) : Block :=
  let high := mcHigh b h c
  let low := mcLow b h c
  updChan b (pkgChan h c) fun ch =>
    let occ := ch.writes.length
    let reads := !(mcWaiting ch).isEmpty
    let ends := decide (occ ≤ low) || (ch.drainEmpty && reads && decide (occ < high))
    let ch := if ch.drain && ends then { ch with drain := false } else ch
    if !ch.drain && (decide (high ≤ occ) || (!reads && decide (0 < occ))) then
      { ch with drain := true, drainEmpty := !reads }
    else ch

/-! ## Acceptance (R339 to R341, R357) -/

/-- The first read at the channel's input that is not behind an older write to its line, and the input without it. -/
def mcNextRead : List MemReq → List Nat → Option (MemReq × List MemReq)
  | [], _ => none
  | r :: rest, held =>
    if r.write then (mcNextRead rest (r.ma / 64 :: held)).map fun x => (x.1, r :: x.2)
    else if held.contains (r.ma / 64) then (mcNextRead rest held).map fun x => (x.1, r :: x.2)
    else some (r, rest)

/-- The newest queued write to a line. -/
def mcQueuedWrite (ch : Chan) (ma : Nat) : Option McEnt :=
  (ch.writes.filter fun e => e.req.ma / 64 == ma / 64).getLast?

/-- A read reaches the channel: answered with poison while the milepost is clear (R357), from the write queue (R340), or
queued (R339). -/
def mcTakeRead (b : Block) (h : Hub) (c : Nat) : Block :=
  let pc := pkgChan h c
  match mcNextRead (getChan b pc).input [] with
  | none => b
  | some (r, rest) =>
    let taken := updChan b pc fun ch => { ch with input := rest }
    if chanReady b h c = false then mcPoisonReply (bump taken (CNT_MC h c 8)) r
    else match mcQueuedWrite (getChan b pc) r.ma with
    | some w => mcReply taken r w.req.data w.req.poison
    | none =>
      if 256 ≤ (getChan b pc).reads.length then b
      else
        mcDrain (updChan taken pc fun ch => { ch with
          nextNum := ch.nextNum + 1
          reads := ch.reads ++ [{ num := ch.nextNum, req := r }] }) h c

/-- Tell a write's home that it is accepted. -/
def mcAccepted (b : Block) (req : MemReq) : Block :=
  memTold b (hubOf (req.slice / 32)) (req.slice % 32) req.tracker true

/-- A write reaches the channel: refused while the milepost is clear (R357), put in place of a queued write to its line
(R340), or queued (R339). -/
def mcTakeWrite (b : Block) (h : Hub) (c : Nat) : Block :=
  let pc := pkgChan h c
  match takeFirst (fun r : MemReq => r.write) (getChan b pc).input with
  | none => b
  | some (w, rest) =>
    let taken := updChan b pc fun ch => { ch with input := rest }
    if chanReady b h c = false then mcRefuseWrite (bump taken (CNT_MC h c 8)) w
    else if (mcQueuedWrite (getChan b pc) w.ma).isSome then
      mcAccepted (updChan taken pc fun ch => { ch with
        writes := updFirst (fun e => e.req.ma / 64 == w.ma / 64) (fun e => { e with req := w }) ch.writes }) w
    else if 128 ≤ (getChan b pc).writes.length then b
    else
      let b := updChan taken pc fun ch => { ch with
        nextNum := ch.nextNum + 1
        writes := ch.writes ++ [{ num := ch.nextNum, req := w }] }
      mcDrain (mcAccepted b w) h c

/-! ## Refresh (R347, R348) -/

/-- Postponed refreshes that a rank may have. -/
def mcRefreshLimit (ch : Chan) : Nat := if ch.fgrNow then 8 else 4

/-- Is a read for a package rank queued? -/
def mcRankBusy (b : Block) (h : Hub) (c rank : Nat) : Bool :=
  (mcWaiting (getChan b (pkgChan h c))).any fun e => mcPkgRank b h c (mcSpot b h c e.req.ma).rank == rank

/-- Show the largest count of postponed refreshes. -/
def mcShowPostponed (b : Block) (h : Hub) (c : Nat) : Block :=
  let top := ((getChan b (pkgChan h c)).postponed.cells.map (·.2)).foldl max 0
  fset b (MC_MAINT h c) MC_MAINT_POSTPONED top

/-- Set the count of a rank. -/
def mcSetPostponed (b : Block) (h : Hub) (c rank n : Nat) : Block :=
  mcShowPostponed (updChan b (pkgChan h c) fun ch => { ch with postponed := ch.postponed.set 0 rank n }) h c

/-- Issue the postponed refreshes of every rank for which no read is queued. -/
def mcFlushRefresh (b : Block) (h : Hub) (c : Nat) : Block :=
  let ranks := (getChan b (pkgChan h c)).postponed.cells.map (·.1)
  forEach (ranks.filter fun r => !mcRankBusy b h c r) (fun r b => mcSetPostponed (mcCloseRank b h c r) h c r 0) b

/-- A refresh of a package rank falls due (R348). -/
def mcRefreshDue (b : Block) (h : Hub) (c rank : Nat) : Block :=
  let ch := getChan b (pkgChan h c)
  if chanReady b h c = false ∨ ch.selfRefresh = true ∨ mcPkgRanks b h c ≤ rank then b
  else
    let n := ch.postponed.get 0 rank
    if mcRankBusy b h c rank then
      if n < mcRefreshLimit ch then mcSetPostponed b h c rank (n + 1)
      else bump (mcCloseRank b h c rank) (CNT_MC h c 6)
    else mcSetPostponed (mcCloseRank b h c rank) h c rank 0

/-! ## The choice of a command (R344 to R346) -/

/-- Does an entry hit an open row? -/
def mcHits (b : Block) (h : Hub) (c : Nat) (e : McEnt) : Bool :=
  let p := mcSpot b h c e.req.ma
  (getChan b (pkgChan h c)).rows.get 0 (mcBankKey p) == p.row + 1

/-- The read that R344 takes among the allowed ones. -/
def mcChooseRead (b : Block) (h : Hub) (c : Nat) (rs : List McEnt) : Option McEnt :=
  let top := (rs.map (·.urgency)).foldl max 0
  let rs := rs.filter fun e => e.urgency == top
  if top = 3 then rs.head?
  else match rs.find? (mcHits b h c) with
    | some e => some e
    | none => rs.head?

/-- Row state after the column command of an access, with its counters (R346, R363). -/
def mcAccess (b : Block) (h : Hub) (c : Nat) (e : McEnt) : Block :=
  let pc := pkgChan h c
  let p := mcSpot b h c e.req.ma
  let b := bumpW h e.req.world b (CNT_MC h c (if mcHits b h c e then 3 else 4))
  let ch := getChan b pc
  let same (x : McEnt) : Bool :=
    x.num != e.num && mcBankKey (mcSpot b h c x.req.ma) == mcBankKey p && (mcSpot b h c x.req.ma).row == p.row
  let wanted := (mcWaiting ch).any same || ch.writes.any same
  let keep := wanted || e.req.hint == 2 || (e.req.hint != 1 && fon b (MC_SCHED h c) MC_SCHED_PAGE_POLICY)
  updChan b pc fun ch => { ch with rows := ch.rows.set 0 (mcBankKey p) (if keep then p.row + 1 else 0) }

/-- Issue a read: its data is on the way. -/
def mcIssueRead (b : Block) (h : Hub) (c : Nat) (e : McEnt) : Block :=
  let b := mcAccess b h c e
  let b := updChan b (pkgChan h c) fun ch => { ch with
    reads := (ch.reads.filter fun x => x.num != e.num) ++ [{ e with issued := true }] }
  mcDrain (mcFlushRefresh b h c) h c

/-- Perform a write in DRAM (R341). -/
def mcIssueWrite (x : Block × Dram) (h : Hub) (c : Nat) (e : McEnt) : Block × Dram :=
  let b := mcAccess x.1 h c e
  let b := updChan b (pkgChan h c) fun ch => { ch with writes := ch.writes.filter fun w => w.num != e.num }
  (mcDrain b h c, x.2.writeLine (pkgChan h c) e.req.ma e.req.data e.req.poison)

/-- Can the channel issue a command? -/
def mcServes (b : Block) (h : Hub) (c : Nat) : Bool :=
  let ch := getChan b (pkgChan h c)
  chanReady b h c && !ch.training && !ch.selfRefresh && !ch.pauseDue && !ch.filling

/-- The command that R344 and R345 choose among the entries whose next command the DRAM timing allows. -/
def mcChoice (x : Block × Dram) (h : Hub) (c : Nat) (allowed : List Nat) : Block × Dram :=
  if mcServes x.1 h c = false then x
  else
    let b := mcDrain x.1 h c
    let ch := getChan b (pkgChan h c)
    let rs := (mcWaiting ch).filter fun e => allowed.contains e.num
    let ws := ch.writes.filter fun e => allowed.contains e.num
    if ch.drain then
      match rs.find? (fun e => e.urgency == 3), ws.find? (mcHits b h c), ws with
      | some r, _, _ => (mcIssueRead b h c r, x.2)
      | none, some w, _ => mcIssueWrite (b, x.2) h c w
      | none, none, w :: _ => mcIssueWrite (b, x.2) h c w
      | none, none, [] => (b, x.2)
    else match mcChooseRead b h c rs with
      | some r => (mcIssueRead b h c r, x.2)
      | none => (b, x.2)

/-- Target of a port (MC_QOS_TARGET), in units of 10 ns. -/
def qosTarget (b : Block) (h : Hub) (port : Nat) : Nat :=
  if port < 8 then bitsOf (rd b (MC_QOS_TARGET_LO h)) (8 * port + 7) (8 * port)
  else if port < 13 then bitsOf (rd b (MC_QOS_TARGET_HI h)) (8 * (port - 8) + 7) (8 * (port - 8)) else 0

/-- The age of a queued read reaches its next threshold (R343). -/
def mcUrgency (b : Block) (h : Hub) (c num : Nat) : Block :=
  match (getChan b (pkgChan h c)).reads.find? fun e => e.num == num with
  | none => b
  | some e =>
    if qosTarget b h e.req.port = 0 ∨ 3 ≤ e.urgency then b
    else
      let b := updChan b (pkgChan h c) fun ch => { ch with
        reads := updFirst (fun x => x.num == num) (fun x => { x with urgency := x.urgency + 1 }) ch.reads }
      if e.urgency = 2 then bumpW h e.req.world b (CNT_MC h c 5) else b

/-! ## The freeze (R355, R356, R358) -/

/-- An entry word of the dump. -/
def mcDumpWord (write : Bool) (e : McEnt) : Word :=
  BitVec.ofNat 64 (place 1 63 63 + place (b2n e.req.world) 41 41 + place (if write then 0 else e.req.hint) 40 39 +
    place (if write then 0 else e.urgency) 38 37 + place (if write then 0xF else e.req.port) 36 33 +
    place (e.req.ma / 64) 32 0)

/-- MC_FREEZE_ADDR of a failing burst. -/
def mcFreezeAddr (p : McSpot) : Nat :=
  place 1 63 63 + place p.rank 55 52 + place p.bg 51 49 + place p.ba 48 47 + place p.sub 46 46 + place p.row 45 29 +
    place p.col 28 18

/-- Put an entry in its place by age. -/
def mcInsert (e : McEnt) : List McEnt → List McEnt
  | [] => [e]
  | x :: r => if e.num ≤ x.num then e :: x :: r else x :: mcInsert e r

/-- Entries oldest first. -/
def mcByAge (es : List McEnt) : List McEnt := es.foldr mcInsert []

/-- Freeze a channel with a cause (R356); the failing media address is known for causes 1 and 2. -/
def mcFreeze (b : Block) (h : Hub) (c cause : Nat) (ma : Option Nat) (syndrome : Hdr) : Block :=
  let st := MC_FREEZE_STATUS h c
  if fon b st MC_FREEZE_STATUS_FROZEN then bumpFld b st MC_FREEZE_STATUS_MORE_ERRORS
  else
    let pc := pkgChan h c
    let ch := getChan b pc
    let b := setChanReady b h c false
    let b := wr b st (place ch.reads.length 40 32 + place ch.writes.length 31 24 + place cause 3 1 + 1)
    let b := wr b (MC_FREEZE_ADDR h c) (match ma with
      | some m => mcFreezeAddr (mcSpot b h c m)
      | none => 0)
    let dump : McDump :=
      { syndrome := if ma.isSome then syndrome else 0, time := timeAt b (agHome h)
        reads := (mcByAge ch.reads).map (mcDumpWord false), writes := ch.writes.map (mcDumpWord true) }
    let b := updChan b pc fun ch =>
      { ch with dump := dump, rows := {}, selfRefresh := true, reads := [], drain := false, training := false }
    let b := raise b (agHome h) (40 + c) 5 4 sevUncorr (mcFlags b h c) (place st 43 8) (rd b st)
    forEach ch.reads (fun e b => mcPoisonReply b e.req) b

/-! ## Data and ECC (R335 to R338) -/

/-- Remove the oldest issued read. -/
def mcTakeIssued (b : Block) (h : Hub) (c : Nat) : Option (McEnt × Block) :=
  match takeFirst (fun e : McEnt => e.issued) (getChan b (pkgChan h c)).reads with
  | none => none
  | some (e, rest) => some (e, updChan b (pkgChan h c) fun ch => { ch with reads := rest })

/-- A corrected error: counter and record (R336, R338). -/
def mcCorrected (b : Block) (h : Hub) (c i ma : Nat) : Block :=
  raise (bump b (CNT_MC h c i)) (agHome h) (40 + c) 5 2 sevCorr (mcFlags b h c) (place (CNT_MC h c i) 43 8) ma

/-- The data of an issued read is here. For three or more devices in error no outcome is guaranteed: a free number chooses
among data passed on, data taken for corrected, both free, and an uncorrectable error (R335). -/
def mcData (b : Block) (d : Dram) (h : Hub) (c : Nat) (ecc : EccOutcome) (syndrome : Hdr) : Block :=
  match mcTakeIssued b h c with
  | none => b
  | some (e, taken) =>
    let (data, p) := d.readLine (pkgChan h c) e.req.ma
    let reply (b : Block) (data : LineData) : Block :=
      mcReply (if p = 0 then b else bump b (CNT_MC h c 2)) e.req data p
    match ecc with
    | .clean => reply taken data
    | .oneDevice => reply (mcCorrected taken h c 0 e.req.ma) data
    | .twoDevices => mcFreeze b h c 1 (some e.req.ma) syndrome
    | .manyDevices =>
      let (n, b1) := freeNat b
      if n % 3 = 0 then mcFreeze b1 h c 1 (some e.req.ma) syndrome
      else
        let (data, b2) := freeLine { taken with freeIx := b1.freeIx }
        reply (if n % 3 = 1 then mcCorrected b2 h c 0 e.req.ma else b2) data

/-- A scrub read of a line (R338). A correction is not rewritten over a newer queued write (R336): the line's contents in the
model are the corrected ones either way. -/
def mcScrub (b : Block) (h : Hub) (c line : Nat) (ecc : EccOutcome) (syndrome : Hdr) : Block :=
  if mcServes b h c = false ∨ fget b (MC_MAINT h c) MC_MAINT_SCRUB_HOURS = 0 then b
  else match ecc with
    | .clean => b
    | .oneDevice => mcCorrected b h c 1 (line * 64)
    | .twoDevices => mcFreeze b h c 2 (some (line * 64)) syndrome
    | .manyDevices =>
      let (n, b) := freeNat b
      if n % 3 = 0 then mcFreeze b h c 2 (some (line * 64)) syndrome
      else if n % 3 = 1 then mcCorrected b h c 1 (line * 64)
      else b

/-! ## Pauses and fills (R332, R349, R350, R353) -/

/-- A retraining pause: not run by a channel that is frozen (R358) or whose INTERVAL is 0, but for the pause that follows
self-refresh. -/
def mcPause (b : Block) (h : Hub) (c : Nat) (drift : Bool) (duration : Nat) : Block :=
  let ch := getChan b (pkgChan h c)
  if chanReady b h c = false ∨ ch.training = true ∨ ch.selfRefresh = true ∨
      (ch.pauseDue = false ∧ fget b (MC_MAINT h c) MC_MAINT_INTERVAL = 0) then b
  else
    let forced := ch.postponed.cells.filter fun x => decide (mcRefreshLimit ch ≤ x.2)
    let b := forEach forced (fun x b => mcSetPostponed b h c x.1 (x.2 - 1)) b
    let fgr := fon b (MC_MAINT h c) MC_MAINT_FGR
    let b := updChan b (pkgChan h c) fun ch => { ch with rows := {}, pauseDue := false, fgrNow := fgr }
    let b := fset (bump b (CNT_MC h c 7)) (MC_MAINT h c) MC_MAINT_LAST_PAUSE duration
    if drift then setStatus b (MC_MAINT h c) 40 0 false ch.claimed else b

/-- Logical rank of a media address of a channel. -/
def mcRankOf (b : Block) (h : Hub) (c ma : Nat) : Nat := (mcSpot b h c ma).rank

/-- Drop the cells of the ranks of a channel that a mask does not hold (R353). -/
def Dram.keepRanks (d : Dram) (b : Block) (h : Hub) (c mask : Nat) : Dram :=
  let keep (chan ma : Nat) : Bool := chan != pkgChan h c || bitOf mask (mcRankOf b h c ma)
  { bytes := { cells := d.bytes.cells.filter fun x => keep (x.1 / 2 ^ 40) (x.1 % 2 ^ 40) }
    poison := { cells := d.poison.cells.filter fun x => keep (x.1 / 2 ^ 37) (x.1 % 2 ^ 37 * 8) } }

/-- The zero fill or retrain ends: the ranks that were not kept hold zeros (R332, R353). The milepost sets. -/
def mcFillDone (x : Block × Dram) (h : Hub) (c : Nat) : Block × Dram :=
  let ch := getChan x.1 (pkgChan h c)
  if ch.filling = false ∨ fon x.1 (MC_FREEZE_STATUS h c) MC_FREEZE_STATUS_FROZEN = true then x
  else
    let d := x.2.keepRanks x.1 h c ch.keep
    (setChanReady (updChan x.1 (pkgChan h c) fun ch => { ch with filling := false }) h c true, d)

/-! ## Commands -/

/-- MC_READ (R339, R340, R357). -/
def execMcRead (hub : Hub) (chan : Fin 8) (s : State) : Host.Outcome State Fault Refusal :=
  nextBlk s (mcTakeRead s.blk hub chan.val)

/-- MC_WRITE (R339, R340, R357). -/
def execMcWrite (hub : Hub) (chan : Fin 8) (s : State) : Host.Outcome State Fault Refusal :=
  nextBlk s (mcTakeWrite s.blk hub chan.val)

/-- MC_COMMAND_CHOICE (R344, R345). -/
def execMcCommandChoice (hub : Hub) (chan : Fin 8) (allowed : List Nat) (s : State) : Host.Outcome State Fault Refusal :=
  nextMem s (mcChoice (s.blk, s.dram) hub chan.val allowed)

/-- MC_READ_DATA (R335 to R337, R355). -/
def execMcReadData (hub : Hub) (chan : Fin 8) (ecc : EccOutcome) (syndrome : Hdr) (s : State) :
    Host.Outcome State Fault Refusal :=
  nextBlk s (mcData s.blk s.dram hub chan.val ecc syndrome)

/-- URGENCY_RAISE (R343). -/
def execUrgencyRaise (hub : Hub) (chan : Fin 8) (entry : Nat) (s : State) : Host.Outcome State Fault Refusal :=
  nextBlk s (mcUrgency s.blk hub chan.val entry)

/-- OPEN_TIMER_EXPIRY (R346): the open row of a bank closes. -/
def execOpenTimerExpiry (hub : Hub) (chan : Fin 8) (bank : BankId) (s : State) : Host.Outcome State Fault Refusal :=
  let key := bank.rank.val * 64 + bank.sub.val * 32 + bank.group.val * 4 + bank.bank.val
  nextBlk s (updChan s.blk (pkgChan hub chan.val) fun ch => { ch with rows := ch.rows.set 0 key 0 })

/-- REFRESH_DUE (R347, R348). -/
def execRefreshDue (hub : Hub) (chan : Fin 8) (rank : Fin 16) (s : State) : Host.Outcome State Fault Refusal :=
  nextBlk s (mcRefreshDue s.blk hub chan.val rank.val)

/-- MR4_POLL (R347). -/
def execMr4Poll (hub : Hub) (chan : Fin 8) (doubled : Bool) (s : State) : Host.Outcome State Fault Refusal :=
  nextBlk s (fset s.blk (MC_MAINT hub chan.val) MC_MAINT_RATE_2X (b2n doubled))

/-- RETRAINING_PAUSE (R349, R350). -/
def execRetrainingPause (hub : Hub) (chan : Fin 8) (drift : Bool) (duration : Fin 101) (s : State) :
    Host.Outcome State Fault Refusal :=
  nextBlk s (mcPause s.blk hub chan.val drift duration.val)

/-- PATROL_SCRUB (R338). -/
def execPatrolScrub (hub : Hub) (chan : Fin 8) (line : Nat) (ecc : EccOutcome) (syndrome : Hdr) (s : State) :
    Host.Outcome State Fault Refusal :=
  nextBlk s (mcScrub s.blk hub chan.val line ecc syndrome)

/-- ALERT_N (R355). -/
def execAlertN (hub : Hub) (chan : Fin 8) (s : State) : Host.Outcome State Fault Refusal :=
  nextBlk s (if fget s.blk (MC_CONFIG hub chan.val) MC_CONFIG_SPEED_MTS = 0 then s.blk
    else mcFreeze s.blk hub chan.val 3 none 0)

/-- CHANNEL_FILL_DONE (R332, R353). -/
def execChannelFillDone (hub : Hub) (chan : Fin 8) (s : State) : Host.Outcome State Fault Refusal :=
  nextMem s (mcFillDone (s.blk, s.dram) hub chan.val)

end Sys2Proof.Machine
end

