-- ==== Sys2Proof/Machine/Reset.lean ====
section
/-! DEFINITION. Resets of cores, dies, guest sites and partitions, the partition plan, formation and release, rejoining and
the end of the split (chapter 12). -/

namespace Sys2Proof.Machine

/-! ## Cores (R268, R270, R378, R390) -/

/-- Show a core as held in reset or not. -/
def setHeld (b : Block) (i : Nat) (v : Bool) : Block :=
  let r := FCD_RESET_STATUS (hartDie i)
  fset b r FCD_RESET_STATUS_CORE_HELD (putBits (fget b r FCD_RESET_STATUS_CORE_HELD) (hartCore i) (hartCore i) (b2n v))

/-- Begin a core's warm reset: it is held, and its store buffer drains (R268). -/
def beginDrain (i : Nat) (b : Block) : Block :=
  let c := hartCore i
  updDie (setHeld b i true) (hartDie i) fun d =>
    if d.draining.contains c || d.flushing.contains c then d else { d with draining := d.draining ++ [c] }

/-- Does a hart's core still drain or write back? -/
def drains (b : Block) (i : Nat) : Bool :=
  let d := getDie b (hartDie i)
  d.draining.contains (hartCore i) || d.flushing.contains (hartCore i)

/-- Release a core at an address: in M-mode and the secure world (R313, R390), where its core-cluster milepost is set. -/
def releaseCore (pc : Nat) (i : Nat) (b : Block) : Block :=
  if bitOf (rd b (FCD_MILEPOST (hartDie i))) (hartCore i) = false ∨ (getDie b (hartDie i)).inReset = true then b
  else
    let b := updHart (setHeld b i false) i fun h => { h with pc := BitVec.ofNat 64 pc, priv := .m, core := .c0 }
    cset b i FCD_WORLD FCD_WORLD_WORLD 1

/-- Abandon the requests of a core but its write-backs; their tags are quarantined (R270). -/
def abandon (b : Block) (i : Nat) : Block :=
  let k := hartDie i
  let mine (r : Req) : Bool := r.hart == some i && r.purpose != .wb
  let gone := (getDie b k).reqs.filter mine
  let b := updDie b k fun d => { d with reqs := d.reqs.filter fun r => !mine r }
  forEach gone (fun r b =>
    let b := if r.sent then quarantine b k r.tag else b
    if onReq r.purpose then releaseHeld b k r.line else b) b

/-- CORE_DRAIN_TIMEOUT: the drain of a core's warm reset ends, with its duration in units of 10 ns (R268, R270). -/
def endDrain (b : Block) (i last : Nat) : Block :=
  let k := hartDie i
  let c := hartCore i
  if (getDie b k).draining.contains c = false then b
  else
    let n := (getHart b i).sb.length
    let r := FCD_CORE_DRAIN k c
    let b := fset b r FCD_CORE_DRAIN_LAST_DRAIN last
    let b := if n = 0 then b
      else raise (bumpFld b r FCD_CORE_DRAIN_DISCARDED n) k c 12 2 sevDefer 0 (place r 43 8) 0
    let b := abandon b i
    let b := updHart b i fun h => { h with sb := [], waiting := [], ms := none, fetched := [], fences := [] }
    let b := updDie b k fun d => { d with
      draining := d.draining.filter fun x => x != c, flushing := d.flushing ++ [c] }
    msCheckDie (flushGo b i) k

def execCoreDrainTimeout (hart : Hart) (lastDrain : Fin 401) (s : State) : Host.Outcome State Fault Refusal :=
  nextBlk s (endDrain s.blk hart.val lastDrain.val)

/-! ## Compute dies (R376 to R383) -/

/-- Remove the cells of a table whose key satisfies `p`. -/
def tabDrop {α : Type} (t : Tab α) (p : Nat → Bool) : Tab α := { cells := t.cells.filter fun c => !p c.1 }

/-- Does an offset lie in the FCDk block? -/
def inFcd (k off : Nat) : Bool := decide (fcdBase k ≤ off ∧ off < fcdBase k + 0x10_0000)

/-- Clear a milepost register's bits, each with its record (R72). -/
def clearDieMileposts (k : Nat) (b : Block) : Block := forEach (List.range 22) (fun i b => setDieMilepost b k i false) b

/-- Reset a compute die: its cores, caches, feeder stop, feeder end and registers; it stays in reset (R376, R378).
`keepLock` holds FCD_LOCK through a partition reset. -/
def resetDie (b : Block) (k scope : Nat) (keepLock : Bool := false) : Block :=
  let lock := rd b (FCD_LOCK k)
  let b := clearDieMileposts k b
  let b := { b with
    regs := tabDrop b.regs (inFcd k)
    coal := tabDrop b.coal fun c => inFcd k (c / 64)
    harts := tabDrop b.harts fun i => i / 20 == k
    csrs := tabDrop b.csrs fun c => c / 4096 / 20 == k
    dies := b.dies.set {} k {}
    links := b.links.set {} (16 + k) {}
    inbox := tabDrop b.inbox fun c => c / 8 == boxDie k
    evSeq := tabDrop b.evSeq fun c => c / 256 == k }
  let b := if keepLock then wr b (FCD_LOCK k) lock else b
  fset b (FCD_RESET_STATUS k) FCD_RESET_STATUS_LAST_SCOPE scope

/-- A die leaves reset with its cores held: its clocks run from the package's reference, its time counter is aligned, its ring
road and core clusters are ready, and its feeder end enters LOCK (R99, R366, R378). -/
def freeDie (b : Block) (k : Nat) : Block :=
  if (getDie b k).inReset = false then b
  else
    let b := updDie b k fun d => { d with inReset := false }
    let b := alignTime k b
    let source := fget b (HUB_CLK_STATUS (dieHub k)) HUB_CLK_STATUS_SOURCE
    let b := fset b (FCD_CLK_STATUS k) HUB_CLK_STATUS_SOURCE source
    let b := setDieMilepost b k 20 true
    let b := forEach (List.range 20) (fun c b => setDieMilepost b k c true) b
    enterLock b (.die (dieOf k)) false

/-- UNDIRECTED_DIE_RESET (R381): the die is reset and comes back with its cores held; its loss is declared by its link. -/
def undirected (b : Block) (k : Nat) : Block :=
  if (getDie b k).inReset then b else freeDie (resetDie b k 3) k

def execUndirectedDieReset (die : Die) (s : State) : Host.Outcome State Fault Refusal :=
  nextBlk s (undirected s.blk die.val)

/-- RESET_VECTOR of a partition's running plan. -/
def partVector (b : Block) (p : Nat) : Nat := (b.pkg.running.ents.getD p {}).vector

/-- Address at which a die's cores start after a reset by TH_RESET: START_PA, or its partition's RESET_VECTOR (R399). -/
def startOf (b : Block) (k pa : Nat) : Nat := if pa ≠ 0 then pa else partVector b ((diePart b k).getD 0)

/-- Set or clear the phase of a reset of an agent. -/
def setRun (b : Block) (a v : Nat) : Block := { b with pkg := { b.pkg with resetRun := b.pkg.resetRun.set 0 a v } }
def getRun (b : Block) (a : Nat) : Nat := b.pkg.resetRun.get 0 a

/-- Admit an agent (R383 step 3). -/
def enrol (b : Block) (a : Nat) : Block :=
  { b with pkg := { b.pkg with admitted := if b.pkg.admitted.contains a then b.pkg.admitted else b.pkg.admitted ++ [a] } }

/-- Has a planned reset's evacuation ended: nothing buffered, cached or outstanding (R379 steps 1 to 5)? -/
def evacuated (b : Block) (k : Nat) : Bool :=
  (getDie b k).evacuating && (getDie b k).reqs.isEmpty &&
    (dieHarts k).all fun i =>
      let h := getHart b i
      h.sb.isEmpty && h.dest.isEmpty && h.waiting.isEmpty && h.wbs.isEmpty && (heldWays b i true).isEmpty

/-- EVACUATION_DONE (R379 step 6): the feeder is taken down, the die is declared lost and held in reset. -/
def evacDone (b : Block) (k : Nat) : Block :=
  if evacuated b k = false then b
  else
    let lost := (getDie b k).evacLost
    let b := { b with pkg := { b.pkg with resetLost := b.pkg.resetLost.set 0 k lost } }
    let b := linkTakeDown b (hubEnd k)
    let b := resetDie (declareLost b k 1) k 3
    let b := fset b (FCD_RESET_STATUS k) FCD_RESET_STATUS_EVACUATED 1
    setRun b k (4 + getRun b k % 2)

def execEvacuationDone (die : Die) (s : State) : Host.Outcome State Fault Refusal := nextBlk s (evacDone s.blk die.val)

/-- EVACUATION_TIMEOUT (R380): the cores resume; TH_RESET will return REFUSED. -/
def evacTimeout (b : Block) (k : Nat) : Block :=
  if (getDie b k).evacuating then
    setRun (updDie b k fun d => { d with evacuating := false }) k 8
  else b

def execEvacuationTimeout (die : Die) (s : State) : Host.Outcome State Fault Refusal :=
  nextBlk s (evacTimeout s.blk die.val)

/-! ## Guest sites (R17, R236, R238, R382, R533) -/

/-- Drive a site's reset land (R238): the milepost of the spur clears when the guest is held. -/
def guestHold (b : Block) (h : Hub) : Block :=
  if fon b (SPUR_GUEST_CTRL h) SPUR_GUEST_CTRL_RESET then b
  else fset b (SPUR_GUEST_CTRL h) SPUR_GUEST_CTRL_RESET 1

/-- Clear a site's RESET (R236 step 1, R533): only while GST_x_PG is high; a record otherwise. The next bring-up is the first
after the reset. -/
def guestFree (b : Block) (h : Hub) : Block :=
  if (getSpur b h).powerGood then
    updSpur (fset b (SPUR_GUEST_CTRL h) SPUR_GUEST_CTRL_RESET 0) h fun s => { s with fresh := true, rejoined := false }
  else raise b (agTh h) 0 9 4 sevInfo 0 (place (SPUR_GUEST_CTRL h) 43 8) (rd b (SPUR_GUEST_CTRL h))

/-- GST_PG_FALL (R533): GST_x_PG falls; a site that is not in reset is put into reset. -/
def guestPgFall (b : Block) (h : Hub) : Block :=
  let b := updSpur b h fun s => { s with powerGood := false }
  if fon b (SPUR_GUEST_CTRL h) SPUR_GUEST_CTRL_RESET then b
  else
    let b := guestHold b h
    raise b (agHome h) 38 9 4 sevUncorr 0 (place (SPUR_GUEST_CTRL h) 43 8) (rd b (SPUR_GUEST_CTRL h))

def execGstPgFall (hub : Hub) (s : State) : Host.Outcome State Fault Refusal := nextBlk s (guestPgFall s.blk hub)

/-- Reset a guest site without its direction (R382): RESET is set, and the spur is lost by its link. -/
def guestReset (b : Block) (h : Hub) (run : Nat) : Block :=
  let b := guestHold b h
  let b := enterDown b (.hub h 6) 1
  setRun b (agGuest h) run

/-- RESET_HOLD_EXPIRY (R379 step 7, R382): the 10 µs hold of an agent ends. -/
def holdExpiry (b : Block) (a : Nat) : Block :=
  let run := getRun b a
  if run / 2 ≠ 2 then b
  else if a < 12 then
    let b := linkStart (freeDie b a) (hubEnd a)
    setRun (enrol b a) a (6 + run % 2)
  else if run % 2 = 1 then b
  else
    let h := hubOf (a % 2)
    let b := linkStart (guestFree b h) (.hub h 6)
    setRun (enrol b a) a 6

def execResetHoldExpiry (agent : Fin 14) (s : State) : Host.Outcome State Fault Refusal :=
  nextBlk s (holdExpiry s.blk agent.val)

/-! ## Rejoining (R383) -/

/-- Hubs whose LOST and SCRUB bits concern an agent: both, or in the split state its own. -/
def lostHubs (b : Block) (a : Nat) : List Hub :=
  if isSplit b then [agentHub a] else [.n, .s]

/-- Does R383 hold for a lost agent? -/
def mayRejoin (b : Block) (a : Nat) : Bool :=
  let e := hubEnd a
  agentLost b (agentHub a) a && linkState b e == 5 && agentEpoch b a + 1 != b.pkg.lostEpoch.get 0 a &&
    (lostHubs b a).all (fun h => !bitOf (fget b (HUB_JCT_LOST h) HUB_JCT_LOST_SCRUB) a &&
      !b.pkg.lostWait.contains (waitKey h a)) &&
    b.pkg.admitted.contains a

/-- Clear an agent's LOST bit at a hub. -/
def clearLostBit (a : Nat) (h : Hub) (b : Block) : Block :=
  let r := HUB_JCT_LOST h
  fset b r HUB_JCT_LOST_LOST (putBits (fget b r HUB_JCT_LOST_LOST) a a 0)

/-- AGENT_REJOIN (R383, R399): the LOST bits clear, the mileposts set; then a die's cores are released unless they are to stay
held, and a guest receives REJOIN (R236). -/
def rejoin (b : Block) (a : Nat) : Block :=
  if mayRejoin b a = false then b
  else
    let h := agentHub a
    let lines := ((lostHubs b a).map fun h => b.pkg.scrubPoison.get 0 (h.idx * 32 + a)).foldl (· + ·) 0
    let b := forEach (lostHubs b a) (clearLostBit a) b
    let run := getRun b a
    let lost := b.pkg.resetLost.get 0 a % 2 ^ 32
    let b := { b with pkg := { b.pkg with
      admitted := b.pkg.admitted.filter fun x => x != a
      resetLost := b.pkg.resetLost.set 0 a (lost + lines * 2 ^ 32) } }
    if a < 12 then
      let b := setDieMilepost (setEndMilepost b h (a % 6) true) a 21 true
      let b := if run = 6 then forEach (dieHarts a) (releaseCore (startOf b a (b.pkg.startPa.get 0 a))) b else b
      setRun b a 0
    else setRun (guestJoin b h) a 0

def execAgentRejoin (agent : Fin 14) (s : State) : Host.Outcome State Fault Refusal :=
  nextBlk s (rejoin s.blk agent.val)

/-! ## The partition plan (R384 to R387, R39) -/

/-- Channels of a set of quarters (R15). -/
def maskChans (m : Nat) : List Nat := (List.range 16).filter fun c => bitOf m (c / 4)

/-- Capacity of a group of quarters in GiB (R39). -/
def maskGib (b : Block) (m : Nat) : Nat :=
  ((maskChans m).map fun c => (getChan b c).capacity).foldl (· + ·) 0 / 2 ^ 30

/-- Do the channels of a group have one capacity? -/
def maskEven (b : Block) (m : Nat) : Bool :=
  match maskChans m with
  | [] => true
  | c :: r => r.all fun x => (getChan b x).capacity == (getChan b c).capacity

/-- Quarter sets of a partition's groups, in order (R33, R387). -/
def entMasks (e : PlanEnt) : List Nat :=
  match e.mode with
  | 0 => if e.qmask = 0 then [] else [e.qmask]
  | 1 => [e.qmask &&& 3, e.qmask &&& 12].filter (· != 0)
  | 2 => [1, 2, 4, 8].filter fun m => (e.qmask &&& m) != 0
  | _ => []

/-- Groups of a list of quarter sets from a base up: base, size in GiB and set. -/
def stackGroups (b : Block) : Nat → List Nat → List (Nat × Nat × Nat)
  | _, [] => []
  | base, m :: r => (base, maskGib b m, m) :: stackGroups b (base + maskGib b m) r

/-- Groups of a partition (R387). -/
def entGroups (b : Block) (e : PlanEnt) : List (Nat × Nat × Nat) := stackGroups b e.memBase (entMasks e)

/-- Fields of a guest site's byte of a plan: assigned, partition, CLASS_ALLOW, SECURE_OK. -/
def siteAssigned (v : Nat) : Bool := bitOf v 2
def siteTo (v : Nat) : Nat := bitsOf v 1 0
def siteClass (v : Nat) : Nat := bitsOf v 4 3
def siteSecure (v : Nat) : Nat := bitsOf v 5 5

def planSite (p : Plan) (h : Hub) : Nat :=
  match h with
  | .n => p.spurN
  | .s => p.spurS

/-- Is a partition's entry valid (R386)? -/
def entValid (b : Block) (e : PlanEnt) : Bool :=
  let gs := entGroups b e
  qmaskOk e.qmask && decide (e.mode ≤ 2) && gs.all (fun g => maskEven b g.2.2 &&
      decide ((g.1 + g.2.1) * 2 ^ 30 ≤ 0xF_FF00_0000_0000)) &&
    e.vector % 4096 == 0 && gs.any (fun g => decide (g.1 * 2 ^ 30 ≤ e.vector ∧ e.vector < (g.1 + g.2.1) * 2 ^ 30))

/-- Is a guest site's assignment valid (R17, R386)? -/
def siteValid (p : Plan) (h : Hub) : Bool :=
  let v := planSite p h
  !siteAssigned v || (siteClass v != 3 && ((p.ents.getD (siteTo v) {}).qmask / 4 ^ h.idx % 4 != 0))

/-- Is a plan valid (R386)? -/
def planValid (b : Block) (p : Plan) : Bool :=
  let es := p.ents.filter fun e => e.qmask != 0
  es.all (entValid b) && [1, 2, 4, 8].all (fun m => decide ((es.filter fun e => (e.qmask &&& m) != 0).length ≤ 1)) &&
    siteValid p .n && siteValid p .s

/-! ## Formation (R375 steps 6 and 8, R387, R388) -/

/-- Value of HUB_HOME_GROUP for a group of this package. -/
def groupWord (b : Block) (part : Nat) (g : Nat × Nat × Nat) : Nat :=
  place (pkgNo b) 58 56 + place g.2.2 55 52 + place g.1 51 30 + place part 17 16 + place g.2.1 15 0

/-- Words of the home groups of a plan, in order of index (R387). -/
def planWords (b : Block) (p : Plan) : List Nat :=
  (List.range 4).flatMap fun n => (entGroups b (p.ents.getD n {})).map (groupWord b n)

/-- Groups of other packages, which follow those of the plan (R488). -/
def foreignWords (b : Block) : List Nat :=
  ((List.range 32).map fun g => rd b (HUB_HOME_GROUP .n g)).filter fun w =>
    bitsOf w 15 0 != 0 && bitsOf w 58 56 != pkgNo b

/-- Write the home groups of both hubs and their copies. -/
def writeGroups (b : Block) (ws : List Nat) : Block :=
  forEach (List.range 32) (fun g b => wr (wr b (HUB_HOME_GROUP .n g) (ws.getD g 0)) (HUB_HOME_GROUP .s g) (ws.getD g 0)) b

/-- Show the quarters, modes and states of the partitions at both hubs (R389): `held` lists the partitions newly formed. -/
def showParts (b : Block) (p : Plan) (held : List Nat) : Block :=
  let ent (n : Nat) : PlanEnt := p.ents.getD n {}
  let owner (q : Nat) : Option Nat := (List.range 4).find? fun n => bitOf (ent n).qmask q
  let owners := ((List.range 4).map fun q => (owner q).getD 0 * 4 ^ q).foldl (· + ·) 0
  let used := ((List.range 4).map fun q => b2n (owner q).isSome * 2 ^ q).foldl (· + ·) 0
  let modes := ((List.range 4).map fun n => (if (ent n).qmask = 0 then 3 else (ent n).mode) * 4 ^ n).foldl (· + ·) 0
  let one (h : Hub) (b : Block) : Block :=
    let r := HUB_PART_STATE h
    let state (n : Nat) : Nat := if (ent n).qmask = 0 then 0 else if held.contains n then 1 else partState b h n
    let states := ((List.range 4).map fun n => state n * 4 ^ n).foldl (· + ·) 0
    wr b r (place owners 31 24 + place used 23 20 + place modes 15 8 + place states 7 0)
  one .s (one .n b)

/-- Give a partition a state at both hubs. -/
def setPartState (b : Block) (p v : Nat) : Block :=
  let one (h : Hub) (b : Block) : Block :=
    let r := HUB_PART_STATE h
    fset b r HUB_PART_STATE_STATE (putBits (fget b r HUB_PART_STATE_STATE) (2 * p + 1) (2 * p) v)
  one .s (one .n b)

/-- Release the dies of a set of quarters from reset and start their feeders (R375 step 6). -/
def startDies (b : Block) (qmask : Nat) : Block :=
  forEach ((List.range 12).filter fun k => bitOf qmask (dieQuarter k)) (fun k b => linkStart (freeDie b k) (hubEnd k)) b

/-- Assign a guest site by a plan (R236 step 1): RESET is set where the assignment goes, and the spur starts where it
comes. -/
def assignSite (p : Plan) (h : Hub) (b : Block) : Block :=
  let v := planSite p h
  let r := SPUR_GUEST_CTRL h
  if siteAssigned v then
    let b := fset (fset b r SPUR_GUEST_CTRL_ASSIGNED 1) r SPUR_GUEST_CTRL_PART (siteTo v)
    let b := fset (fset b r SPUR_GUEST_CTRL_CLASS_ALLOW (siteClass v)) r SPUR_GUEST_CTRL_SECURE_OK (siteSecure v)
    let b := guestFree b h
    if fon b r SPUR_GUEST_CTRL_RESET then b else linkStart b (.hub h 6)
  else
    let b := guestHold (setEndMilepost b h 6 false) h
    fset b r SPUR_GUEST_CTRL_ASSIGNED 0

/-- Set the lock bits of the hubs and of the dies in use (R36). -/
def setLocks (b : Block) (qmask : Nat) : Block :=
  let b := fset (fset b (HUB_LOCK .n) HUB_LOCK_LOCK 1) (HUB_LOCK .s) HUB_LOCK_LOCK 1
  forEach ((List.range 12).filter fun k => bitOf qmask (dieQuarter k)) (fun k b => fset b (FCD_LOCK k) FCD_LOCK_LOCK 1) b

/-- A partition ceiling is PK1 when the partition is formed (R403); the exit from PK5 restores the ceilings (R402). -/
def formCeilings (b : Block) (parts : List Nat) : Block :=
  if b.pkg.resumePk5 then b
  else { b with power := { b.power with partCeil := parts.foldl (fun t p => t.set {} p {}) b.power.partCeil } }

/-- Quarters of a plan's partitions. -/
def planQuarters (p : Plan) (parts : List Nat) : Nat :=
  (parts.map fun n => (p.ents.getD n {}).qmask).foldl (· ||| ·) 0

/-- Form partitions of a plan (R375 step 8): the groups, the states, the guest sites, the locks. -/
def formParts (b : Block) (p : Plan) (parts : List Nat) (sites : List Hub) : Block :=
  let b := writeGroups b (planWords b p ++ foreignWords b)
  let b := showParts b p parts
  let b := { b with pkg := { b.pkg with running := p } }
  let b := formCeilings b parts
  let b := forEach sites (assignSite p) b
  setLocks b (planQuarters p parts)

/-- Partitions whose entry differs from the running plan, or whose guest site changes (R388). -/
def changedParts (old new : Plan) : List Nat :=
  let touches (n : Nat) (h : Hub) : Bool :=
    planSite old h != planSite new h &&
      ((siteAssigned (planSite old h) && siteTo (planSite old h) == n) ||
        (siteAssigned (planSite new h) && siteTo (planSite new h) == n))
  (List.range 4).filter fun n => old.ents.getD n {} != new.ents.getD n {} || touches n .n || touches n .s

/-- Partitions that APPLY_NOW asks to be HELD (R388): those changed or removed, and the owners of quarters claimed. -/
def mustBeHeld (b : Block) (new : Plan) : List Nat :=
  let old := b.pkg.running
  let ch := changedParts old new
  let claimed := planQuarters new ch
  (List.range 4).filter fun n =>
    (old.ents.getD n {}).qmask != 0 && (ch.contains n || ((old.ents.getD n {}).qmask &&& claimed) != 0)

/-! ## Objects (R65 to R70) -/

/-- Key of an object. -/
def objKey (ty ix : Nat) : Nat := ty * 65536 + ix

/-- The next generation of an index (R68). -/
def nextGen (g : Nat) : Nat := if g = 255 then 1 else g + 1

/-- An index's object is destroyed: its generation advances and it returns to the pool (R68, R69). -/
def freeObj (key : Nat) (b : Block) : Block :=
  let n := b.pkg.freeSerial + 1
  let b := { b with pkg := { b.pkg with freeSerial := n } }
  { b with objs := b.objs.upd {} key fun o => { gen := nextGen o.gen, freed := n } }

/-- A destruction begins that waits for the object's traffic: the generation advances at once (R445). -/
def retireObj (key : Nat) (b : Block) : Block :=
  { b with objs := b.objs.upd {} key fun o => { o with gen := nextGen o.gen, destroying := true } }

/-- The index of such an object returns to its pool (R69). -/
def returnObj (key : Nat) (b : Block) : Block :=
  let n := b.pkg.freeSerial + 1
  let b := { b with pkg := { b.pkg with freeSerial := n } }
  { b with objs := b.objs.upd {} key fun o => { gen := o.gen, freed := n } }

/-- Destroy every object that satisfies `p`. -/
def freeObjs (b : Block) (p : Obj → Bool) : Block :=
  forEach ((b.objs.cells.filter fun c => c.2.live && p c.2).map (·.1)) freeObj b

/-! ## Home slices, channels and the rest of a quarter at a reset (R376, R389) -/

/-- Write a line to DRAM at a reset, where its channel serves; a line of a KIND 1 window goes to its device. -/
def flushLine (h : Hub) (s : Nat) (l : ScLine) (x : Block × Dram) : Block × Dram :=
  match decodePa x.1 h (slicePart x.1 h s) (l.line * 64) with
  | .group _ _ spot =>
    if chanReady x.1 (hubOf (spot.chan / 8)) (spot.chan % 8) then
      (x.1, x.2.writeLine spot.chan spot.ma l.data l.poison) else x
  | .win _ _ 1 _ => (memWrite x.1 h s none (slicePart x.1 h s) l.line l.data l.poison false, x.2)
  | _ => x

/-- The writes that a channel holds reach DRAM, in order of age; those of a frozen channel are discarded. -/
def flushChan (pc : Nat) (x : Block × Dram) : Block × Dram :=
  let ch := getChan x.1 pc
  let h := hubOf (pc / 8)
  if fon x.1 (MC_FREEZE_STATUS h (pc % 8)) MC_FREEZE_STATUS_FROZEN then x
  else
    let ws := ch.writes.map (·.req) ++ ch.input.filter (·.write)
    (x.1, ws.foldl (fun d w => d.writeLine pc w.ma w.data w.poison) x.2)

/-- The dirty lines of a slice go to memory, and the slice is cleared with its lock and its counters (R389); ways out of use stay
so (R293). -/
def resetSlice (h : Hub) (s : Nat) (x : Block × Dram) : Block × Dram :=
  let dirty := (getSlice x.1 h s).sc.cells.filter fun c => c.2.valid && c.2.dirty
  let x := dirty.foldl (fun x c => flushLine h s c.2 x) x
  let base := sliceSet h s
  let b := { x.1 with
    slices := x.1.slices.set {} (h.idx * 32 + s) { dead := (getSlice x.1 h s).dead }
    regs := tabDrop x.1.regs fun o => decide (base ≤ o ∧ o < base + 0x100)
    inbox := tabDrop x.1.inbox fun c => c / 8 == boxSlice h s }
  (fset b (HUB_SC_LOCK h) (if s < 16 then HUB_SC_LOCK_WAYS_LO else HUB_SC_LOCK_WAYS_HI) 0, x.2)

/-- A channel is reset and retrains without a fill (R332): its milepost clears until CHANNEL_FILL_DONE. -/
def resetChan (pc : Nat) (b : Block) : Block :=
  let h := hubOf (pc / 8)
  let c := pc % 8
  let ch := getChan b pc
  if ch.capacity = 0 then b
  else
    let b := setChanReady b h c false
    let b := fset b (MC_FREEZE_STATUS h c) MC_FREEZE_STATUS_FROZEN 0
    updChan b pc fun ch => { dump := ch.dump, retain := ch.retain, capacity := ch.capacity, filling := true, keep := 0xFFFF }

/-- A root port is reset: its link goes down until DL_ACTIVE, and what was under way through it is dropped. -/
def resetPort (h : Hub) (p : Nat) (b : Block) : Block :=
  let port : Option (Fin 16) := some (Fin.ofNat 16 p)
  let wins := (List.range 64).filter fun w => fget b (HUB_HPW_BASE h w) HUB_HPW_BASE_PORT == p
  let tags := ((getIo b h).waits.filter fun w => w.port == port).map (·.tag)
  let cfgs := ((getIo b h).pcie.filter fun r => r.port == port).map (·.tag)
  let hit (f : FlushWait) : Bool := f.windows.any (fun y => wins.contains y.1) || f.cfgs.any cfgs.contains
  let b := updIo b h fun i => { i with
    pcie := i.pcie.filter (fun r => r.port != port)
    waits := i.waits.filter (fun w => w.port != port)
    held := i.held.filter (fun e => e.port != port)
    reqs := i.reqs.filter (fun r => !tags.contains r.tag)
    wins := i.wins.filter (fun x => !wins.contains x.window)
    flushes := i.flushes.filter fun f => !hit f }
  updPort (setPortReady b h p false) h p fun _ => {}

/-- An always-on or created ring's registers return to their reset values. -/
def resetRegs (lo n : Nat) (b : Block) : Block :=
  { b with
    regs := tabDrop b.regs fun o => decide (lo ≤ o ∧ o < lo + n)
    coal := tabDrop b.coal fun o => decide (lo ≤ o / 64 ∧ o / 64 < lo + n) }

/-- Destroy a data-mover channel of a partition, its page with it. -/
def dropDmChan (h : Hub) (n : Nat) (b : Block) : Block :=
  resetRegs (DM_CH_DOORBELL h n) 0x1000 (updChanDm b h n fun _ => {})

/-- Destroy an event ring of a partition. -/
def dropRing (key : Nat) (b : Block) : Block :=
  resetRegs (hubBase (hubOf (key / 64)) + 0x7_0000 + key % 64 * 0x100) 0x100
    { b with rings := b.rings.set {} key {} }

/-- Requests of a data mover that belong to no channel any more are dropped. -/
def dropDmReqs (h : Hub) (b : Block) : Block :=
  updMover b h fun m =>
    let live (t : Nat) : Bool := m.chans.cells.any fun c => c.2.parts.any fun p => p.tag == t
    { m with reqs := m.reqs.filter fun r => live r.tag }

/-- Destroy the objects of a partition (R68): channels, rings, regions. -/
def dropObjects (b : Block) (p : Nat) : Block :=
  let mine (ty : Nat) : List Nat :=
    (b.objs.cells.filter fun c => c.1 / 65536 == ty && c.2.live && c.2.part == p).map fun c => c.1 % 65536
  let b := forEach (mine 1) (fun i b => dropDmChan (hubOf (i / 2048)) (i % 2048) b) b
  let b := dropDmReqs .s (dropDmReqs .n b)
  let b := forEach (mine 2) (fun i b => dropRing i b) b
  let b := forEach (mine 5) (fun i b =>
    let h := hubOf (i / 64)
    wr (wr b (HUB_WORLD_REGION_BASE h (i % 64)) 0) (HUB_WORLD_REGION_SIZE h (i % 64)) 0) b
  freeObjs b fun o => o.part == p

/-- Clear the stored responses of a partition's pages (R58, R376). -/
def clearStored (b : Block) (m : Nat) : Block :=
  let b := updMbx b m fun x => { x with storedDry := false, stored0 := 0, stored1 := 0, storedPayload := [] }
  fset b (TH_MBX_STATE m) TH_MBX_STATE_HAVE_LAST 0

/-- Begin a partition reset (R389 step 1): its state, and the drain of each core of a die that is not lost. -/
def beginPartReset (b : Block) (p : Nat) : Block :=
  let b := setPartState b p 3
  let dies := (List.range 12).filter fun k => diePart b k == some p && !agentLost b (dieHub k) k
  forEach dies (fun k b => forEach (dieHarts k) beginDrain b) b

/-- Have the cores of a partition drained? -/
def partDrained (b : Block) (p : Nat) : Bool :=
  (List.range 12).all fun k => diePart b k != some p || (dieHarts k).all fun i => !drains b i

/-- Reset a partition once its cores have drained (R376, R389): slices, channels, objects, root ports, dies; the guest
site is held. -/
def resetPart (x : Block × Dram) (p : Nat) : Block × Dram :=
  let qs := partQuarters x.1 p
  let chans := qs.flatMap fun q => (List.range 4).map (4 * q + ·)
  let x := chans.foldl (fun x c => flushChan c x) x
  let slices := qs.flatMap fun q => (List.range 16).map fun s => (quarterHub q, q % 2 * 16 + s)
  let x := slices.foldl (fun x hs => resetSlice hs.1 hs.2 x) x
  let b := dropObjects x.1 p
  let b := forEach chans resetChan b
  let b := forEach qs (fun q b => forEach (List.range 8) (fun n b => resetPort (quarterHub q) (q % 2 * 8 + n) b) b) b
  let b := forEach qs (fun q b => forEach (List.range 32) (fun n b =>
    let h := quarterHub q
    let w := q % 2 * 32 + n
    wr (wr b (HUB_HPW_BASE h w) 0) (HUB_HPW_SIZE h w) 0) b) b
  let b := forEach [Hub.n, Hub.s] (fun h b => updIo b h fun i => { i with
    iommu := tabDrop i.iommu fun k => k / 8192 == p
    aplicPart := { cells := i.aplicPart.cells.filter fun c => c.2 != p + 1 } }) b
  let b := forEach ((List.range 4).map (4 * p + ·)) (fun m b => clearStored b m) b
  let b := forEach [Hub.n, Hub.s] (fun h b =>
    if sitePart b h = some p then guestHold (setEndMilepost b h 6 false) h else b) b
  let dies := (List.range 12).filter fun k => diePart b k == some p
  let one (k : Nat) (b : Block) : Block :=
    let h := dieHub k
    let b := resetDie (setEndMilepost b h (k % 6) false) k 2 true
    let b := setLinkState (updLink b (hubEnd k) fun _ => {}) (hubEnd k) 0
    linkStart (freeDie b k) (hubEnd k)
  (setPartState (forEach dies one b) p 1, x.2)

/-! ## Release (R390, R415) -/

/-- The home group that holds an address of a partition, as its word. -/
def groupHolding (b : Block) (p pa : Nat) : Option Nat := (groupOf b .n p pa).map fun g => rd b (HUB_HOME_GROUP .n g)

/-- Is every channel of the group that holds RESET_VECTOR ready, and every joined die's ring road? -/
def releaseReady (b : Block) (p : Nat) : Bool :=
  (match groupHolding b p (partVector b p) with
   | some w => (maskChans (bitsOf w 55 52)).all fun c => chanReady b (hubOf (c / 8)) (c % 8)
   | none => false) &&
  (List.range 12).all fun k =>
    !(diePart b k == some p && endMilepost b (dieHub k) (k % 6)) || bitOf (rd b (FCD_MILEPOST k)) 20

/-- Write the loader from an address on: byte `n − 1` first (R390). -/
def writeLoader (b : Block) (p pa : Nat) : Nat → Dram → Dram
  | 0, d => d
  | n + 1, d =>
    let d := writeLoader b p pa n d
    match decodePa b .n p (pa + n) with
    | .group _ _ spot => d.setByte (dramAddr spot.chan spot.ma) (Config.loaderByte n)
    | _ => d

/-- Length of the loader: it is part of an image of at most 1.5 MiB (R46). -/
def loaderSize : Nat := min Config.loaderLength 1572864

/-- PARTITION_RELEASE: the loader is written to RESET_VECTOR and the cores are released there; after PK5 they start at
RESUME_PA with a0 = 5 and a1 the wake-source code (R415). -/
def releasePart (x : Block × Dram) (p : Nat) : Block × Dram :=
  let b := x.1
  if b.pkg.releaseDue.contains p = false ∨ releaseReady b p = false then x
  else
    let d := writeLoader b p (partVector b p) loaderSize x.2
    let pa := if b.pkg.resumePk5 ∧ (b.power.partCeil.get {} p).resume ≠ 0 then (b.power.partCeil.get {} p).resume
      else partVector b p
    let dies := (List.range 12).filter fun k => diePart b k == some p && endMilepost b (dieHub k) (k % 6)
    let args (i : Nat) (b : Block) : Block :=
      if b.pkg.resumePk5 then setX (setX b i 10 5) i 11 (BitVec.ofNat 64 b.pkg.wakeCode) else b
    let b := forEach dies (fun k b => forEach (dieHarts k) (fun i b => args i (releaseCore pa i b)) b) b
    let due := b.pkg.releaseDue.filter fun q => q != p
    let b := { b with pkg := { b.pkg with releaseDue := due, resumePk5 := b.pkg.resumePk5 && !due.isEmpty } }
    (setPartState b p 2, d)

def execPartitionRelease (part : Fin 4) (s : State) : Host.Outcome State Fault Refusal :=
  nextMem s (releasePart (s.blk, s.dram) part.val)

/-- A partition is to be released when R390 holds. -/
def releaseLater (b : Block) (p : Nat) : Block :=
  { b with pkg := { b.pkg with
    releaseDue := if b.pkg.releaseDue.contains p then b.pkg.releaseDue else b.pkg.releaseDue ++ [p] } }

/-! ## The end of the split (R397) -/

/-- What forbids TH_SPLIT_END, as its DETAIL (R397). -/
def splitEndRefused (b : Block) : Option Nat :=
  let spans (p : Nat) : Bool := (partHubs b p).length == 2
  if linkState b (.hub .n 7) ≠ 5 ∨ linkState b (.hub .s 7) ≠ 5 then some 1
  else if (List.range 4).any fun p => spans p && (partState b .n p != 1 || partState b .s p != 1) then some 2
  else if [Hub.n, Hub.s].any fun h => fon b (HUB_JCT_LOST h) HUB_JCT_LOST_SCRUB ||
      fon b (HWY_FABRIC_STATUS h) HWY_FABRIC_STATUS_FAB_SCRUB then some 3
  else none

/-- The far agents rejoin at a hub but those lost to their own hub too. -/
def rejoinFar (h : Hub) (b : Block) : Block :=
  let b := forEach (halfAgents h.other) (fun a b => if agentLost b h.other a then b else clearLostBit a h b) b
  fset b (HUB_JCT_LOST h) HUB_JCT_LOST_FAR_HUB 0

/-- End the split state: the far agents rejoin, the counters are aligned, SPLIT clears, the causeway's mileposts set, and the
south half takes the forwarded reference where the package runs from the fallback (R397, R368). -/
def endSplit (b : Block) : Block :=
  let b := rejoinFar .s (rejoinFar .n b)
  let b := { b with pkg := { b.pkg with lostWait := b.pkg.lostWait.filter fun k =>
    if k % 64 < 32 then (agentHub (k % 64)).idx == k / 64 else pkgLost b (hubOf (k / 64)) (k % 64 - 32) } }
  let one (h : Hub) (b : Block) : Block := setEndMilepost (fset b (HUB_SPLIT_STATUS h) HUB_SPLIT_STATUS_SPLIT 0) h 7 true
  let b := alignAll (one .s (one .n b))
  if fget b (HUB_CLK_STATUS .n) HUB_CLK_STATUS_SOURCE = 1 then
    forEach (clockUnits.filter unitSouth) (unitSwitch 1) b else b

end Sys2Proof.Machine
end

