-- ==== Sys2Proof/Machine/Mover.lean ====
section
/-! DEFINITION. The data mover: descriptors, lists, stretches, the bulk port, completion, failures and channel states
(chapter 14; R467 and R468 for the channels of an endpoint function). -/

namespace Sys2Proof.Machine

/-! ## Parts of a channel -/

def chanState (b : Block) (h : Hub) (n : Nat) : Nat := fget b (DM_CH_STATUS h n) DM_CH_STATUS_STATE
def setChanState (b : Block) (h : Hub) (n v : Nat) : Block := fset b (DM_CH_STATUS h n) DM_CH_STATUS_STATE v
def chanHead (b : Block) (h : Hub) (n : Nat) : Nat := fget b (DM_CH_STATUS h n) DM_CH_STATUS_HEAD
def chanTail (b : Block) (h : Hub) (n : Nat) : Nat := fget b (DM_CH_DOORBELL h n) DM_CH_DOORBELL_TAIL
def chanOrder (b : Block) (h : Hub) (n : Nat) : Nat := fget b (DM_CH_RING h n) DM_CH_RING_ORDER

/-- Partition under which a channel's addresses are decoded. -/
def chanPart (c : DmChan) : Nat := c.part.getD 0

def updProg (b : Block) (h : Hub) (n : Nat) (f : Progress → Progress) : Block :=
  updChanDm b h n fun c => { c with prog := f c.prog }

/-- Fields of CTRL (R428). -/
def dOp (d : Desc) : Nat := d.ctrl.toNat % 16
def dSrcSg (d : Desc) : Bool := bitOf d.ctrl.toNat 4
def dDstSg (d : Desc) : Bool := bitOf d.ctrl.toNat 5
def dIrq (d : Desc) : Bool := bitOf d.ctrl.toNat 6
def dHint (d : Desc) : Nat := bitsOf d.ctrl.toNat 9 8
def dLen (d : Desc) : Nat := d.length.toNat + 1

abbrev dmCopy : Nat := 1
abbrev dmFill : Nat := 2
abbrev dmCompare : Nat := 3
abbrev dmCrc : Nat := 4

/-- Does an operation read SRC, use DST as an address, and write (R429)? -/
def opReadsSrc (op : Nat) : Bool := op != dmFill
def opHasDst (op : Nat) : Bool := op != dmCrc
def opWrites (op : Nat) : Bool := op == dmCopy || op == dmFill

/-- Does a descriptor fail before any access (R430)? -/
def badDesc (d : Desc) : Bool :=
  let op := dOp d
  let past (a : Word) : Bool := decide (2 ^ 64 < a.toNat + dLen d)
  !(decide (1 ≤ op ∧ op ≤ 4)) || decide (d.ctrl.toNat / 1024 ≠ 0) || bitOf d.ctrl.toNat 7 ||
    (op == dmFill && dSrcSg d) || (op == dmCrc && (dDstSg d || decide (2 ^ 32 ≤ d.dst.toNat))) ||
    decide (d.cmpl.toNat % 16 ≠ 0) || (opReadsSrc op && !dSrcSg d && past d.src) ||
    (opHasDst op && !dDstSg d && past d.dst)

/-- Bytes completed so far. -/
def doneBytes (p : Progress) : Nat := p.done + (p.st.map (·.count)).getD 0

/-! ## CRC-32C (R429) -/

/-- One bit of the reflected CRC with generator 0x1EDC6F41. -/
def crc32cBit (c : Nat) : Nat := if c % 2 = 1 then c / 2 ^^^ 0x82F63B78 else c / 2

/-- One byte. -/
def crc32cByte (c byte : Nat) : Nat :=
  crc32cBit (crc32cBit (crc32cBit (crc32cBit (crc32cBit (crc32cBit (crc32cBit (crc32cBit (c ^^^ byte))))))))

/-- CRC-32C of bytes, by R429 with SEED 0. -/
def crc32c (bytes : List Byte) : Nat := bytes.foldl (fun c x => crc32cByte c x.toNat) 0xFFFF_FFFF ^^^ 0xFFFF_FFFF

/-- Start a descriptor: for CRC32C its register takes the seed. -/
def startDesc (d : Desc) (p : Progress) : Progress :=
  { p with
    desc := some d
    crc := if dOp d = dmCrc then BitVec.ofNat 32 (d.dst.toNat % 2 ^ 32 ^^^ 0xFFFF_FFFF) else 0xFFFF_FFFF
    srcEnt := if dSrcSg d then d.src.toNat else 0
    dstEnt := if dDstSg d then d.dst.toNat else 0 }

/-! ## Lists (R431) -/

/-- Take a list entry in: the next list, an entry, or none where it is bad. -/
def listEntry (v : Nat) : Option (Nat ⊕ (Nat × Nat × Bool)) :=
  let addr := v % 2 ^ 64
  let len := bitsOf v 95 64
  let flags := bitsOf v 103 96
  let last := bitOf flags 0
  let chain := bitOf flags 1
  if bitsOf v 127 104 ≠ 0 ∨ flags / 4 ≠ 0 ∨ (last && chain) = true ∨ (chain = true ∧ len ≠ 0) then none
  else if chain then some (.inl addr) else some (.inr (addr, len + 1, last))

/-- Bytes of an entry used: where it is used up the walk goes on to the next entry, unless it was the last. -/
def useEntry (ent used : Nat) (cur : Option (Nat × Nat × Bool)) (n : Nat) : Nat × Nat × Option (Nat × Nat × Bool) :=
  match cur with
  | none => (ent, used, none)
  | some (a, len, last) =>
    if used + n < len ∨ last = true then (ent, used + n, some (a, len, last)) else (ent + 16, 0, none)

/-- Is the last entry of a list used up? -/
def usedUp (used : Nat) (cur : Option (Nat × Nat × Bool)) : Bool :=
  match cur with
  | some (_, len, last) => last && decide (len ≤ used)
  | none => false

/-- Fold what a stretch has done into the progress, and drop the stretch. -/
def foldStretch (p : Progress) : Progress :=
  match p.st, p.desc with
  | some st, some d =>
    let s := if dSrcSg d then useEntry p.srcEnt p.srcUsed p.srcCur st.count else (0, 0, none)
    let t := if dDstSg d then useEntry p.dstEnt p.dstUsed p.dstCur st.count else (0, 0, none)
    { p with st := none, done := p.done + st.count, srcEnt := s.1, srcUsed := s.2.1, srcCur := s.2.2
             dstEnt := t.1, dstUsed := t.2.1, dstCur := t.2.2 }
  | _, _ => { p with st := none }

/-! ## Failures (R437) -/

/-- Enter in error: ERROR and STATE; the record, the MSI and the event record are due. -/
def enterError (b : Block) (h : Hub) (n code : Nat) : Block :=
  let c := getChanDm b h n
  let r := DM_CH_STATUS h n
  let b := fset (setChanState b h n 4) r DM_CH_STATUS_ERROR code
  let due : DmDue := { status := code, bytes := doneBytes c.prog, cmpl := (c.prog.desc.map (·.cmpl.toNat)).getD 0, irq := true }
  updChanDm (bump b (CNT_DM h c.engine 4)) h n fun c =>
    { c with due := some due, stopping := false, prog := { foldStretch c.prog with fail := none } }

/-- A channel that backed a function is freed; a function under destruction goes with its last channel, its window table and its
registers with it (TH_EP_FUNCTION_DESTROY). -/
def dropFnChan (h : Hub) (f n : Nat) (b : Block) : Block :=
  let gone (x : EpFn) : EpFn := { x with channels := x.channels.filter (· != n) }
  let b := updIo b h fun i => { i with ep := { i.ep with fns := i.ep.fns.upd {} f gone } }
  let key := objKey 3 (h.idx * 256 + f)
  if (b.objs.get {} key).destroying && ((getIo b h).ep.fns.get {} f).channels.isEmpty then
    let b := updIo b h fun i => { i with ep := { i.ep with fns := i.ep.fns.set {} f {} } }
    let b := resetRegs (EP_WIN_COMMIT h f) 8 (resetRegs (EP_WIN_ACT_LO h f 0) 0x800 b)
    returnObj (objKey 4 (h.idx * 256 + f)) (returnObj key b)
  else b

/-- Where a channel waits for its issued requests and they have completed: a failure takes effect, a freeze ends, an FLR
returns it to created with its page at reset values (R474), and a channel being destroyed is freed (R445). -/
def settleChan (b : Block) (h : Hub) (n : Nat) : Block :=
  let c := getChanDm b h n
  if c.parts ≠ [] then b
  else if chanState b h n = 5 then
    let b := returnObj (objKey 1 (h.idx * 2048 + n)) (dropDmChan h n b)
    match c.fn with
    | some (f, _) => dropFnChan h f n b
    | none => b
  else if c.flr then
    resetRegs (DM_CH_DOORBELL h n) 0x1000 (updChanDm b h n fun c => { c with
      flr := false, prog := {}, due := none, stopping := false, freezing := false })
  else match c.prog.fail with
  | some code => enterError b h n code
  | none =>
    if c.freezing && c.due.isNone then
      let was := chanState b h n
      setChanState (updChanDm b h n fun c => { c with freezing := false, before := was, prog := foldStretch c.prog }) h n 3
    else b

/-- An FLR of the function that a channel backs (R474). -/
def flrChan (b : Block) (h : Hub) (n : Nat) : Block :=
  if chanState b h n = 5 then b
  else
    let b := updChanDm b h n fun c => { c with flr := true, prog := {}, due := none, stopping := false, freezing := false }
    settleChan (setChanState b h n 2) h n

/-- A failure: the channel stops issuing requests (R437). The first failure counts. -/
def failChan (b : Block) (h : Hub) (n code : Nat) : Block :=
  let b := updChanDm b h n fun c => { c with stopping := false, prog := { c.prog with fail := c.prog.fail.or (some code) } }
  settleChan b h n

/-! ## Requests (R421, R423) -/

/-- A channel's address after translation: the endpoint's bus address as it is, otherwise what the IOMMU answers. -/
inductive DmAddr
  | ok (pa : Nat)
  | fault
  | missing
deriving DecidableEq, Repr

def dmAddr (c : DmChan) (iova : Nat) (t : Option Translation) : DmAddr :=
  if c.fn.isSome then .ok iova
  else match t with
  | none => .missing
  | some .fault => .fault
  | some (.ok pa) => .ok (pa / 4096 * 4096 + iova % 4096)

/-- How a channel reaches a physical address. -/
inductive DmWay | main | elsewhere | refused | bus
deriving DecidableEq, Repr

def dmWay (b : Block) (h : Hub) (c : DmChan) (pa : Nat) : DmWay :=
  if c.fn.isSome then .bus
  else
    let d := decodePa b h (chanPart c) pa
    match d with
    | .ctl _ | .fab _ _ => .refused
    | .unmapped => .refused
    | _ => if isMain d then .main else .elsewhere

/-- Tags of an engine that are in use, and free ones. -/
def engineTags (b : Block) (h : Hub) (e : Nat) : List Nat := ((getMover b h).reqs.map (·.tag)).filter fun t => t / 256 == e
def engineTag (b : Block) (h : Hub) (e : Nat) : Option Nat × Block := chooseTag b (e * 256) (e * 256 + 255) (engineTags b h e)

/-- Upstream reads of an endpoint, and those of a function's channels (R468). -/
def busTags (b : Block) (h : Hub) : List Nat := ((getIo b h).pcie.filter (·.port.isNone)).map (·.tag)
def fnTags (b : Block) (h : Hub) (f : Nat) : Nat :=
  ((getMover b h).chans.cells.map fun c => if (c.2.fn.map (·.1)) == some f then c.2.parts.length else 0).foldl (· + ·) 0

/-- A free upstream tag within both budgets (R468). -/
def busTag (b : Block) (h : Hub) (f : Nat) : Option Nat × Block :=
  let ep := (getIo b h).ep
  let used := busTags b h
  let budget := min ((ep.fns.get {} f).tagBudget) ep.tagTotal
  if budget ≤ fnTags b h f ∨ ep.tagTotal ≤ used.length then (none, b) else chooseTag b 0 16383 used

/-- Record a request in flight. -/
def addPart (b : Block) (h : Hub) (n : Nat) (p : DmPart) : Block :=
  updChanDm b h n fun c => { c with parts := c.parts ++ [p] }

/-- Send a request of a channel's engine under a tag, and remember it. -/
def dmSend (b : Block) (h : Hub) (n : Nat) (hdr : Hdr) (kind : DmKind) (pa len : Nat)
    (wr : Option (LineData × Word × Poison) := none) : Block :=
  let c := getChanDm b h n
  let r : Req := { tag := hTag hdr, part := chanPart c, line := pa / 64, hdr := hdr, wr := wr }
  let b := updMover b h fun m => { m with reqs := m.reqs ++ [r] }
  hubSend (addPart b h n { tag := hTag hdr, kind := kind, pa := pa, len := len }) h { hdr := hdr }

/-- Read `len` bytes within one 64-byte block: RdOnce, IoRd, or MRd. Answers none where no tag is free. -/
def dmRead (b : Block) (h : Hub) (n pa len hint : Nat) (kind : DmKind) : Option Block :=
  let c := getChanDm b h n
  let node := myNode b (agDm h)
  let d := decodePa b h (chanPart c) pa
  let count (b : Block) : Block := bumpW h c.secure b (CNT_DM h c.engine 1)
  match c.fn with
  | some (f, _) =>
    match busTag b h f with
    | (none, _) => none
    | (some tag, b) =>
      let b := updIo b h fun i => { i with pcie := i.pcie ++ [{ port := none, tag := tag, hdr := 0 }] }
      some (emit (addPart (count b) h n { tag := tag, kind := kind, pa := pa, len := len }) (.mrd h none pa len tag))
  | none =>
    match engineTag b h c.engine with
    | (none, _) => none
    | (some tag, b) =>
      if isMain d then
        if lineBusy (getMover b h).reqs (pa / 64) then none
        else some (dmSend (count b) h n (mkReq opRdOnce c.secure ((reqDst b d).getD 0) node tag (pa / 64) hint) kind pa len)
      else some (dmSend (count b) h n (mkPio opIoRd c.secure ((pioDst b h d).getD 0) node tag pa len 0) kind pa len)

/-- Write bytes of one 64-byte block: WrUnique, IoWr or MWr. IoWr and MWr are posted: their bytes count as written
(log entry 50). -/
def dmWrite (b : Block) (h : Hub) (n pa len hint : Nat) (data : LineData) (p : Poison) (kind : DmKind) : Option Block :=
  let c := getChanDm b h n
  let node := myNode b (agDm h)
  let d := decodePa b h (chanPart c) pa
  let be := beOf (pa % 64) len
  let count (b : Block) : Block := bumpW h c.secure b (CNT_DM h c.engine 2)
  let posted (f : Progress → Progress) (b : Block) : Block := updProg (count b) h n fun q => f { q with
    st := q.st.map fun s => { s with count := s.count + len } }
  if c.fn.isSome then
    some (emit (posted (fun q => { q with lastWr := some pa }) b) (.mwr h none pa data be p))
  else if isMain d then
    if lineBusy (getMover b h).reqs (pa / 64) then none
    else match engineTag b h c.engine with
    | (none, _) => none
    | (some tag, b) =>
      let hdr := mkReq opWrUnique c.secure ((reqDst b d).getD 0) node tag (pa / 64) hint (if be = beAll then place 1 88 88 else 0)
      some (dmSend (count b) h n hdr kind pa len (some (data, be, p)))
  else
    let dst := (pioDst b h d).getD 0
    let (t, b) := freeNat b
    let b := posted (fun q => { q with wrote := if q.wrote.contains dst then q.wrote else q.wrote ++ [dst] }) b
    some (hubSend b h { hdr := mkPio opIoWr c.secure dst node (t % 4096) pa len p, data := data })

/-- Send an MsFlush to a node (R432). -/
def dmFlush (b : Block) (h : Hub) (n node : Nat) : Option Block :=
  let c := getChanDm b h n
  match engineTag b h c.engine with
  | (none, _) => none
  | (some tag, b) =>
    let b := updProg b h n fun q => { q with wrote := q.wrote.filter (· != node) }
    some (dmSend b h n (mkFlush c.secure node (myNode b (agDm h)) tag 2) .flush 0 0)

/-! ## Dirty-page logging (R446) -/

/-- Send the AtomCas for a bit of the bitmap with compare value `c0`: `pa` names the word and the bit, 64 × word + bit. -/
def sendCas (b : Block) (h : Hub) (n key c0 : Nat) : Block :=
  let c := getChanDm b h n
  let pa := key / 64
  let off := pa % 64
  let d := decodePa b h (chanPart c) pa
  let wait (b : Block) : Block :=
    updProg b h n fun q => { q with st := q.st.map fun s => { s with logKey := some (key, c0) } }
  if lineBusy (getMover b h).reqs (pa / 64) then wait b
  else match reqDst b d, engineTag b h c.engine with
  | some dst, (some tag, b) =>
    let swap := c0 ||| 2 ^ (key % 64)
    let data := lineOf off 8 swap ||| lineOf (off ^^^ 32) 8 c0
    let hint := ((c.prog.desc.map dHint).getD 0)
    let hdr := mkReq opAtomCas c.secure dst (myNode b (agDm h)) tag (pa / 64) hint (place off 101 96)
    let b := updMover b h fun m => { m with reqs := m.reqs ++ [
      { tag := tag, part := chanPart c, line := pa / 64, hdr := hdr, wr := some (data, beOf off 8 ||| beOf (off ^^^ 32) 8, 0) }] }
    hubSend (addPart b h n { tag := tag, kind := .log, pa := key, len := c0 }) h { hdr := hdr }
  | some _, (none, b) => wait b
  | none, (_, b) => failChan b h n 0x17

/-- Log the destination page of a stretch before its first write. -/
def logStretch (b : Block) (h : Hub) (n iova : Nat) : Block :=
  let c := getChanDm b h n
  match c.log with
  | none => b
  | some (base, pages, bitmap) =>
    let page := iova / 4096 * 4096
    if base ≤ page ∧ page < base + pages * 4096 then
      let k := (page - base) / 4096
      let b := updProg b h n fun q => { q with st := q.st.map fun s => { s with logging := true } }
      sendCas b h n ((bitmap + k / 64 * 8) * 64 + k % 64) 0
    else updChanDm b h n fun c => { c with outside := min 0xFFFF_FFFF (c.outside + 1) }

/-! ## Stretches (R422, R424) -/

/-- Bytes of a current position: where a list is walked its entry, otherwise the descriptor's range; with the bytes left in
it. -/
def position (sg : Bool) (base : Nat) (done used : Nat) (cur : Option (Nat × Nat × Bool)) : Nat × Nat :=
  if sg then match cur with
    | some (a, len, _) => (a + used, len - used)
    | none => (0, 0)
  else (base + done, 2 ^ 33)

/-- Blocks that a range of bytes touches. -/
def blocksIn (a len : Nat) : Nat := if len = 0 then 0 else (a + len - 1) / 64 - a / 64 + 1

/-- Bytes of a range in its block number `k`: first byte and length. -/
def blockPart (a len k : Nat) : Nat × Nat :=
  let lo := max a ((a / 64 + k) * 64)
  let hi := min (a + len) ((a / 64 + k + 1) * 64)
  (lo, hi - lo)

/-- Has a stretch lines to issue? -/
def stretchIssued (d : Desc) (st : DmStretch) : Bool :=
  let op := dOp d
  let ns := if opReadsSrc op then blocksIn (st.src.getD 0) st.len else 0
  let nd := blocksIn (st.dst.getD 0) st.len
  decide (ns ≤ st.rdSrc) && (if opWrites op then decide (nd ≤ st.wrote) else if op = dmCompare then decide (nd ≤ st.rdDst) else true)

/-- Is a channel ready to be served: running, with work, and waiting for nothing? -/
def canServe (b : Block) (h : Hub) (n : Nat) : Bool :=
  let c := getChanDm b h n
  let p := c.prog
  let more := match p.desc with
    | none => chanHead b h n != chanTail b h n
    | some d => decide (p.done < dLen d) && p.mismatch.isNone
  c.live && chanState b h n == 1 && !c.stopping && !c.freezing && !c.flr && c.due.isNone && p.fail.isNone && p.st.isNone &&
    c.parts.isEmpty && more && engineReady b h c.engine

/-- Does an engine still issue lines of a stretch? -/
def engineIssuing (b : Block) (h : Hub) (e : Nat) : Bool :=
  (getMover b h).chans.cells.any fun c => c.2.live && c.2.engine == e && match c.2.prog.st, c.2.prog.desc with
    | some st, some d => !stretchIssued d st && c.2.prog.fail.isNone
    | _, _ => false

/-- Is it a channel's turn in the rotating order of its engine (R422)? -/
def isTurn (b : Block) (h : Hub) (n : Nat) : Bool :=
  let e := (getChanDm b h n).engine
  let last := (getMover b h).turn.get 0 e
  let ready := ((getMover b h).chans.cells.map (·.1)).filter fun k => (getChanDm b h k).engine == e && canServe b h k
  let next := match ready.find? (fun k => decide (last ≤ k)) with
    | some k => some k
    | none => ready.head?
  next == some n

/-- Begin a stretch with the translated addresses of its first bytes. -/
def beginStretch (b : Block) (h : Hub) (n : Nat) (d : Desc) (xl : List Translation) : Block :=
  let c := getChanDm b h n
  let p := c.prog
  let op := dOp d
  let s := position (dSrcSg d) d.src.toNat p.done p.srcUsed p.srcCur
  let t := position (dDstSg d) d.dst.toNat p.done p.dstUsed p.dstCur
  let room (a : Nat × Nat) : Nat := min a.2 (4096 - a.1 % 4096)
  let len := min (dLen d - p.done) (min (if opReadsSrc op then room s else 4096) (if opHasDst op then room t else 4096))
  let sx := if opReadsSrc op then dmAddr c s.1 xl.head? else .ok 0
  let tx := if opHasDst op then dmAddr c t.1 (if opReadsSrc op then xl[1]? else xl.head?) else .ok 0
  match sx, tx with
  | .missing, _ => b
  | _, .missing => b
  | .fault, _ => failChan b h n 0x11
  | _, .fault => failChan b h n 0x11
  | .ok sp, .ok tp =>
    let bad := (opReadsSrc op && dmWay b h c sp == .refused) || (opHasDst op && dmWay b h c tp == .refused)
    if bad then failChan b h n 0x12
    else
      let st : DmStretch := { off := p.done, len := len
                              src := if opReadsSrc op then some sp else none
                              dst := if opHasDst op then some tp else none }
      let b := updProg b h n fun q => { q with st := some st }
      let b := updMover b h fun m => { m with turn := m.turn.set 0 c.engine (n + 1) }
      if opWrites op then logStretch b h n t.1 else b

/-- Read a structure of the channel: the descriptor or a list entry. -/
def readStruct (b : Block) (h : Hub) (n iova len : Nat) (kind : DmKind) (t : Option Translation) : Block :=
  let c := getChanDm b h n
  match dmAddr c iova t with
  | .missing => b
  | .fault => failChan b h n 0x11
  | .ok pa =>
    let way := dmWay b h c pa
    if way = .refused ∨ (kind = .fetch ∧ way = .elsewhere) then failChan b h n 0x12
    else (dmRead b h n pa len ((c.prog.desc.map dHint).getD 0) kind).getD b

/-- STRETCH: the engine serves the channel whose turn it is: it reads the descriptor at HEAD or the next list entry, or begins
a stretch. `xl` holds the IOMMU's answers: for the structure read, or for the source and then the destination. -/
def stretchGo (b : Block) (h : Hub) (n : Nat) (xl : List Translation) : Block :=
  let c := getChanDm b h n
  let p := c.prog
  if canServe b h n = false ∨ engineIssuing b h c.engine = true ∨ isTurn b h n = false ∨
      hasAccepted b (1536 + h.idx * 16 + c.engine) = true then b
  else if !c.secure && fon b (DM_ENG_STATUS h c.engine) DM_ENG_STATUS_CLAIMED then failChan b h n 0x1B
  else match p.desc with
  | none =>
    let at_ := fget b (DM_CH_RING h n) DM_CH_RING_BASE * 4096 + chanHead b h n % 2 ^ chanOrder b h n * 32
    readStruct b h n at_ 32 .fetch xl.head?
  | some d =>
    let srcNeeds := opReadsSrc (dOp d) && dSrcSg d && p.srcCur.isNone
    let dstNeeds := opHasDst (dOp d) && dDstSg d && p.dstCur.isNone
    if srcNeeds then
      if p.srcEnt % 16 ≠ 0 then failChan b h n 0x15 else readStruct b h n p.srcEnt 16 .srcList xl.head?
    else if dstNeeds then
      if p.dstEnt % 16 ≠ 0 then failChan b h n 0x15 else readStruct b h n p.dstEnt 16 .dstList xl.head?
    else beginStretch b h n d xl

def execStretch (hub : Hub) (chan : Fin 2048) (xl : List Translation) (s : State) : Host.Outcome State Fault Refusal :=
  nextBlk s (stretchGo s.blk hub chan.val xl)

/-! ## Data of a stretch -/

/-- A byte at an address in the lines read, with the mark of its word. -/
def gotByte (got : List (Nat × LineData × Poison)) (a : Nat) : Option (Byte × Bool) :=
  (got.find? fun x => x.1 == a / 64).map fun x => (lineByte x.2.1 (a % 64), x.2.2.getLsbD (a % 64 / 8))

/-- The source byte that goes to byte `j` of a stretch. -/
def srcByte (d : Desc) (st : DmStretch) (j : Nat) : Option (Byte × Bool) :=
  if dOp d = dmFill then some (BitVec.ofNat 8 (d.src.toNat >>> (8 * ((st.off + j) % 8))), false)
  else gotByte st.gotSrc (st.src.getD 0 + j)

/-- Data of the bytes of a destination block, as a line with its marks; none while a source byte is missing. -/
def fillLine (d : Desc) (st : DmStretch) (lo len : Nat) : Nat → Option (Nat × Nat)
  | 0 => some (0, 0)
  | k + 1 =>
    match fillLine d st lo len k with
    | none => none
    | some (v, p) =>
      if len ≤ k then some (v, p)
      else
        let a := lo + k
        match srcByte d st (a - st.dst.getD 0) with
        | none => none
        | some (x, bad) =>
          some (v + x.toNat * 2 ^ (8 * (a % 64)), if bad then p ||| 2 ^ (a % 64 / 8) else p)

/-- What an engine may issue next for a channel: source lines, COMPARE's second operand, and the next write whose data is
there. -/
inductive DmNext
  | src (a len : Nat)
  | dst (a len : Nat)
  | write (a len : Nat) (data : LineData) (p : Poison)
  | cas (key old : Nat)
deriving DecidableEq, Repr

def nextLines (d : Desc) (st : DmStretch) : List DmNext :=
  let op := dOp d
  let sa := st.src.getD 0
  let ta := st.dst.getD 0
  let rd := if opReadsSrc op && decide (st.rdSrc < blocksIn sa st.len) then
    [DmNext.src (blockPart sa st.len st.rdSrc).1 (blockPart sa st.len st.rdSrc).2] else []
  let cmp := if op = dmCompare ∧ st.rdDst < blocksIn ta st.len then
    [DmNext.dst (blockPart ta st.len st.rdDst).1 (blockPart ta st.len st.rdDst).2] else []
  let wr := if opWrites op && !st.logging && decide (st.wrote < blocksIn ta st.len) then
      let x := blockPart ta st.len st.wrote
      match fillLine d st x.1 x.2 64 with
      | some (v, p) => [DmNext.write x.1 x.2 (BitVec.ofNat 512 v) (BitVec.ofNat 8 p)]
      | none => []
    else []
  let log := match st.logKey with
    | some (k, old) => [DmNext.cas k old]
    | none => []
  rd ++ cmp ++ wr ++ log

/-- May a channel issue a line now? -/
def lineReady (b : Block) (h : Hub) (n : Nat) : Bool :=
  let c := getChanDm b h n
  c.live && chanState b h n == 1 && !c.stopping && !c.freezing && !c.flr && c.prog.fail.isNone &&
    engineReady b h c.engine && match c.prog.st, c.prog.desc with
      | some st, some d => !(nextLines d st).isEmpty
      | _, _ => false

/-- The channel whose stretch an engine issues. -/
def engineChan (b : Block) (h : Hub) (e : Nat) : Option Nat :=
  ((getMover b h).chans.cells.map (·.1)).find? fun n => (getChanDm b h n).engine == e && lineReady b h n

/-- Does the destination byte of a COPY at physical address `a` lie in the source range too (R429)? By the channel's addresses
where neither side is a list, and by physical address within the stretch. -/
def inOverlap (d : Desc) (st : DmStretch) (a : Nat) : Bool :=
  let x := d.dst.toNat + st.off + (a - st.dst.getD 0)
  dOp d == dmCopy && ((!dSrcSg d && !dDstSg d && decide (d.src.toNat ≤ x ∧ x < d.src.toNat + dLen d)) || match st.src with
    | some s => decide (s ≤ a ∧ a < s + st.len)
    | none => false)

/-- The bytes of a write that R429 leaves unpredictable. -/
def overlapBe (d : Desc) (st : DmStretch) (lo len : Nat) : Word :=
  ((List.range len).filter fun k => inOverlap d st (lo + k)).foldl (fun w k => w ||| 1 <<< ((lo + k) % 64)) 0

/-- Data of a write: free in the bytes of an overlap (R429). -/
def overlapData (b : Block) (d : Desc) (st : DmStretch) (lo len : Nat) (v : LineData) : LineData × Block :=
  let m := overlapBe d st lo len
  if m = 0 then (v, b)
  else
    let (x, b) := freeLine b
    (mergeLine v x m, b)

/-- Issue one line of a stretch. -/
def issueLine (b : Block) (h : Hub) (n : Nat) : Block :=
  let c := getChanDm b h n
  match c.prog.st, c.prog.desc with
  | some st, some d =>
    let note (f : DmStretch → DmStretch) (b : Block) : Block := updProg b h n fun q => { q with st := q.st.map f }
    match freePick b (nextLines d st) with
    | (none, b) => b
    | (some (.src a len), b) =>
      ((dmRead b h n a len (dHint d) .src).map (note fun s => { s with rdSrc := s.rdSrc + 1 })).getD b
    | (some (.cas key old), b) => sendCas (note (fun s => { s with logKey := none }) b) h n key old
    | (some (.dst a len), b) =>
      ((dmRead b h n a len (dHint d) .dst).map (note fun s => { s with rdDst := s.rdDst + 1 })).getD b
    | (some (.write a len v p), b) =>
      let (v, b) := overlapData b d st a len v
      let mark (b : Block) : Block := if p = 0 then b else updProg b h n fun q => { q with poisoned := true }
      ((dmWrite b h n a len (dHint d) v p .write).map fun b => mark (note (fun s => { s with wrote := s.wrote + 1 }) b)).getD b
  | _, _ => b

/-! ## The end of a stretch -/

/-- Consume bytes in order as far as they have been read (R429): COMPARE stops at the first difference. -/
def consume (d : Desc) : Nat → Progress → Progress
  | 0, p => p
  | k + 1, p =>
    match p.st with
    | none => p
    | some st =>
      if st.len ≤ st.count ∨ p.fail.isSome = true ∨ p.mismatch.isSome = true then p
      else
        let next : Progress := { p with st := some { st with count := st.count + 1 } }
        match gotByte st.gotSrc (st.src.getD 0 + st.count) with
        | none => p
        | some (x, bad) =>
          if bad then { p with fail := some 0x13 }
          else if dOp d = dmCrc then consume d k { next with crc := BitVec.ofNat 32 (crc32cByte p.crc.toNat x.toNat) }
          else match gotByte st.gotDst (st.dst.getD 0 + st.count) with
            | none => p
            | some (y, bad) =>
              if bad then { p with fail := some 0x13 }
              else if x = y then consume d k next
              else { p with mismatch := some (st.off + st.count) }

/-- Go on after an answer: bytes are consumed, a stretch whose requests have all completed ends, a list that is used up too
soon fails (R431), and what waits for the requests takes effect. -/
def progressChan (b : Block) (h : Hub) (n : Nat) : Block :=
  match (getChanDm b h n).prog.desc with
  | none => settleChan b h n
  | some d =>
    let op := dOp d
    let b := if op = dmCompare ∨ op = dmCrc then updProg b h n (consume d 4096) else b
    let c := getChanDm b h n
    let p := c.prog
    match p.st with
    | none => settleChan b h n
    | some st =>
      if c.parts = [] ∧ p.fail = none ∧ (p.mismatch.isSome = true ∨ (stretchIssued d st = true ∧ st.len ≤ st.count)) then
        let q := foldStretch p
        let b := updProg b h n fun _ => q
        let short := decide (q.done < dLen d) && q.mismatch.isNone && (usedUp q.srcUsed q.srcCur || usedUp q.dstUsed q.dstCur)
        if short then failChan b h n 0x14
        else if !c.secure && fon b (DM_ENG_STATUS h c.engine) DM_ENG_STATUS_CLAIMED then failChan b h n 0x1B
        else settleChan b h n
      else settleChan b h n

/-! ## The bulk port (R424, R425) -/

/-- BULK_PORT_GRANT: among the requesting engines that have a line to issue and are not masked, the highest rank wins and takes
the lowest. -/
def grantPort (b : Block) (h : Hub) (requesting : Nat) : Block :=
  let m := getMover b h
  let able (e : Nat) : Bool := bitOf requesting e && engineReady b h e && (engineChan b h e).isSome
  match m.ranks.find? able with
  | none => updMover b h fun m => { m with holder := none }
  | some e =>
    let b := match m.holder with
      | some x => if x ≠ e ∧ able x = true then bumpW h false b (CNT_DM h x 3) else b
      | none => b
    let b := updMover b h fun m => { m with holder := some e, ranks := m.ranks.filter (· != e) ++ [e] }
    match engineChan b h e with
    | none => b
    | some n => progressChan (issueLine b h n) h n

def execBulkPortGrant (hub : Hub) (requesting : BitVec 16) (s : State) : Host.Outcome State Fault Refusal :=
  nextBlk s (grantPort s.blk hub requesting.toNat)

/-! ## Answers -/

/-- The channel that waits for an answer under a tag, on the fabric or on an endpoint's bus. -/
def partOf (b : Block) (h : Hub) (bus : Bool) (tag : Nat) : Option (Nat × DmPart) :=
  (getMover b h).chans.cells.findSome? fun c =>
    if c.2.fn.isSome == bus then (c.2.parts.find? fun p => p.tag == tag).map fun p => (c.1, p) else none

/-- An answer takes its request out. -/
def takePart (b : Block) (h : Hub) (n tag : Nat) (bus : Bool) : Block :=
  let b := updChanDm b h n fun c => { c with parts := c.parts.filter fun p => p.tag != tag }
  if bus then updIo b h fun i => { i with pcie := i.pcie.filter fun r => !(r.port.isNone && r.tag == tag) }
  else updMover b h fun m => { m with reqs := m.reqs.filter fun r => r.tag != tag }

/-- A failed answer: the failure code of the request's kind. -/
def failCode : DmKind → Nat
  | .flush => 0x12
  | .log => 0x17
  | _ => 0x12

/-- Bytes read: the descriptor, a list entry, or a line. -/
def dmRead_ (b : Block) (h : Hub) (n : Nat) (p : DmPart) (data : LineData) (poison : Poison) : Block :=
  let v := lineBytes data (p.pa % 64) p.len
  let bad := (poison &&& beWords (beOf (p.pa % 64) p.len)) != 0
  match p.kind with
  | .fetch =>
    if bad then failChan b h n 0x13
    else
      let d : Desc := { ctrl := BitVec.ofNat 32 v, length := BitVec.ofNat 32 (v >>> 32), src := BitVec.ofNat 64 (v >>> 64)
                        dst := BitVec.ofNat 64 (v >>> 128), cmpl := BitVec.ofNat 64 (v >>> 192) }
      let b := updProg b h n (startDesc d)
      if badDesc d then failChan b h n 0x10 else progressChan b h n
  | .srcList | .dstList =>
    if bad then failChan b h n 0x13
    else
      let src := p.kind == .srcList
      match listEntry v with
      | none => failChan b h n 0x15
      | some (.inl a) => progressChan (updProg b h n fun q => if src then { q with srcEnt := a } else { q with dstEnt := a }) h n
      | some (.inr e) =>
        let p := (getChanDm b h n).prog
        let b := updProg b h n fun q =>
          if src then
            let x := useEntry q.srcEnt q.srcUsed (some e) 0
            { q with srcEnt := x.1, srcUsed := x.2.1, srcCur := x.2.2 }
          else
            let x := useEntry q.dstEnt q.dstUsed (some e) 0
            { q with dstEnt := x.1, dstUsed := x.2.1, dstCur := x.2.2 }
        if usedUp (if src then p.srcUsed else p.dstUsed) (some e) then failChan b h n 0x14 else progressChan b h n
  | .src => progressChan (updProg b h n fun q => { q with
      st := q.st.map fun s => { s with gotSrc := s.gotSrc ++ [(p.pa / 64, data, poison)] } }) h n
  | .dst => progressChan (updProg b h n fun q => { q with
      st := q.st.map fun s => { s with gotDst := s.gotDst ++ [(p.pa / 64, data, poison)] } }) h n
  | .log =>
    let word := p.pa / 64
    let old := lineBytes data (word % 64) 8
    if bitOf old (p.pa % 64) ∨ old = p.len then
      let b := if bitOf old (p.pa % 64) then b else updChanDm b h n fun c => { c with newBits := min 0xFFFF_FFFF (c.newBits + 1) }
      progressChan (updProg b h n fun q => { q with st := q.st.map fun s => { s with logging := false } }) h n
    else if (getChanDm b h n).prog.fail.isSome = true ∨ chanState b h n = 5 then settleChan b h n
    else sendCas b h n p.pa old
  | _ => progressChan b h n

/-! ## Completion (R432, R433) -/

/-- Bytes of a completion record as a line. -/
def recordData (d : DmDue) : LineData :=
  lineOf (d.cmpl % 64) 16 (d.status + d.result * 2 ^ 32 + d.bytes * 2 ^ 64)

/-- Send the MSI of a channel: to an interrupt file, or the function's MSI-X vector (R467). -/
def chanMsi (b : Block) (h : Hub) (n : Nat) (pa : Option Nat) : Block :=
  let c := getChanDm b h n
  if fon b (DM_CH_MSI_ADDR h n) DM_CH_MSI_ADDR_ENABLE = false then b
  else
    let data := fget b (DM_CH_MSI_DATA h n) DM_CH_MSI_DATA_DATA
    match c.fn with
    | some (f, _) =>
      if data % 2048 < ((getIo b h).ep.fns.get {} f).vectors then emit b (.msix h f (data % 2048))
      else raise b (agIo h) 16 7 4 sevInfo 0 (place (DM_CH_MSI_DATA h n) 43 8) data
    | none =>
      match pa with
      | none => b
      | some pa =>
        match decodePa b h (chanPart c) pa with
        | .ctl _ | .fab _ _ => b
        | _ => sendMsi b h (agDm h) (chanPart c) pa data c.secure

/-- The last steps of a descriptor or of a failure: HEAD, the MSI, and for a failure the event record. -/
def finishDue (b : Block) (h : Hub) (n : Nat) (d : DmDue) : Block :=
  let c := getChanDm b h n
  let b := updChanDm b h n fun c => { c with due := none }
  if d.status < 0x10 then
    let b := bumpW h c.secure b (CNT_DM h c.engine 0)
    let b := fset b (DM_CH_STATUS h n) DM_CH_STATUS_HEAD (chanHead b h n + 1)
    let b := updProg b h n fun _ => {}
    settleChan (if d.irq then chanMsi b h n d.msi else b) h n
  else
    let b := chanMsi b h n d.msi
    let b := raise b (agDm h) c.engine 8 2 sevDefer (4 * b2n c.secure) (place (CNT_DM h c.engine 4) 43 8) 0
    settleChan b h n

/-- The record write has ended. On a failed write a completing descriptor fails, and ERROR holds the failure. -/
def recordDone (b : Block) (h : Hub) (n : Nat) (ok : Bool) (code : Nat) : Block :=
  match (getChanDm b h n).due with
  | none => settleChan b h n
  | some d =>
    if ok then finishDue b h n d
    else if d.status < 0x10 then
      let b := enterError b h n code
      match (getChanDm b h n).due with
      | none => b
      | some x => finishDue b h n { x with msi := d.msi }
    else finishDue (fset b (DM_CH_STATUS h n) DM_CH_STATUS_ERROR code) h n d

/-- Write the record where there is one, and finish at once where there is none or it cannot be written. -/
def writeRecord (b : Block) (h : Hub) (n : Nat) (d : DmDue) (t : Option Translation) : Block :=
  let c := getChanDm b h n
  if d.cmpl = 0 ∨ engineReady b h c.engine = false then finishDue b h n d
  else match dmAddr c d.cmpl t with
  | .missing => b
  | .fault => recordDone b h n false 0x11
  | .ok pa =>
    let sent := updChanDm b h n fun c => { c with due := some { d with sent := true } }
    match dmWay b h c pa with
    | .main => (dmWrite sent h n pa 16 ((c.prog.desc.map dHint).getD 0) (recordData d) 0 .record).getD b
    | .bus => finishDue ((dmWrite b h n pa 16 0 (recordData d) 0 .record).getD b) h n d
    | _ => recordDone b h n false 0x12

/-- Status and result of a descriptor whose bytes are all done, or whose comparison found a difference. -/
def dueOf (d : Desc) (p : Progress) : Option DmDue :=
  let base : DmDue := { status := 1, bytes := dLen d, cmpl := d.cmpl.toNat, irq := dIrq d }
  match p.mismatch with
  | some off => some { base with status := 2, bytes := off }
  | none =>
    if p.done < dLen d then none
    else if dOp d = dmCrc then some { base with result := p.crc.toNat ^^^ 0xFFFF_FFFF }
    else some { base with status := if p.poisoned && dOp d == dmCopy then 3 else 1 }

/-- Does a channel's MSI target break R423? -/
def msiRefused (b : Block) (h : Hub) (n : Nat) (pa : Option Nat) : Bool :=
  let c := getChanDm b h n
  match c.fn, pa with
  | none, some pa => match decodePa b h (chanPart c) pa with
    | .ctl _ | .fab _ _ => true
    | _ => false
  | _, _ => false

/-- DESCRIPTOR_COMPLETE: the flushes of a descriptor whose bytes are all done, or the zero-length read of R467, then the record
and what follows it; likewise the record and MSI of a failure. `xl` translates the record's address and then the MSI's. -/
def completeDesc (b : Block) (h : Hub) (n : Nat) (xl : List Translation) : Block :=
  let c := getChanDm b h n
  let msi := match dmAddr c (fget b (DM_CH_MSI_ADDR h n) DM_CH_MSI_ADDR_ADDR * 4) xl[1]? with
    | .ok pa => some pa
    | _ => none
  if c.parts ≠ [] then b
  else match c.due with
  | some d => if d.sent then b else writeRecord b h n { d with msi := msi } xl.head?
  | none =>
    match c.prog.desc with
    | none => b
    | some d =>
      if chanState b h n ≠ 1 ∨ c.freezing = true ∨ c.prog.fail.isSome = true ∨ c.prog.st.isSome = true then b
      else match dueOf d c.prog with
      | none => b
      | some due =>
        match c.prog.wrote, c.prog.lastWr, c.fn with
        | node :: _, _, _ =>
          let go (node : Nat) (b : Block) : Block := (dmFlush b h n node).getD b
          forEach (node :: c.prog.wrote.tail) go b
        | [], some a, some (f, _) =>
          match busTag b h f with
          | (none, b) => b
          | (some tag, b) =>
            let b := updIo b h fun i => { i with pcie := i.pcie ++ [{ port := none, tag := tag, hdr := 0 }] }
            let b := updProg (addPart b h n { tag := tag, kind := .flush, pa := a, len := 0 }) h n fun q => { q with lastWr := none }
            emit b (.mrd h none a 0 tag)
        | _, _, _ =>
          if due.irq && fon b (DM_CH_MSI_ADDR h n) DM_CH_MSI_ADDR_ENABLE && msiRefused b h n msi then failChan b h n 0x12
          else
            let due := { due with msi := msi }
            writeRecord (updChanDm b h n fun c => { c with due := some due }) h n due xl.head?

def execDescriptorComplete (hub : Hub) (chan : Fin 2048) (xl : List Translation) (s : State) :
    Host.Outcome State Fault Refusal := nextBlk s (completeDesc s.blk hub chan.val xl)

/-- Comp at the data mover (R432, R434). -/
def dmComp (b : Block) (h : Hub) (m : Msg) : Block :=
  match partOf b h false (hTag m.hdr) with
  | none => unknownTag b m
  | some (n, p) =>
    let b := takePart b h n p.tag false
    let ok := hStatus m.hdr == stsOk
    match p.kind with
    | .write =>
      if ok then progressChan (updProg b h n fun q => { q with st := q.st.map fun s => { s with count := s.count + p.len } }) h n
      else failChan b h n 0x12
    | .record => recordDone b h n ok 0x12
    | .flush =>
      if hStatus m.hdr = stsLost ∨ rspLost m.hdr ≠ 0 then failChan b h n 0x16
      else if ok then progressChan b h n else failChan b h n 0x12
    | k => failChan b h n (failCode k)

/-- CompData at the data mover. -/
def dmCompData (b : Block) (h : Hub) (m : Msg) : Block :=
  match partOf b h false (hTag m.hdr) with
  | none => unknownTag b m
  | some (n, p) =>
    let b := takePart b h n p.tag false
    if hStatus m.hdr = stsOk then dmRead_ b h n p m.data (datPoison m.hdr) else failChan b h n (failCode p.kind)

/-- WbGrant at the data mover (R184). -/
def dmWbGrant (b : Block) (h : Hub) (m : Msg) : Block :=
  match (getMover b h).reqs.find? fun r => r.tag == hTag m.hdr && r.wr.isSome && !r.granted with
  | none => unknownTag b m
  | some r =>
    match r.wr with
    | none => b
    | some (d, be, p) =>
      let note := updFirst (fun x : Req => x.tag == r.tag) fun x => { x with granted := true }
      let b := updMover b h fun x => { x with reqs := note x.reqs }
      let hdr := mkDat opWrData (hWorld r.hdr) (hSrc m.hdr) (myNode b (agDm h)) r.tag 0 stsOk (rspSlice m.hdr) be p
      hubPut b h { hdr := hdr, data := d }

/-- A completion for an upstream read of an endpoint's channel (R467, R468): `bad` for UR and CA; a timeout fails with
ACCESS_ERROR, but the zero-length read of a completion with WRITE_LOST. -/
def dmBus (b : Block) (h : Hub) (tag : Nat) (status : TlpStatus) (data : LineData) : Option Block :=
  match partOf b h true tag with
  | none => none
  | some (n, p) =>
    let b := takePart b h n tag true
    some (match status, p.kind with
      | .ok, .flush => progressChan b h n
      | .ok, _ => dmRead_ b h n p data 0
      | _, .flush => failChan b h n 0x16
      | _, _ => failChan b h n 0x12)

/-! ## Channel events (R427, R435 to R438) -/

/-- An event that a state does not list is ignored and reported (R435). -/
def reportChan (b : Block) (h : Hub) (n off : Nat) : Block :=
  let c := getChanDm b h n
  raise b (agDm h) c.engine 8 4 sevInfo (4 * b2n c.secure) (place off 43 8) (rd b (DM_CH_STATUS h n))

/-- A doorbell write (R427, R436). -/
def dmDoorbell (b : Block) (h : Hub) (n tail : Nat) : Block :=
  let st := chanState b h n
  let ahead := 2 ^ chanOrder b h n < (tail + 2 ^ 32 - chanHead b h n) % 2 ^ 32
  if st = 3 ∨ st = 5 then reportChan b h n (DM_CH_DOORBELL h n)
  else if ahead then
    if st = 1 then failChan b h n 0x19 else reportChan b h n (DM_CH_DOORBELL h n)
  else fset b (DM_CH_DOORBELL h n) DM_CH_DOORBELL_TAIL tail

/-- STOP. -/
def dmStop (b : Block) (h : Hub) (n : Nat) : Block :=
  if chanState b h n = 1 then updChanDm b h n fun c => { c with stopping := true }
  else reportChan b h n (DM_CH_CTRL h n)

/-- RUN: from created with ORDER 4 to 16, or from stopped. -/
def dmRun (b : Block) (h : Hub) (n : Nat) : Block :=
  match chanState b h n with
  | 0 => if 4 ≤ chanOrder b h n ∧ chanOrder b h n ≤ 16 then setChanState b h n 1 else enterError b h n 0x18
  | 2 => setChanState b h n 1
  | _ => reportChan b h n (DM_CH_CTRL h n)

/-- RESTART: only while the engine is ready (R438). -/
def dmRestart (b : Block) (h : Hub) (n : Nat) : Block :=
  if chanState b h n = 4 ∧ engineReady b h (getChanDm b h n).engine = true then
    updProg (fset (setChanState b h n 1) (DM_CH_STATUS h n) DM_CH_STATUS_ERROR 0) h n fun _ => {}
  else reportChan b h n (DM_CH_CTRL h n)

/-- SKIP. -/
def dmSkip (b : Block) (h : Hub) (n : Nat) : Block :=
  if chanState b h n = 4 then
    let b := fset (setChanState b h n 1) (DM_CH_STATUS h n) DM_CH_STATUS_ERROR 0
    updProg (fset b (DM_CH_STATUS h n) DM_CH_STATUS_HEAD (chanHead b h n + 1)) h n fun _ => {}
  else reportChan b h n (DM_CH_CTRL h n)

/-- A write to DM_CH_CTRL: only the lowest-numbered bit acts (R436). -/
def dmCtrl (b : Block) (h : Hub) (n v : Nat) : Block :=
  if bitOf v 0 then dmStop b h n else if bitOf v 1 then dmRun b h n
  else if bitOf v 2 then dmRestart b h n else if bitOf v 3 then dmSkip b h n else b

/-- A write of DM_CH_RING: in state created only. -/
def dmRing (b : Block) (h : Hub) (n v : Nat) : Block :=
  if chanState b h n = 0 then
    fset (fset b (DM_CH_RING h n) DM_CH_RING_BASE (bitsOf v 63 12)) (DM_CH_RING h n) DM_CH_RING_ORDER (bitsOf v 4 0)
  else reportChan b h n (DM_CH_RING h n)

/-- CHANNEL_STOPPED: no request is in flight, and no descriptor is completing (R435, R436). -/
def dmStopped (b : Block) (h : Hub) (n : Nat) : Block :=
  let c := getChanDm b h n
  let completing := match c.prog.desc with
    | some d => c.prog.st.isNone && (dueOf d c.prog).isSome
    | none => false
  if chanState b h n ≠ 1 ∨ c.stopping = false ∨ c.parts ≠ [] ∨ completing = true ∨ c.due.isSome = true ∨
      c.prog.fail.isSome = true then b
  else setChanState (updChanDm b h n fun c => { c with stopping := false, prog := foldStretch c.prog }) h n 2

def execChannelStopped (hub : Hub) (chan : Fin 2048) (s : State) : Host.Outcome State Fault Refusal :=
  nextBlk s (dmStopped s.blk hub chan.val)

/-- ENGINE_DOWN (R438): the milepost clears, the engine's requests are abandoned, and its running and stopped channels are in
error. -/
def engineFails (b : Block) (h : Hub) (e : Nat) : Block :=
  if engineReady b h e = false then b
  else
    let b := setEngineReady b h e false
    let b := updMover b h fun m => { m with reqs := m.reqs.filter fun r => r.tag / 256 != e, ranks := m.ranks.filter (· != e) ++ [e] }
    let mine := ((getMover b h).chans.cells.map (·.1)).filter fun n => (getChanDm b h n).live && (getChanDm b h n).engine == e
    forEach mine (fun n b =>
      let b := updChanDm b h n fun c => { c with parts := [] }
      if chanState b h n = 1 ∨ chanState b h n = 2 then enterError b h n 0x1A else settleChan b h n) b

def execEngineDown (hub : Hub) (engine : Fin 16) (s : State) : Host.Outcome State Fault Refusal :=
  nextBlk s (engineFails s.blk hub engine.val)

/-! ## Register writes with rows of their own -/

def execDoorbell (src : Source) (hub : Hub) (chan : Fin 2048) (tail : BitVec 32) (s : State) :
    Host.Outcome State Fault Refusal :=
  nextBlk s (regAction s.blk src (DM_CH_DOORBELL hub chan.val) fun _ => dmDoorbell s.blk hub chan.val tail.toNat)

def execStop (src : Source) (hub : Hub) (chan : Fin 2048) (s : State) : Host.Outcome State Fault Refusal :=
  nextBlk s (regAction s.blk src (DM_CH_CTRL hub chan.val) fun _ => dmStop s.blk hub chan.val)

def execRun (src : Source) (hub : Hub) (chan : Fin 2048) (s : State) : Host.Outcome State Fault Refusal :=
  nextBlk s (regAction s.blk src (DM_CH_CTRL hub chan.val) fun _ => dmRun s.blk hub chan.val)

def execRestart (src : Source) (hub : Hub) (chan : Fin 2048) (s : State) : Host.Outcome State Fault Refusal :=
  nextBlk s (regAction s.blk src (DM_CH_CTRL hub chan.val) fun _ => dmRestart s.blk hub chan.val)

def execSkip (src : Source) (hub : Hub) (chan : Fin 2048) (s : State) : Host.Outcome State Fault Refusal :=
  nextBlk s (regAction s.blk src (DM_CH_CTRL hub chan.val) fun _ => dmSkip s.blk hub chan.val)

def execDmRingWrite (src : Source) (hub : Hub) (chan : Fin 2048) (value : Word) (s : State) :
    Host.Outcome State Fault Refusal :=
  nextBlk s (regAction s.blk src (DM_CH_RING hub chan.val) fun _ => dmRing s.blk hub chan.val value.toNat)

end Sys2Proof.Machine
end

