-- ==== Sys2Proof/Machine/Io.lean ====
section
/-! DEFINITION. The I/O agents' ports and endpoint face (R321, R322, R451 to R475): requests of devices and of the foreign
host, their order, their answers, the window tables, and PCIe completions. -/

namespace Sys2Proof.Machine

/-! ## Requests of an I/O agent -/

/-- The I/O agent's own tags; the proxy has 2,048 to 4,095 (R490). -/
def ioTag (b : Block) (h : Hub) : Option Nat × Block := chooseTag b 0 2047 ((getIo b h).reqs.map (·.tag))

/-- A function of the endpoint. -/
def getFn (b : Block) (h : Hub) (f : Nat) : EpFn := (getIo b h).ep.fns.get {} f
def updFn (b : Block) (h : Hub) (f : Nat) (g : EpFn → EpFn) : Block :=
  updIo b h fun i => { i with ep := { i.ep with fns := i.ep.fns.upd {} f g } }

/-- Add to a list what it does not hold. -/
def addNew (xs : List Nat) (x : Nat) : List Nat := if xs.contains x then xs else xs ++ [x]

/-- Note a node that a function wrote by IoWr, under the old mapping or the current one (R471). -/
def noteWritten (b : Block) (h : Hub) (e : IoHeld) : Block :=
  match e.fn with
  | none => b
  | some f => updFn b h f fun x =>
      if e.old then { x with toFlush := addNew x.toFlush (hDst e.msg.hdr) }
      else { x with written := addNew x.written (hDst e.msg.hdr) }

/-- Does an earlier posted write of its port hold a request back (R464)? -/
def portBlocked (b : Block) (h : Hub) (kept : List IoHeld) (e : IoHeld) : Bool :=
  e.after && (kept.any (fun k => k.port == e.port && k.ordered) ||
    (getIo b h).waits.any fun w => w.port == e.port && w.ordered)

/-- Send a request that nothing holds back; none where it must wait for a tag or its line (R160, R464). -/
def sendHeld (b : Block) (h : Hub) (kept : List IoHeld) (e : IoHeld) : Option Block :=
  let line := hLine e.msg.hdr
  if portBlocked b h kept e then none
  else if hVc e.msg.hdr = vcPio ∧ hOp e.msg.hdr = opIoWr then
    let (t, b) := freeNat (noteWritten b h e)
    some (hubSend b h { e.msg with hdr := withTag e.msg.hdr t })
  else if hVc e.msg.hdr = vcReq ∧ lineBusy (getIo b h).reqs line = true then none
  else match ioTag b h with
    | (none, _) => none
    | (some tag, b) =>
      let hdr := withTag e.msg.hdr tag
      let r : Req := { tag := tag, line := line, part := e.part, hdr := hdr, purpose := .io, wr := e.wr }
      let w : IoWait := { tag := tag, port := e.port, reply := e.reply, ordered := e.ordered, bi := e.bi, fn := e.fn }
      let b := updIo b h fun i => { i with reqs := i.reqs ++ [r], waits := i.waits ++ [w] }
      let b := match e.fn with
        | some f => if e.old then updFn b h f fun x => { x with oldReads := x.oldReads ++ [tag] } else b
        | none => b
      some (hubSend b h { e.msg with hdr := hdr })

/-- Try the waiting requests in arrival order; those that must go on waiting are kept. -/
def tryHeld (h : Hub) : List IoHeld → List IoHeld → Block → List IoHeld × Block
  | [], kept, b => (kept, b)
  | e :: rest, kept, b =>
    match sendHeld b h kept e with
    | some b => tryHeld h rest kept b
    | none => tryHeld h rest (kept ++ [e]) b

/-- Send what a commit still owes: the MsFlush to each node written under the old mapping, behind the last old write (R471). -/
def epFlush (b : Block) (h : Hub) (f : Nat) : Block :=
  if (getIo b h).held.any fun e => e.fn == some f && e.old then b
  else forEach (getFn b h f).toFlush (fun node b =>
    match ioTag b h with
    | (none, _) => b
    | (some tag, b) =>
      let hdr := mkFlush false node (myNode b (agIo h)) tag 2
      let b := updIo b h fun i => { i with reqs := i.reqs ++ [{ tag := tag, hdr := hdr, purpose := .flush }],
                                           waits := i.waits ++ [{ tag := tag, port := none, reply := false, fn := some f }] }
      let b := updFn b h f fun x =>
        { x with toFlush := x.toFlush.filter (· != node), flushTags := x.flushTags ++ [tag] }
      hubSend b h { hdr := hdr }) b

/-- Functions that wait to flush. -/
def owingFns (b : Block) (h : Hub) : List Nat :=
  ((getIo b h).ep.fns.cells.filter fun c => !c.2.toFlush.isEmpty).map (·.1)

/-- Send every waiting request that may go. -/
def ioRelease (b : Block) (h : Hub) : Block :=
  let held := (getIo b h).held
  let (kept, b) := tryHeld h held [] b
  let b := updIo b h fun i => { i with held := kept }
  forEach (owingFns b h) (fun f b => epFlush b h f) b

/-- Put a request behind those that wait. -/
def ioLaunch (b : Block) (h : Hub) (e : IoHeld) : Block :=
  ioRelease (updIo b h fun i => { i with held := i.held ++ [e] }) h

/-- A completion of a device or host request that carries no data. -/
def plainCpl (h : Hub) (port : Option (Fin 16)) (bad : Bool) (b : Block) : Block := emit b (.cpl h port 0 0 bad)

/-! ## Answers to the I/O agent's own requests (R163, R464) -/

/-- A transaction of an I/O agent ends. -/
def ioFinish (b : Block) (h : Hub) (tag : Nat) : Block :=
  let drop (x : EpFn) : EpFn :=
    { x with oldReads := x.oldReads.filter (· != tag), flushTags := x.flushTags.filter (· != tag) }
  let b := updIo b h fun i => { i with
    reqs := i.reqs.filter fun r => r.tag != tag
    waits := i.waits.filter fun w => w.tag != tag
    ep := { i.ep with fns := { cells := i.ep.fns.cells.map fun c => (c.1, drop c.2) } } }
  ioRelease b h

/-- What an I/O agent waits for under a tag. -/
def ioWaitOf (b : Block) (h : Hub) (tag : Nat) : Option IoWait := (getIo b h).waits.find? fun w => w.tag == tag

/-- Comp at an I/O agent for a request of its own. -/
def ioComp (b : Block) (h : Hub) (m : Msg) : Block :=
  match ioWaitOf b h (hTag m.hdr) with
  | none => unknownTag b m
  | some w =>
    let b := match w.bi, w.port with
      | some pa, some p => emit b (.biRsp h p pa)
      | _, _ => if w.reply then plainCpl h w.port (hStatus m.hdr != stsOk) b else b
    ioFinish b h w.tag

/-- CompData at an I/O agent for a request of its own. -/
def ioCompData (b : Block) (h : Hub) (m : Msg) : Block :=
  match ioWaitOf b h (hTag m.hdr) with
  | none => unknownTag b m
  | some w =>
    let b := if w.reply then emit b (.cpl h w.port m.data (datPoison m.hdr) false) else b
    ioFinish b h w.tag

/-- WbGrant at an I/O agent for a write of its own: WrData goes, and the later requests of its port may follow. -/
def ioWbGrant (b : Block) (h : Hub) (m : Msg) : Block :=
  match (getIo b h).reqs.find? fun r => r.tag == hTag m.hdr && r.wr.isSome && !r.granted with
  | none => unknownTag b m
  | some r =>
    match r.wr with
    | none => b
    | some (d, be, p) =>
      let note := updFirst (fun x : Req => x.tag == r.tag) fun x => { x with granted := true }
      let order := updFirst (fun x : IoWait => x.tag == r.tag) fun x => { x with ordered := false }
      let b := updIo b h fun i => { i with reqs := note i.reqs, waits := order i.waits }
      let hdr := mkDat opWrData (hWorld r.hdr) (hSrc m.hdr) (myNode b (agIo h)) r.tag 0 stsOk (rspSlice m.hdr) be p
      ioRelease (hubPut b h { hdr := hdr, data := d }) h

/-! ## Requests from devices (R460 to R463) -/

/-- Is an address in the range that this hub's own endpoint lends, under the lending partition (R472 step 3)? -/
def ownLent (b : Block) (h : Hub) (part pa : Nat) : Bool :=
  match (getIo b h).ep.lent with
  | none => false
  | some (p, base, size) => p == part && decide (base ≤ pa ∧ pa < base + size)

/-- A request from a device or the foreign host is refused: a read is answered with UR, a write is discarded. -/
def refuseTlp (b : Block) (h : Hub) (port : Option (Fin 16)) (write : Bool) : Block :=
  if write then b else plainCpl h port true b

/-- A device request that R463 refuses, with its record. -/
def refuseDevice (b : Block) (h : Hub) (port : Fin 16) (write world : Bool) (pa : Nat) : Block :=
  refuseTlp (raise b (agIo h) port.val 7 7 sevInfo (4 * b2n world) pa 0) h (some port) write

/-- A request to a line of main memory: RdOnce or WrUnique. -/
def memRequest (b : Block) (h : Hub) (world : Bool) (part pa : Nat) (w : Option LineWrite) : Option IoHeld :=
  match reqDst b (decodePa b h part pa) with
  | none => none
  | some dst =>
    let me := myNode b (agIo h)
    let full := match w with
      | some x => x.be == beAll
      | none => false
    let hdr := mkReq (if w.isSome then opWrUnique else opRdOnce) world dst me 0 (pa / 64) 0 (place (b2n full) 88 88)
    some { port := none, msg := { hdr := hdr }, part := part, wr := w.map fun x => (x.data, x.be, x.poison) }

/-- A translated request of a device (R463). -/
def deviceAccess (b : Block) (h : Hub) (port : Fin 16) (part : Nat) (r : DeviceReq) (pa : Nat) : Block :=
  let world := (getPort b h port.val).claimed
  let write := r.write.isSome
  let order (e : IoHeld) : IoHeld :=
    { e with port := some port, reply := !write, ordered := write && !r.relaxed, after := !write || !r.relaxed }
  if !world && ownLent b h part pa then
    refuseTlp (countDenied b h (agIo h) port.val pa 0) h (some port) write
  else match decodePa b h part pa, memRequest b h world part pa r.write with
  | _, some e => ioLaunch b h (order e)
  | .win wh _ 0 _, none =>
    let me := myNode b (agIo h)
    let dst := myNode b (agIo wh)
    match r.write with
    | none => ioLaunch b h (order { port := none, msg := { hdr := mkPio opIoRd world dst me 0 pa r.len 0 }, part := part })
    | some w =>
      ioLaunch b h (order { port := none, msg := { hdr := mkPio opIoWr world dst me 0 pa r.len w.poison, data := w.data }, part := part })
  | _, none => refuseDevice b h port write world pa

/-- May a port's devices act: the port is up, belongs to a partition and has not accepted a power request (R405)? -/
def portActs (b : Block) (h : Hub) (p : Fin 16) : Bool :=
  portReady b h p.val && !hasAccepted b (1024 + h.idx * 16 + p.val)

/-- DEVICE_REQUEST. -/
def deviceRequest (b : Block) (h : Hub) (port : Fin 16) (r : DeviceReq) : Block :=
  match portActs b h port, quarterPart b (portQuarter h port.val) with
  | true, some part =>
    let world := (getPort b h port.val).claimed
    match r.xl, r.write with
    | none, w => refuseDevice b h port w.isSome world 0
    | some .fault, w => refuseDevice b h port w.isSome world 0
    | some (.ok pa), some w =>
      if r.msi then sendMsi b h (agIo h) part (pa / 4096 * 4096) (lineBytes w.data (pa % 64 / 4 * 4) 4) world
      else deviceAccess b h port part r pa
    | some (.ok pa), none => deviceAccess b h port part r pa
  | _, _ => b

def execDeviceRequest (hub : Hub) (port : Fin 16) (req : DeviceReq) (s : State) : Host.Outcome State Fault Refusal :=
  nextBlk s (deviceRequest s.blk hub port req)

/-- CXL_CACHE_REQUEST: served at the line's home; another address is refused as R463 gives. -/
def cxlCache (b : Block) (h : Hub) (port : Fin 16) (pa : Nat) (w : Option LineWrite) : Block :=
  match portActs b h port, quarterPart b (portQuarter h port.val) with
  | true, some part =>
    let world := (getPort b h port.val).claimed
    if !world && ownLent b h part pa then refuseTlp (countDenied b h (agIo h) port.val pa 0) h (some port) false
    else match memRequest b h world part pa w with
      | none => refuseDevice b h port false world pa
      | some e => ioLaunch b h { e with port := some port, reply := true }
  | _, _ => b

def execCxlCacheRequest (hub : Hub) (port : Fin 16) (pa : PA) (write : Option LineWrite) (s : State) :
    Host.Outcome State Fault Refusal := nextBlk s (cxlCache s.blk hub port pa write)

/-- BI_SNOOP: a CMO at the line's slice, answered with BIRsp; the line lies in a KIND 1 window of the port. -/
def biSnoop (b : Block) (h : Hub) (port : Fin 16) (op : BiOp) (pa : Nat) : Block :=
  match portActs b h port, quarterPart b (portQuarter h port.val) with
  | true, some part =>
    match decodePa b h part pa with
    | .win wh _ 1 p =>
      if wh = h ∧ p = port.val then
        let code := if op = .inv then opCmoCleanInval else opCmoClean
        let hdr := mkReq code (getPort b h port.val).claimed (myNode b (agHome h)) (myNode b (agIo h)) 0 (pa / 64) 0
        ioLaunch b h { port := some port, msg := { hdr := hdr }, part := part, bi := some pa }
      else b
    | _ => b
  | _, _ => b

def execBiSnoop (hub : Hub) (port : Fin 16) (op : BiOp) (pa : PA) (s : State) : Host.Outcome State Fault Refusal :=
  nextBlk s (biSnoop s.blk hub port op pa)

/-! ## Root-port links (R453, R456) -/

/-- DL_ACTIVE. -/
def dlActive (b : Block) (h : Hub) (p : Fin 16) : Block :=
  if portExists b h p.val = true ∧ (quarterPart b (portQuarter h p.val)).isSome = true then
    setPortReady (updPort b h p.val fun x => { x with up := true }) h p.val true
  else b

def execDlActive (hub : Hub) (port : Fin 16) (s : State) : Host.Outcome State Fault Refusal :=
  nextBlk s (dlActive s.blk hub port)

/-- Answer a request on the PCIe side with an error: Comp STATUS ERROR for an IoRd, as a frozen channel for a CXL.mem request
(R459), a lost write for a configuration write (R456, R459). -/
def pcieError (h : Hub) (r : PcieReq) (b : Block) : Block :=
  let b := updIo b h fun i => { i with pcie := i.pcie.filter fun x => !(x.port == r.port && x.tag == r.tag) }
  match r.mem with
  | some (s, id) =>
    match r.write, id with
    | false, some i =>
      let (d, b) := freeLine b
      memAnswer b h s i d 0xFF
    | false, none => b
    | true, none => writeLost b h s (hLine r.hdr * 64) (hWorld r.hdr)
    | true, some _ => memTold b h s id false
  | none =>
    if r.write then
      let b := addLost b 0 (hSrc r.hdr) (hDst r.hdr)
      raise b (agIo h) ((r.port.map (·.val)).getD 16) 7 7 sevDefer (4 * b2n (hWorld r.hdr)) (pioPa r.hdr) (r.hdr.toNat % 2 ^ 64)
    else hubPut b h { hdr := mkComp (hWorld r.hdr) (hSrc r.hdr) (hDst r.hdr) (hTag r.hdr) stI stsError 0 }

/-! ## Flushes of I/O writes (R257, R258) -/

/-- Answer the MsFlush whose flush reads and configuration writes are all in, in the order sent per source (R126). -/
def answerFlushes (h : Hub) : List FlushWait → List FlushWait → Block → List FlushWait × Block
  | [], kept, b => (kept, b)
  | f :: rest, kept, b =>
    if !f.windows.isEmpty || !f.cfgs.isEmpty || kept.any (fun k => hSrc k.hdr == hSrc f.hdr) then
      answerFlushes h rest (kept ++ [f]) b
    else
      let n := f.lost + lostOf b 0 (hSrc f.hdr) (hDst f.hdr)
      let sts := if n = 0 then stsOk else stsLost
      let b := clearLost b 0 (hSrc f.hdr) (hDst f.hdr)
      let c := mkComp (hWorld f.hdr) (hSrc f.hdr) (hDst f.hdr) (hTag f.hdr) stI sts (lostField n)
      answerFlushes h rest kept (hubPut b h { hdr := c })

def settleFlushes (b : Block) (h : Hub) : Block :=
  let (kept, b) := answerFlushes h (getIo b h).flushes [] b
  updIo b h fun i => { i with flushes := kept }

/-- A flush read of a window ends: its writes are confirmed, or count as discarded. -/
def flushRead (b : Block) (h : Hub) (w : Nat) (ok : Bool) : Block :=
  let waits (x : FlushWait) : Bool := x.windows.any fun y => y.1 == w
  let done (x : FlushWait) : FlushWait :=
    let n := ((x.windows.find? fun y => y.1 == w).map (·.2)).getD 0
    { x with windows := x.windows.filter (fun y => y.1 != w), lost := if ok then x.lost else x.lost + n }
  settleFlushes (updIo b h fun i => { i with flushes := updFirst waits done i.flushes }) h

def execFlushReadDone (hub : Hub) (w : Fin 64) (result : TlpStatus) (s : State) : Host.Outcome State Fault Refusal :=
  nextBlk s (flushRead s.blk hub w.val (result == .ok))

/-- Windows of a hub that lead to a port. -/
def portWindows (b : Block) (h : Hub) (p : Nat) : List Nat :=
  (List.range 64).filter fun w => fget b (HUB_HPW_BASE h w) HUB_HPW_BASE_PORT == p

/-- DL_DOWN. -/
def dlDown (b : Block) (h : Hub) (p : Fin 16) : Block :=
  if portReady b h p.val then
    let b := setPortReady (updPort b h p.val fun x => { x with up := false }) h p.val false
    let b := raise b (agIo h) p.val 7 4 sevUncorr 0 (place (HUB_MILEPOST_IO h) 43 8) (rd b (HUB_MILEPOST_IO h))
    let dead := (getIo b h).pcie.filter fun r => r.port == some p
    let b := forEach dead (pcieError h) b
    let b := updIo b h fun i => { i with
      held := i.held.filter fun e => e.port != some p
      waits := i.waits.map fun w => if w.port = some p then { w with reply := false, ordered := false, bi := none } else w
      flushes := i.flushes.map fun f =>
        { f with cfgs := f.cfgs.filter fun t => !(dead.any fun r => r.tag == t) } }
    let again := (getIo b h).flushes.length
    let b := forEach (portWindows b h p.val) (fun w b => forEach (List.range again) (fun _ b => flushRead b h w false) b) b
    settleFlushes b h
  else b

def execDlDown (hub : Hub) (port : Fin 16) (s : State) : Host.Outcome State Fault Refusal :=
  nextBlk s (dlDown s.blk hub port)

/-! ## PCIe completions (R454, R459) -/

/-- A completion for a request of a port: `ok` with data at its place in the block. -/
def pcieDone (b : Block) (h : Hub) (r : PcieReq) (status : TlpStatus) (data : LineData) : Block :=
  let drop (b : Block) : Block :=
    updIo b h fun i => { i with
      pcie := i.pcie.filter fun x => !(x.port == r.port && x.tag == r.tag)
      flushes := i.flushes.map fun f => { f with cfgs := f.cfgs.filter (· != r.tag) } }
  if status = .ok then
    let b := drop b
    match r.mem with
    | some (s, some i) => if r.write then memTold b h s (some i) true else memAnswer b h s i data 0
    | some (_, none) => b
    | none =>
      if r.write then settleFlushes b h
      else
        let be := beOf (pioPa r.hdr % 64) (pioLen r.hdr + 1)
        hubPut b h { hdr := mkDat opCompData (hWorld r.hdr) (hSrc r.hdr) (hDst r.hdr) (hTag r.hdr) stI stsOk 0 be 0
                     data := data &&& beMask be }
  else settleFlushes (drop (pcieError h r b)) h

/-- PCIE_COMPLETION and COMPLETION_TIMEOUT. -/
def pcieComplete (b : Block) (h : Hub) (port : Option (Fin 16)) (tag : Nat) (status : TlpStatus) (data : LineData) : Block :=
  match port with
  | none => (dmBus b h tag status data).getD b
  | some p =>
    match (getIo b h).pcie.find? fun r => r.port == some p && r.tag == tag with
    | none => b
    | some r => pcieDone b h r status data

def execPcieCompletion (hub : Hub) (port : Option (Fin 16)) (tag : Nat) (status : TlpStatus) (data : LineData) (s : State) :
    Host.Outcome State Fault Refusal := nextBlk s (pcieComplete s.blk hub port tag status data)

def execCompletionTimeout (hub : Hub) (port : Option (Fin 16)) (tag : Nat) (s : State) :
    Host.Outcome State Fault Refusal := nextBlk s (pcieComplete s.blk hub port tag .timeout 0)

/-! ## Wired interrupts (R321, R322) -/

/-- The APLIC of a hub may send an MSI for a source: whether it does, its target and its identity are what software has
configured there, which the spec gives no registers for (log entry 12). -/
def aplicSend (b : Block) (h : Hub) (part : Nat) (world : Bool) : Block :=
  let (send, b) := freeNat b
  if send % 2 = 0 then b
  else
    let (pa, b) := freeNat b
    let (data, b) := freeNat b
    sendMsi b h (agIo h) part (pa % 2 ^ 52) data world

/-- Partition of an APLIC source: the Tollhouse assigned it when partitions were formed (R322); which one is free. -/
def sourcePart (b : Block) (h : Hub) (n : Nat) : Option Nat × Block :=
  match (getIo b h).aplicPart.get 0 n with
  | 0 =>
    let (p, b) := freePick b ((List.range 4).filter (partExists b))
    match p with
    | none => (none, b)
    | some p => (some p, updIo b h fun i => { i with aplicPart := i.aplicPart.set 0 n (p + 1) })
  | p + 1 => (some p, b)

/-- GPIO_PIN_CHANGE: a pin of the secure world interrupts through secure sources only. -/
def pinChange (b : Block) (h : Hub) (input : GpioInput) (level : Bool) : Block :=
  match input with
  | .pin p =>
    if (getIo b h).pinLevel.get false p.val = level then b
    else
      let b := updIo b h fun i => { i with pinLevel := i.pinLevel.set false p.val level }
      match sourcePart b h (1024 + p.val) with
      | (none, b) => b
      | (some part, b) => aplicSend b h part (bitOf (rd b (HUB_PIN_WORLD h)) p.val)
  | .source n =>
    if n.val = 0 ∨ (getIo b h).sourceLevel.get false n.val = level then b
    else
      let b := updIo b h fun i => { i with sourceLevel := i.sourceLevel.set false n.val level }
      match sourcePart b h n.val with
      | (none, b) => b
      | (some part, b) => aplicSend b h part ((getIo b h).aplicSecure.get false n.val)

def execGpioPinChange (hub : Hub) (input : GpioInput) (level : Bool) (s : State) : Host.Outcome State Fault Refusal :=
  nextBlk s (pinChange s.blk hub input level)

end Sys2Proof.Machine
end

