-- ==== Sys2Proof/Machine/Answers.lean ====
section
/-! DEFINITION. Answers at their requesters (R163, R164, R187, R206): compute dies, I/O agents with their highway proxies, data
movers and relays. -/

namespace Sys2Proof.Machine

/-- Inbox of an agent. -/
def agentBox : Agent → Nat
  | .die k => boxDie k.val
  | .io h => boxIo h
  | .dm h => boxDm h
  | .th h => boxTh h

/-- The oldest answer of a channel that an agent has not taken, where it has the opcode. -/
def nextAnswer (b : Block) (a : Agent) (vc op : Nat) : Option (Msg × Block) :=
  if boxHeadIs b (agentBox a) vc op then popBox b (agentBox a) vc else none

/-- Does an answer at an I/O agent belong to its highway proxy (R490)? -/
def proxyTag (m : Msg) : Bool := decide (2048 ≤ hTag m.hdr)

/-- Comp at an agent. -/
def takeComp (b : Block) (a : Agent) : Block :=
  match nextAnswer b a vcRsp opComp with
  | none => b
  | some (m, b) =>
    match a with
    | .die k => msCheckDie (dieComp b k.val m) k.val
    | .io h => if proxyTag m then proxyAnswer b h m else ioComp b h m
    | .dm h => dmComp b h m
    | .th h => relayComp b h m

/-- CompData at an agent. -/
def takeCompData (b : Block) (a : Agent) : Block :=
  match nextAnswer b a vcDat opCompData with
  | none => b
  | some (m, b) =>
    match a with
    | .die k => msCheckDie (dieCompData b k.val m) k.val
    | .io h => if proxyTag m then proxyAnswer b h m else ioCompData b h m
    | .dm h => dmCompData b h m
    | .th _ => unknownTag b m

/-- DataFwd at an agent: only a die's request is forwarded to (R164, R491). -/
def takeDataFwd (b : Block) (a : Agent) : Block :=
  match nextAnswer b a vcDat opDataFwd with
  | none => b
  | some (m, b) =>
    match a with
    | .die k => msCheckDie (dieDataFwd b k.val m) k.val
    | _ => unknownTag b m

/-- WbGrant at an agent. -/
def takeWbGrant (b : Block) (a : Agent) : Block :=
  match nextAnswer b a vcRsp opWbGrant with
  | none => b
  | some (m, b) =>
    match a with
    | .die k => msCheckDie (dieWbGrant b k.val m) k.val
    | .io h => if proxyTag m then proxyAnswer b h m else ioWbGrant b h m
    | .dm h => dmWbGrant b h m
    | .th _ => unknownTag b m

/-- WbAck at an agent: only a die or its proxy writes back (R187, R464). -/
def takeWbAck (b : Block) (a : Agent) : Block :=
  match nextAnswer b a vcRsp opWbAck with
  | none => b
  | some (m, b) =>
    match a with
    | .die k => msCheckDie (dieWbAck b k.val m) k.val
    | .io h => if proxyTag m then proxyAnswer b h m else unknownTag b m
    | _ => unknownTag b m

/-- COMP (R163, R164, R166, R258, R309, R432). -/
def execComp (agent : Agent) (s : State) : Host.Outcome State Fault Refusal := nextBlk s (takeComp s.blk agent)

/-- COMP_DATA (R163, R215). -/
def execCompData (agent : Agent) (s : State) : Host.Outcome State Fault Refusal := nextBlk s (takeCompData s.blk agent)

/-- DATA_FWD (R164). -/
def execDataFwd (agent : Agent) (s : State) : Host.Outcome State Fault Refusal := nextBlk s (takeDataFwd s.blk agent)

/-- WB_GRANT (R206). -/
def execWbGrant (agent : Agent) (s : State) : Host.Outcome State Fault Refusal := nextBlk s (takeWbGrant s.blk agent)

/-- WB_ACK (R187). -/
def execWbAck (agent : Agent) (s : State) : Host.Outcome State Fault Refusal := nextBlk s (takeWbAck s.blk agent)

end Sys2Proof.Machine
end

