-- ==== Sys2Proof/Machine/Boot.lean ====
section
/-! DEFINITION. Power-up, package resets and the boot of the Tollhouses (R44 to R49, R374 to R376, R529 to R535). -/

namespace Sys2Proof.Machine

/-! ## Memory population (R329 to R331) -/

/-- Logical ranks of a channel's DIMMs (R329). -/
def dimmRanks (d : Dimm) : Nat := (if d.two then 2 else 1) * (if d.twoRanks then 2 else 1) * 2 ^ d.stack.val

/-- Does a population meet R329? -/
def dimmOk (d : Dimm) : Bool :=
  (d.kind == 1 || (d.kind == 2 && !d.two)) && decide (d.stack.val ≤ 2) &&
    decide (dimmRanks d ≤ if d.dense then 8 else 16)

/-- Speeds of R329 for a population, fastest first. -/
def dimmSpeeds (d : Dimm) : List Nat :=
  let all := if d.kind = 2 then [12800, 8800] else if d.two then [6400, 5600, 4800] else [8000, 7200, 6400, 5600, 4800]
  all.filter d.speeds.contains

/-- Populated channels of a hub, with their package number. -/
def hubDimms (board : Board) (h : Hub) : List (Nat × Dimm) :=
  ((List.range 8).filterMap fun c => (board.dimms[8 * h.idx + c]?).map fun d => (8 * h.idx + c, d)).filter fun x =>
    x.2.kind != 0

/-- Speed of a hub: the fastest that every populated channel supports (R331). -/
def hubSpeed (ds : List (Nat × Dimm)) : Option Nat :=
  match ds with
  | [] => none
  | d :: r => (dimmSpeeds d.2).find? fun s => r.all fun x => (dimmSpeeds x.2).contains s

/-- Does a hub hold both module types (R330)? -/
def hubMixed (ds : List (Nat × Dimm)) : Bool := (ds.any fun x => x.2.kind == 1) && ds.any fun x => x.2.kind == 2

/-- Find one populated channel: MC_CONFIG and the capacity of a channel that will be trained, a record for another. -/
def findChan (mixed : Bool) (speed : Option Nat) (x : Nat × Dimm) (b : Block) : Block :=
  let h := hubOf (x.1 / 8)
  let c := x.1 % 8
  let d := x.2
  match speed with
  | some s =>
    if mixed || !dimmOk d || !d.trains then raise b (agHome h) (40 + c) 5 4 sevInfo 0 (place (MC_CONFIG h c) 43 8) 0
    else
      let w := place s 31 16 + place (dimmRanks d - 1) 15 12 + place d.stack.val 9 8 + place (b2n d.twoRanks) 6 6 +
        place (b2n d.dense) 5 5 + place (b2n d.two) 4 4 + place d.kind.val 3 2
      updChan (wr b (MC_CONFIG h c) w) x.1 fun ch => { ch with
        capacity := dimmRanks d * (if d.dense then 64 else 32) * 2 ^ 30, training := true, keep := 0 }
  | none => raise b (agHome h) (40 + c) 5 4 sevInfo 0 (place (MC_CONFIG h c) 43 8) 0

/-- Find the channels of a hub. -/
def findChans (board : Board) (h : Hub) (b : Block) : Block :=
  let ds := hubDimms board h
  forEach ds (findChan (hubMixed ds) (hubSpeed ds)) b

/-- Train the channels found: each is filled, but for the ranks it keeps (R332, R353). -/
def trainChans (b : Block) : Block :=
  forEach (List.range 16) (fun c b => if (getChan b c).training then
    updChan b c fun ch => { ch with training := false, filling := true, pauseDue := true } else b) b

/-! ## What survives (R376, R402) -/

/-- Registers of the always-on rings. -/
def aoReg (off : Nat) : Bool := decide (0x7_4000 ≤ off % 0x1000_0000 ∧ off % 0x1000_0000 < 0x7_4200 ∧ off < 0x2000_0000)

/-- Registers that a package warm reset keeps beside them: the channels' configuration and their freeze capture. -/
def warmReg (off : Nat) : Bool :=
  let rel := off % 0x1000_0000
  aoReg off || (decide (0x3_0000 ≤ rel ∧ rel < 0x3_2000 ∧ off < 0x2000_0000) &&
    (rel % 0x400 == 0 || rel % 0x400 == 0x18 || rel % 0x400 == 0x20))

/-- Registers that PK5 keeps: also those of the power controller and the wake registers. -/
def pk5Reg (off : Nat) : Bool :=
  warmReg off || decide (0x800 ≤ off % 0x1000_0000 ∧ off % 0x1000_0000 < 0x828 ∧ off < 0x2000_0000)

/-- The block with everything in its reset state but the registers that `keep` names, the always-on rings, the plans and the
time counters, the levels of input lands, and the records of the always-on islands that no ring has yet. -/
def clearBlock (b : Block) (keep : Nat → Bool) : Block :=
  let levels (i : IoAgent) : IoAgent := { pinLevel := i.pinLevel, sourceLevel := i.sourceLevel }
  let path := (b.evPath.cells.map fun c => (c.1, c.2.filter (·.aoOnly))).filter fun c => !c.2.isEmpty
  let spurs := (b.spurs.cells.filter fun c => !c.2.powerGood).map fun c => (c.1, ({ powerGood := false } : Spur))
  let io := (b.io.cells.map fun c => (c.1, levels c.2)).filter fun c => c.2 != {}
  { regs := tabDrop b.regs fun o => !keep o
    coal := tabDrop b.coal fun o => !keep (o / 64)
    rings := tabDrop b.rings fun k => decide (k < 128)
    time := b.time
    freeIx := b.freeIx
    power := b.power
    outbox := b.outbox
    evPath := { cells := path }
    spurs := { cells := spurs }
    io := { cells := io }
    pkg := { plan := b.pkg.plan, portModes := b.pkg.portModes, modesNow := b.pkg.portModes
             fabricPlan := b.pkg.fabricPlan } }

/-- Reference source of the package (R370), with what the monitors see. -/
def setSource (b : Block) (source : Nat) (primary fallback : Bool) : Block :=
  let one (h : Hub) (b : Block) : Block :=
    let r := HUB_CLK_STATUS h
    fset (fset b r HUB_CLK_STATUS_SOURCE source) r HUB_CLK_STATUS_PRIMARY_OK (b2n primary)
  fset (one .s (one .n b)) (HUB_CLK_STATUS .n) HUB_CLK_STATUS_FALLBACK_OK (b2n fallback)

/-- The hubs leave reset: their slices serve, and both ends of the causeway enter LOCK (R99). -/
def hubsUp (b : Block) : Block :=
  let one (h : Hub) (b : Block) : Block :=
    enterLock (setMilepost b (HUB_MILEPOST_DIES h) 8 true (agHome h) 50 9) (.hub h 7) false
  alignAll (one .s (one .n b))

/-! ## Package resets (R375, R376) -/

/-- Package cold reset and its release: all but the always-on state is reset, DRAM is lost, the board's memory is found. -/
def coldReset (b : Block) (board : Board) : Block :=
  let p := b.power
  let b := clearBlock b aoReg
  let b := { b with power :=
    { aoGood := p.aoGood, mainGood := p.mainGood, enMain := p.enMain, enCore := p.enCore, coldHigh := p.coldHigh
      coldHeld := p.coldHeld, needPulse := p.needPulse, spiOff := p.spiOff, matchBmc := p.matchBmc
      matchPlt := p.matchPlt } }
  let b := setSource b (if board.primarySeen then 0 else 1) board.primarySeen board.fallbackLocked
  hubsUp (findChans board .s (findChans board .n b))

/-- PACKAGE_COLD_RESET: a requested cold reset, once the package is powered and COLD_RST_N is high. -/
def runColdReset (x : Block × Dram) (board : Board) : Block × Dram :=
  let p := x.1.power
  if x.1.pkg.resetDue = 1 ∧ p.aoGood = true ∧ p.mainGood = true ∧ p.enCore = true ∧ p.coldHigh = true ∧ p.coldHeld = false then
    (coldReset x.1 board, {})
  else x

def execPackageColdReset (board : Board) (s : State) : Host.Outcome State Fault Refusal :=
  nextMem s (runColdReset (s.blk, s.dram) board)

/-- Begin a package warm reset: each core of a die that is not lost drains (R268). -/
def beginWarm (b : Block) : Block :=
  let b := { b with pkg := { b.pkg with resetDue := 2 } }
  let dies := (List.range 12).filter fun k => !(getDie b k).inReset && !agentLost b (dieHub k) k
  forEach dies (fun k b => forEach (dieHarts k) beginDrain b) b

/-- Channels of a package that keeps its DRAM: they retrain at the next training, keeping the ranks of `keep`. -/
def keepChans (old : Tab Chan) (keep : Chan → Nat) : Tab Chan :=
  { cells := old.cells.map fun c => (c.1,
    { dump := c.2.dump, retain := c.2.retain, capacity := c.2.capacity, training := decide (c.2.capacity ≠ 0)
      keep := if c.2.capacity = 0 then 0 else keep c.2 }) }

/-- Objects after every object is destroyed (R68). -/
def destroyAll (b : Block) : Block := freeObjs b fun _ => true

/-- Package warm reset, once the cores have drained: dirty system-cache lines and held writes go to memory, and all but DRAM
and the always-on state is reset (R376). -/
def warmReset (x : Block × Dram) : Block × Dram :=
  let x := (List.range 16).foldl (fun x c => flushChan c x) x
  let x := (List.range 64).foldl (fun x i => resetSlice (hubOf (i / 32)) (i % 32) x) x
  let b := destroyAll x.1
  let src := fget b (HUB_CLK_STATUS .n) HUB_CLK_STATUS_SOURCE
  let prim := fon b (HUB_CLK_STATUS .n) HUB_CLK_STATUS_PRIMARY_OK
  let fall := fon b (HUB_CLK_STATUS .n) HUB_CLK_STATUS_FALLBACK_OK
  let c := clearBlock b warmReg
  let p := { b.power with attempt := none, delays := [], blocked := false, window := false, heldWake := none, pk := 0
                          warmAfterWake := false, grants := {}, partCeil := {} }
  let c := { c with power := p, objs := b.objs, chans := keepChans b.chans fun _ => 0xFFFF
                    pkg := { c.pkg with freeSerial := b.pkg.freeSerial } }
  let unfreeze (i : Nat) (c : Block) : Block :=
    fset c (MC_FREEZE_STATUS (hubOf (i / 8)) (i % 8)) MC_FREEZE_STATUS_FROZEN 0
  let scope (k : Nat) (c : Block) : Block := fset c (FCD_RESET_STATUS k) FCD_RESET_STATUS_LAST_SCOPE 1
  let c := forEach (List.range 12) scope (forEach (List.range 16) unfreeze c)
  (hubsUp (setSource c src prim fall), x.2)

/-- PACKAGE_WARM_RESET: a requested warm reset, once no core drains. -/
def runWarmReset (x : Block × Dram) : Block × Dram :=
  if x.1.pkg.resetDue = 2 ∧ ((List.range 240).all fun i => !drains x.1 i) = true then warmReset x else x

def execPackageWarmReset (s : State) : Host.Outcome State Fault Refusal := nextMem s (runWarmReset (s.blk, s.dram))

/-! ## Power-up (R529 to R531, R534) -/

def setPower (b : Block) (f : Power → Power) : Block := { b with power := f b.power }

/-- AO_PWRGOOD (R529 steps 2 and 3). -/
def execAoPwrgood (s : State) : Host.Outcome State Fault Refusal :=
  nextBlk s (if s.blk.power.aoGood then s.blk
    else setPower s.blk fun p => { p with aoGood := true, enMain := true })

/-- AO_PWRGOOD_FALL (R534, R374): the package is unpowered in effect, and everything is lost. -/
def execAoPwrgoodFall (s : State) : Host.Outcome State Fault Refusal :=
  nextBlk s { freeIx := s.blk.freeIx, outbox := s.blk.outbox }

/-- PWRGOOD (R529 step 5): ignored while PWR_EN_MAIN is deasserted (R531). -/
def execPwrgood (s : State) : Host.Outcome State Fault Refusal :=
  nextBlk s (if s.blk.power.enMain ∧ s.blk.power.mainOffDue = false then
    setPower s.blk fun p => { p with mainGood := true, enCore := true } else s.blk)

/-- A record of the HUB-N always-on island to always-on ring 0 (R530, R531). -/
def aoRecord (b : Block) : Block :=
  raise b (agHome .n) 52 10 4 sevUncorr 0 (place HUB_PWR_STATUS 43 8) (rd b HUB_PWR_STATUS) true

/-- PWRGOOD_TIMEOUT (R530), while PWR_EN_MAIN is asserted and not about to fall. -/
def execPwrgoodTimeout (s : State) : Host.Outcome State Fault Refusal :=
  nextBlk s (if s.blk.power.enMain ∧ s.blk.power.mainGood = false ∧ s.blk.power.mainOffDue = false then
    aoRecord (setPower s.blk fun p => { p with enMain := false, needPulse := true }) else s.blk)

/-- PWRGOOD_FALL (R531): clocks stop, PWR_EN_CORE drops, PWR_EN_MAIN follows, and a cold reset is requested. -/
def execPwrgoodFall (s : State) : Host.Outcome State Fault Refusal :=
  nextBlk s (if s.blk.power.enMain ∧ s.blk.power.mainGood then
    aoRecord (setPower s.blk fun p => { p with
      mainGood := false, clocksStopped := true, enCore := false, mainOffDue := true, coldHeld := true, pk := 0 })
    else s.blk)

/-- The exit from PK5 as far as the hubs' release (R415): what PK5 lost was lost at commit. -/
def pk5Release (b : Block) : Block :=
  hubsUp (setPower { b with pkg := { b.pkg with resumePk5 := true } } fun p => { p with pk := 0 })

/-- COLD_RESET_RELEASE (R529 step 7, R532): with COLD_RST_N high, package cold reset is released; on the way out of PK5 the
exit goes on by R415. -/
def coldRelease (b : Block) : Block :=
  let p := b.power
  if p.enCore = false ∨ p.mainGood = false ∨ p.coldHigh = false ∨ p.coldHeld = false then b
  else
    let b := setPower b fun p => { p with coldHeld := false }
    if p.pk = 5 then pk5Release b else { b with pkg := { b.pkg with resetDue := 1 } }

def execColdResetRelease (s : State) : Host.Outcome State Fault Refusal := nextBlk s (coldRelease s.blk)

/-- A request for package cold reset (R376): a package that is powered and released resets; one whose main rails are off
powers up first; one that is held in reset on its way out of PK5 resets instead of resuming. -/
def requestCold (b : Block) : Block :=
  let p := b.power
  if p.aoGood = false then b
  else if p.enMain = false then setPower b fun p => { p with enMain := true, needPulse := false, pk := 0, coldHeld := true }
  else if p.coldHeld then setPower b fun p => { p with pk := 0 }
  else { b with pkg := { b.pkg with resetDue := 1 } }

/-- COLD_RST_N (R534, R535, R537): an edge of the land; at a rise, the time it was low in µs. -/
def coldPin (b : Block) (level : Bool) (low : Nat) : Block :=
  if level = false then setPower b fun p => { p with coldHigh := false, spiOff := true }
  else
    let b := setPower b fun p => { p with coldHigh := true, spiOff := false }
    if low < 10 then b else requestCold b

def execColdRstN (level : Bool) (lowMicros : Nat) (s : State) : Host.Outcome State Fault Refusal :=
  nextBlk s (coldPin s.blk level lowMicros)

/-! ## The Tollhouses (R44 to R49) -/

/-- Is a slot's image accepted (R46, R47)? -/
def imageOk (i : ImageSlot) : Bool :=
  i.length != 0 && decide (i.length ≤ 1572864) && i.signatureOk && i.keyOk &&
    decide (Config.fuseVersion.toNat ≤ i.secVersion)

/-- Service bits of HUB_MILEPOST_TH but PARTITION, which sets when the partitions are formed (R375 step 8). FABRIC waits for the
roll call where there is one (R483, R484). -/
def bootServices : List Nat := [0, 1, 2, 4, 5, 6, 7, 8, 9, 10, 11]

/-- A Tollhouse starts an image: its mileposts set. -/
def startImage (b : Block) (h : Hub) (i : ImageSlot) (slotB : Bool) : Block :=
  let b := updTh b h fun t => { t with running := true, stopped := false, slotB := slotB, build := i.build }
  let alone := b.pkg.fabricPlan.topology == 0
  forEach (bootServices.filter fun n => n != 8 || alone) (fun n b => setThMilepost b h n true) b

/-- TOLLHOUSE_BOOT (R48 steps 1 to 4): on power-good, out of reset. -/
def bootN (b : Block) (slotA slotB : ImageSlot) : Block :=
  let t := getTh b .n
  let p := b.power
  if p.coldHeld = true ∨ p.mainGood = false ∨ b.pkg.resetDue ≠ 0 ∨ t.running = true ∨ t.recovery = true then b
  else if imageOk slotA then startImage b .n slotA false
  else if imageOk slotB then startImage b .n slotB true
  else updTh b .n fun t => { t with recovery := true }

def execTollhouseBoot (slotA slotB : ImageSlot) (s : State) : Host.Outcome State Fault Refusal :=
  nextBlk s (bootN s.blk slotA slotB)

/-- Partitions of a plan. -/
def planParts (p : Plan) : List Nat := (List.range 4).filter fun n => (p.ents.getD n {}).qmask != 0

/-- Form the partitions of the stored plan; each is to be released (R375 steps 8 and 9). -/
def formAll (b : Block) : Block :=
  let p := b.pkg.plan
  let b := formParts b p (planParts p) [.n, .s]
  let b := setThMilepost (setThMilepost b .n 3 true) .s 3 true
  { b with pkg := { b.pkg with rolling := 0, releaseDue := planParts p } }

/-- Steps 5 to 8 of R375. -/
def bootRest (b : Block) : Block :=
  let bad := !planValid b b.pkg.plan
  let b := if bad then
    raise { b with pkg := { b.pkg with plan := {} } } (agTh .n) 0 9 4 sevInfo 0 (place (HUB_PART_STATE .n) 43 8) 0 else b
  let b := startDies b (planQuarters b.pkg.plan (planParts b.pkg.plan))
  let b := trainChans b
  let b := forEach [Hub.n, Hub.s] (fun h b => forEach (List.range 16) (fun e b => setEngineReady b h e true) b) b
  let b := forEach [Hub.n, Hub.s] (fun h b => forEach (List.finRange 2) (fun k b => linkStart b (.hwy h k)) b) b
  if b.pkg.fabricPlan.topology = 0 then formAll b else { b with pkg := { b.pkg with rolling := 1 } }

/-- HUB_S_IMAGE_RECEIVED (R48 steps 5 and 6): the image of the running HUB-N firmware over the causeway. -/
def bootS (b : Block) (i : ImageSlot) : Block :=
  if (getTh b .n).running = false ∨ (getTh b .s).running = true ∨ endMilepost b .s 7 = false then b
  else if imageOk i then
    let b := bootRest (startImage b .s i (getTh b .n).slotB)
    if b.power.warmAfterWake then beginWarm (setPower b fun p => { p with warmAfterWake := false }) else b
  else b

def execHubSImageReceived (image : ImageSlot) (s : State) : Host.Outcome State Fault Refusal :=
  nextBlk s (bootS s.blk image)

/-- LOCKSTEP_MISMATCH (R44): the Tollhouse stops, the mismatch is recorded, and every bit of HUB_MILEPOST_TH clears. -/
def lockstep (b : Block) (h : Hub) : Block :=
  let b := raise b (agTh h) 0 13 4 sevFatal 0 (place (HUB_MILEPOST_TH h) 43 8) (rd b (HUB_MILEPOST_TH h)) true
  let b := updTh b h fun t => { t with stopped := true }
  forEach (List.range 12) (fun n b => setThMilepost b h n false) b

def execLockstepMismatch (hub : Hub) (s : State) : Host.Outcome State Fault Refusal := nextBlk s (lockstep s.blk hub)

end Sys2Proof.Machine
end

