-- ==== Sys2Proof/Machine/Endpoint.lean ====
section
/-! DEFINITION. The endpoint face (R465 to R475): lent memory, window tables and commits, resets seen from the foreign host,
its configuration writes, and emulated INTx. -/

namespace Sys2Proof.Machine

/-- Does lane group 0 of a hub run as an endpoint (R451)? -/
def epMode (b : Block) (h : Hub) : Bool := b.pkg.modesNow.getD (h.idx * 4) 0 == 4

def epUp (b : Block) (h : Hub) : Bool := fon b (EP_STATUS h) EP_STATUS_LINK_UP

/-- Mailbox page of the foreign host of an endpoint (R50). -/
def epPage (h : Hub) : Nat := 18 + h.idx

/-! ## INTx (R469) -/

/-- The level of the emulated INTA. -/
def intxLevel (b : Block) (h : Hub) : Bool :=
  fon b (TH_MBX_STATE (epPage h)) TH_MBX_STATE_IRQ_PENDING && !(getIo b h).ep.msixOn && !(getIo b h).ep.intxOff

/-- Send Assert_INTA or Deassert_INTA where the level has changed. -/
def epIntx (b : Block) (h : Hub) : Block :=
  let level := intxLevel b h
  if epUp b h = false ∨ (getIo b h).ep.intxSent = level then b
  else emit (updIo b h fun i => { i with ep := { i.ep with intxSent := level } }) (.intx h level)

/-- ENDPOINT_LINK_UP: the link trains only while the PF exists (R465). -/
def endpointUp (b : Block) (h : Hub) : Block :=
  if epMode b h = true ∧ (getFn b h 0).live = true ∧ epUp b h = false then
    let b := fset b (EP_STATUS h) EP_STATUS_LINK_UP 1
    epIntx (updIo b h fun i => { i with ep := { i.ep with intxSent := false } }) h
  else b

def execEndpointLinkUp (hub : Hub) (s : State) : Host.Outcome State Fault Refusal := nextBlk s (endpointUp s.blk hub)

/-! ## Lent memory (R473) -/

/-- CXL_MEM_REQUEST: MemRd as RdOnce and MemWr as WrUnique of the whole line, with WORLD 0. -/
def cxlMem (b : Block) (h : Hub) (dpa : Nat) (w : Option LineWrite) : Block :=
  match (getIo b h).ep.lent with
  | some (part, base, size) =>
    if dpa < size ∧ fon b (EP_STATUS h) EP_STATUS_CXL_MEM = true then
      match memRequest b h false part (base + dpa) (w.map fun x => { x with be := beAll }) with
      | some e => ioLaunch b h { e with reply := true }
      | none => plainCpl h none true b
    else b
  | none => b

def execCxlMemRequest (hub : Hub) (dpa : Nat) (write : Option LineWrite) (s : State) : Host.Outcome State Fault Refusal :=
  nextBlk s (cxlMem s.blk hub dpa write)

/-! ## Window tables (R470, R471) -/

/-- BAR2 size of a function. -/
def bar2Size (b : Block) (h : Hub) (f : Nat) : Nat :=
  if f = 0 then 2 ^ (getFn b h 0).bar2Log else 2 ^ (getFn b h 0).vfBar2Log

/-- Granule in bytes of an entry's low word, and its OFFSET. -/
def entGranule (lo : Nat) : Nat := 4096 * 2 ^ bitsOf lo 62 58
def entOffset (hi : Nat) : Nat := bitsOf hi 39 12 * 4096
def entTarget (lo : Nat) : Nat := bitsOf lo 51 12 * 4096

/-- The lowest valid active entry that covers an offset, as target and partition. -/
def winTranslate (b : Block) (h : Hub) (f off : Nat) : Option (Nat × Nat) :=
  (List.range 64).findSome? fun i =>
    let lo := rd b (EP_WIN_ACT_LO h f i)
    let base := entOffset (rd b (EP_WIN_ACT_HI h f i))
    if bitOf lo 63 && decide (base ≤ off ∧ off < base + entGranule lo) then
      some (entTarget lo + (off - base), bitsOf lo 55 54)
    else none

/-- A block of a BAR2 request: address, partition and destination; none where it has no entry or its target lies outside the
partition's home groups and windows. -/
def bar2Target (b : Block) (h : Hub) (f off : Nat) : Option (Nat × Nat × Nat) :=
  match winTranslate b h f off with
  | none => none
  | some (pa, part) =>
    let d := decodePa b h part pa
    match d, pioDst b h d with
    | .group _ _ _, some n => some (pa, part, n)
    | .win _ _ _ _, some n => some (pa, part, n)
    | _, _ => none

/-- The IoRd or IoWr of one block. -/
def bar2Request (b : Block) (h : Hub) (f : Nat) (t : Nat × Nat × Nat) (len : Nat) (w : Option LineWrite) : IoHeld :=
  let me := myNode b (agIo h)
  match w with
  | none =>
    { port := none, msg := { hdr := mkPio opIoRd false t.2.2 me 0 t.1 len 0 }, part := t.2.1, reply := true, after := true, fn := some f }
  | some x =>
    { port := none, msg := { hdr := mkPio opIoWr false t.2.2 me 0 t.1 len x.poison, data := x.data }, part := t.2.1
      after := true, fn := some f }

/-- BAR2_TLP: translated whole at one instant and served block by block, or refused whole. -/
def bar2 (b : Block) (h : Hub) (f off len : Nat) (w : Option (List LineWrite)) : Block :=
  let vf := f == 0 || (fon b (EP_STATUS h) EP_STATUS_VF_ENABLE && decide (f ≤ fget b (EP_STATUS h) EP_STATUS_NUM_VFS))
  if epUp b h = false ∨ (getFn b h f).live = false ∨ vf = false ∨ bar2Size b h f < off + len then b
  else
    let blocks := (List.range (blocksIn off len)).map fun k => (blockPart off len k, (w.map fun x => x[k]?).join)
    let parts := blocks.map fun x => (bar2Target b h f x.1.1, x)
    if parts.any fun x => x.1.isNone || (w.isSome && x.2.2.isNone) then
      let b := bumpFld b (EP_STATUS h) EP_STATUS_UNMAPPED
      refuseTlp (raise b (agIo h) 16 7 2 sevInfo 0 (place (EP_STATUS h) 43 8) 0) h none w.isSome
    else if parts.any fun x => match x.1 with
        | some t => ownLent b h t.2.1 t.1
        | none => false then
      refuseTlp (countDenied b h (agIo h) 16 (match parts.head? with
        | some (some t, _) => t.1
        | _ => 0) 0) h none w.isSome
    else forEach parts (fun x b =>
      match x.1 with
      | some t => ioLaunch b h (bar2Request b h f t x.2.1.2 x.2.2)
      | none => b) b

def execBar2Tlp (hub : Hub) (fn : Fin 256) (off len : Nat) (write : Option (List LineWrite)) (s : State) :
    Host.Outcome State Fault Refusal := nextBlk s (bar2 s.blk hub fn.val off len write)

/-- Does a staged entry pass the checks of R471? -/
def entryOk (b : Block) (h : Hub) (f i : Nat) : Bool :=
  let lo := rd b (EP_WIN_STG_LO h f i)
  let g := entGranule lo
  let off := entOffset (rd b (EP_WIN_STG_HI h f i))
  !bitOf lo 63 || (decide (bitsOf lo 62 58 ≤ 28) && off % g == 0 && entTarget lo % g == 0 &&
    decide (off + g ≤ bar2Size b h f) && partExists b (bitsOf lo 55 54))

/-- The commit point: the staged table becomes active, and what came before it is the old mapping's. -/
def commitPoint (b : Block) (h : Hub) (f : Nat) : Block :=
  let b := forEach (List.range 64) (fun i b =>
    wr (wr b (EP_WIN_ACT_LO h f i) (rd b (EP_WIN_STG_LO h f i))) (EP_WIN_ACT_HI h f i) (rd b (EP_WIN_STG_HI h f i))) b
  let b := fset b (EP_WIN_COMMIT h f) EP_WIN_COMMIT_PENDING 1
  let reads := ((getIo b h).waits.filter fun w => w.fn == some f && w.reply).map (·.tag)
  let b := updIo b h fun i => { i with held := i.held.map fun e => if e.fn = some f then { e with old := true } else e }
  let b := updFn b h f fun x => { x with toFlush := x.written, written := [], oldReads := reads }
  epFlush b h f

/-- A write of COMMIT = 1. -/
def commitWrite (b : Block) (h : Hub) (f : Nat) : Block :=
  let r := EP_WIN_COMMIT h f
  if fon b r EP_WIN_COMMIT_PENDING then raise b (agIo h) 16 7 4 sevInfo 0 (place r 43 8) (rd b r)
  else match (List.range 64).find? fun i => !entryOk b h f i with
    | some i => fset (fset b r EP_WIN_COMMIT_RESULT 2) r EP_WIN_COMMIT_FAULT_INDEX i
    | none => commitPoint b h f

def execCommit (src : Source) (hub : Hub) (fn : Fin 256) (s : State) : Host.Outcome State Fault Refusal :=
  nextBlk s (secAction s.blk src (EP_WIN_COMMIT hub fn.val) fun _ => commitWrite s.blk hub fn.val)

/-- COMMIT_DONE: every MsFlush is answered and every earlier read has completed. -/
def commitEnds (b : Block) (h : Hub) (f : Nat) : Block :=
  let r := EP_WIN_COMMIT h f
  let x := getFn b h f
  if fon b r EP_WIN_COMMIT_PENDING && x.toFlush.isEmpty && x.flushTags.isEmpty && x.oldReads.isEmpty &&
      !(getIo b h).held.any (fun e => e.fn == some f && e.old) then
    bumpFld (fset (fset b r EP_WIN_COMMIT_PENDING 0) r EP_WIN_COMMIT_RESULT 1) r EP_WIN_COMMIT_COMMITS
  else b

def execCommitDone (hub : Hub) (fn : Fin 256) (s : State) : Host.Outcome State Fault Refusal :=
  nextBlk s (commitEnds s.blk hub fn.val)

/-- A write to an active entry is ignored, counted and reported (R471). -/
def activeWrite (b : Block) (h : Hub) (f i : Nat) : Block :=
  raise (bumpFld b (EP_STATUS h) EP_STATUS_ACT_WRITES) (agIo h) 16 7 2 sevInfo 0 (place (EP_STATUS h) 43 8)
    (ctlBase + EP_WIN_ACT_LO h f i)

def execActiveEntryWrite (src : Source) (hub : Hub) (fn : Fin 256) (entry : Fin 64) (s : State) :
    Host.Outcome State Fault Refusal :=
  nextBlk s (regAction s.blk src (EP_WIN_ACT_LO hub fn.val entry.val) fun _ => activeWrite s.blk hub fn.val entry.val)

/-! ## Resets seen from the foreign host (R474) -/

/-- Reset a function: its channels return to created once their issued requests have completed. -/
def fnReset (h : Hub) (f : Nat) (b : Block) : Block :=
  forEach (getFn b h f).channels (fun n b => flrChan b h n) b

/-- VF_FLR. -/
def vfFlr (b : Block) (h : Hub) (f : Nat) : Block :=
  if f ≠ 0 ∧ (getFn b h f).live = true ∧ epUp b h = true then fnReset h f b else b

def execVfFlr (hub : Hub) (fn : Fin 256) (s : State) : Host.Outcome State Fault Refusal :=
  nextBlk s (vfFlr s.blk hub fn.val)

/-- PF_RESET: an FLR of the PF, or, with `down`, hot reset, link down or PERST#. -/
def pfReset (b : Block) (h : Hub) (down : Bool) : Block :=
  if (getFn b h 0).live = false then b
  else
    let fns := ((getIo b h).ep.fns.cells.filter fun c => c.2.live).map (·.1)
    let b := forEach fns (fnReset h) b
    let b := fset (fset b (EP_STATUS h) EP_STATUS_VF_ENABLE 0) (EP_STATUS h) EP_STATUS_NUM_VFS 0
    let b := fset b (TH_MBX_STATE (epPage h)) TH_MBX_STATE_HAVE_LAST 0
    let b := updIo b h fun i => { i with ep := { i.ep with msixOn := false, intxOff := false, hdm := false, tagTotal := 256 } }
    if down then
      let b := fset (fset b (EP_STATUS h) EP_STATUS_LINK_UP 0) (EP_STATUS h) EP_STATUS_CXL_MEM 0
      updIo b h fun i => { i with ep := { i.ep with intxSent := false }
                                  waits := i.waits.map fun w => if w.port = none then { w with reply := false } else w }
    else epIntx (fset b (EP_STATUS h) EP_STATUS_CXL_MEM 0) h

def execPfReset (hub : Hub) (linkDown : Bool) (s : State) : Host.Outcome State Fault Refusal :=
  nextBlk s (pfReset s.blk hub linkDown)

/-! ## Configuration writes of the foreign host (R465, R468, R469, R473) -/

/-- Upstream tags of a tag size: 8, 10 or 14 bits (R468). -/
def tagTotalOf (code : Nat) : Nat := if code = 0 then 256 else if code = 1 then 768 else 4096

/-- HOST_CONFIG_WRITE; it reaches the endpoint only over a link that is up. -/
def hostConfig (b : Block) (h : Hub) (x : HostConfig) : Block :=
  let ep (f : Endpoint → Endpoint) : Block := updIo b h fun i => { i with ep := f i.ep }
  if epUp b h = false then b
  else match x with
    | .vfEnable on n => fset (fset b (EP_STATUS h) EP_STATUS_VF_ENABLE (b2n on)) (EP_STATUS h) EP_STATUS_NUM_VFS n
    | .msixEnable on => epIntx (ep fun e => { e with msixOn := on }) h
    | .intxDisable on => epIntx (ep fun e => { e with intxOff := on }) h
    | .hdmCommit on => ep fun e => { e with hdm := on }
    | .cxlMemEnable on => fset b (EP_STATUS h) EP_STATUS_CXL_MEM (b2n on)
    | .tagSize code => ep fun e => { e with tagTotal := tagTotalOf code.val }

def execHostConfigWrite (hub : Hub) (item : HostConfig) (s : State) : Host.Outcome State Fault Refusal :=
  nextBlk s (hostConfig s.blk hub item)

end Sys2Proof.Machine
end

