-- ==== Sys2Proof/Machine/Events.lean ====
section
/-! DEFINITION. Event rings (R514 to R525, R546): routing of records, arrival, TAKE, and the lay-by of spill rings. -/

namespace Sys2Proof.Machine

/-! ## Rings -/

/-- Hub of a ring. -/
def ringHub : RingId → Hub
  | .ring h _ => h
  | .ao h _ => h

/-- Capacity in records; the always-on rings are fall-through rings (R515, R517). -/
def ringCap (b : Block) : RingId → Nat
  | .ao _ _ => 16
  | r => 2 ^ fget b (HUB_EVR_STATUS r) HUB_EVR_STATUS_CAP_LOG2

/-- Is a ring of the spill kind? -/
def ringSpills (b : Block) : RingId → Bool
  | .ao _ _ => false
  | r => fon b (HUB_EVR_STATUS r) HUB_EVR_STATUS_KIND

/-- The handle of a ring's object (R65, R66); always-on rings have none. -/
def ringHandle (b : Block) : RingId → Nat
  | .ao _ _ => 0
  | .ring h r =>
    let ix := h.idx * 64 + r.val
    let o := b.objs.get {} (objKey 2 ix)
    place 2 31 28 + place o.part 27 24 + place o.gen 23 16 + place ix 15 0

/-- The records of a ring outside its window, oldest first. -/
def Ring.held (r : Ring) : List EvRec := r.head ++ (r.lay.map fun x => [x.1, x.2]).foldl (· ++ ·) [] ++ r.tail

/-- CLASS of a record. -/
def evClass (e : EvRec) : Nat := bitsOf e.w0.toNat 15 12

/-- Fill the head of a spill ring from its tail while the lay-by is empty (R517). -/
def Ring.pass (r : Ring) : Ring :=
  if r.lay.isEmpty then
    let n := 32 - r.head.length
    { r with head := r.head ++ r.tail.take n, tail := r.tail.drop n }
  else r

/-- Remove the `n` oldest records of a ring: from the head, then the lay-by, then
the tail. -/
def Ring.drop (r : Ring) : Nat → Ring
  | 0 => r
  | n + 1 =>
    match r.head, r.lay, r.tail with
    | _ :: h, _, _ => Ring.drop { r with head := h } n
    | [], (_, y) :: l, _ => Ring.drop { r with head := [y], lay := l } n
    | [], [], _ :: t => Ring.drop { r with tail := t } n
    | [], [], [] => r

/-- Advance a count of R521, modulo 2 ^ 32. -/
def countRing (b : Block) (r : RingId) (i n : Nat) : Block := wr b (CNT_EVR r i) ((rd b (CNT_EVR r i) + n) % 2 ^ 32)

/-- Show how many records a ring holds. -/
def showHeld (b : Block) (r : RingId) : Block :=
  fset b (HUB_EVR_STATUS r) HUB_EVR_STATUS_HELD (getRing b (ringKey r)).held.length

/-- THRESHOLD, at most the capacity. -/
def ringThreshold (b : Block) (r : RingId) : Nat := min (ringCap b r) (fget b (HUB_EVR_CTRL r) HUB_EVR_CTRL_THRESHOLD)

/-- Send a ring's MSI in its world; always-on rings count as secure (R522). -/
def ringMsi (b : Block) (r : RingId) : Block :=
  let addr := fget b (HUB_EVR_MSI r) HUB_EVR_MSI_ADDR
  if addr = 0 ∨ ringThreshold b r = 0 then b
  else
    let x := getRing b (ringKey r)
    let secure := match r with
      | .ao _ _ => true
      | .ring _ _ => x.secure
    sendMsi b (ringHub r) (agHome (ringHub r)) (x.part.getD 0) (addr * 4096) (fget b (HUB_EVR_MSI r) HUB_EVR_MSI_DATA) secure

/-- Set a status bit of a ring; the loss of records that are all of CLASS 14 raises no record (R546). -/
def ringStatus (b : Block) (r : RingId) (bit : Nat) (lost : List EvRec) : Block :=
  if lost.all fun e => evClass e == 14 then setStatusQuiet b (HUB_EVR_STATUS r) bit else setStatus b (HUB_EVR_STATUS r) bit

/-- A record enters a ring; a full ring discards its oldest (R519). -/
def ringPut (b : Block) (r : RingId) (e : EvRec) : Block :=
  let x := getRing b (ringKey r)
  let spills := ringSpills b r
  let full := decide (ringCap b r ≤ x.held.length)
  let b := if full then ringStatus (countRing b r 2 1) r 5 (x.held.take 1) else b
  let join (x : Ring) : Ring :=
    let x := if full then x.drop 1 else x
    if spills then Ring.pass { x with tail := x.tail ++ [e] } else { x with head := x.head ++ [e] }
  let b := countRing (showHeld (updRing b (ringKey r) join) r) r 0 1
  if !full ∧ x.held.length + 1 = ringThreshold b r then ringMsi b r else b

/-! ## Routing (R514, R515) -/

/-- The rings with handles, lowest handle index first. -/
def allRings : List RingId :=
  ((List.finRange 64).map (RingId.ring .n)) ++ (List.finRange 64).map (RingId.ring .s)

/-- Does a ring admit a record that comes from hub `h`? A ring under destruction takes none. -/
def ringAdmits (b : Block) (h : Hub) (i : EvItem) (r : RingId) : Bool :=
  let x := getRing b (ringKey r)
  let w0 := i.ev.w0.toNat
  let ix := ringKey r
  fon b (HUB_EVR_STATUS r) HUB_EVR_STATUS_CREATED && !(b.objs.get {} (objKey 2 ix)).destroying &&
    x.part == i.owner && bitOf x.classMask (bitsOf w0 15 12) && bitOf x.sevMask (bitsOf w0 7 5) &&
    (x.secure || !bitOf w0 2) && (ringHub r == h || !fon b (HUB_SPLIT_STATUS h) HUB_SPLIT_STATUS_SPLIT)

/-- Route one record of hub `h`. -/
def routeRecord (b : Block) (h : Hub) (i : EvItem) : Block :=
  if i.aoOnly then ringPut b (.ao h 0) i.ev
  else
    let b := if 3 ≤ bitsOf i.ev.w0.toNat 7 5 then ringPut b (.ao h 0) i.ev else b
    match allRings.find? (ringAdmits b h i) with
    | some r => ringPut b r i.ev
    | none =>
      let b := ringPut b (.ao h 1) i.ev
      if evClass i.ev = 14 then setStatusQuiet b (HUB_ERR_STATUS h) 1 else setStatus b (HUB_ERR_STATUS h) 1

/-- EVENT_RECORD: the oldest record on a hub's event path reaches its ring. -/
def eventArrives (b : Block) (h : Hub) : Block :=
  match b.evPath.get [] h.idx with
  | [] => b
  | i :: rest => routeRecord { b with evPath := b.evPath.set [] h.idx rest } h i

def execEventRecord (hub : Hub) (s : State) : Host.Outcome State Fault Refusal := nextBlk s (eventArrives s.blk hub)

/-! ## TAKE (R518) -/

/-- Words of a record. -/
def evWords (e : EvRec) : List Nat := [e.w0.toNat, e.w1.toNat, e.w2.toNat, e.w3.toNat]

/-- Remove up to `n` of the oldest records of a ring. -/
def ringTake (b : Block) (r : RingId) (n : Nat) : List EvRec × Block :=
  let took := (getRing b (ringKey r)).held.take n
  let b := updRing b (ringKey r) fun x => (x.drop took.length).pass
  (took, countRing (showHeld b r) r 1 took.length)

/-- MSI after records were taken: where HELD is still at or above THRESHOLD (R522). -/
def takenMsi (b : Block) (r : RingId) : Block :=
  if ringThreshold b r ≤ (getRing b (ringKey r)).held.length then ringMsi b r else b

/-- A write of TAKE = 1. -/
def takeRing (b : Block) (r : RingId) : Block :=
  let (took, b) := ringTake b r 2
  let words := (took.map evWords).foldl (· ++ ·) []
  let b := forEach (List.range 8) (fun w b => wr b (HUB_EVR_WIN r w) (words.getD w 0)) b
  takenMsi (fset b (HUB_EVR_STATUS r) HUB_EVR_STATUS_WIN_VALID (32 * took.length)) r

def execTake (src : Source) (ring : RingId) (s : State) : Host.Outcome State Fault Refusal :=
  nextBlk s (match ring with
    | .ao _ _ => secAction s.blk src (HUB_EVR_CTRL ring) fun _ => takeRing s.blk ring
    | .ring _ _ => regAction s.blk src (HUB_EVR_CTRL ring) fun _ => takeRing s.blk ring)

/-! ## The lay-by (R517, R520) -/

/-- Records of a ring are lost at its lay-by. -/
def laybyLost (b : Block) (r : RingId) (lost : List EvRec) : Block :=
  let b := showHeld (countRing b r 2 lost.length) r
  let b := ringStatus b r 6 lost
  if lost.all fun e => evClass e == 14 then b
  else raiseOwned b (getRing b (ringKey r)).part (agHome (ringHub r)) 53 14 8 sevInfo 0 (ringHandle b r) lost.length true

/-- Lay-by lines of a ring: (2 ^ CAP_LOG2 − 64) × 32 bytes. -/
def laybyLines (b : Block) (r : RingId) : Nat := (ringCap b r - 64) / 2

/-- LAYBY_SPILL: a full tail gives its two oldest records to the lay-by, or loses them. -/
def spill (b : Block) (r : RingId) (ok : Bool) : Block :=
  let x := getRing b (ringKey r)
  match x.tail with
  | e0 :: e1 :: rest =>
    if ringSpills b r = true ∧ 32 ≤ x.tail.length ∧ x.lay.length < laybyLines b r then
      if ok then updRing b (ringKey r) fun x => { x with tail := rest, lay := x.lay ++ [(e0, e1)] }
      else laybyLost (updRing b (ringKey r) fun x => Ring.pass { x with tail := rest }) r [e0, e1]
    else b
  | _ => b

def execLaybySpill (hub : Hub) (r : Fin 64) (writeOk : Bool) (s : State) : Host.Outcome State Fault Refusal :=
  nextBlk s (spill s.blk (.ring hub r) writeOk)

/-- LAYBY_RETURN: the oldest lay-by line comes back to a head with room for two, or is lost. -/
def unspill (b : Block) (r : RingId) (ok : Bool) : Block :=
  let x := getRing b (ringKey r)
  match x.lay with
  | (e0, e1) :: rest =>
    if x.head.length ≤ 30 then
      if ok then updRing b (ringKey r) fun x => Ring.pass { x with head := x.head ++ [e0, e1], lay := rest }
      else laybyLost (updRing b (ringKey r) fun x => Ring.pass { x with lay := rest }) r [e0, e1]
    else b
  | [] => b

def execLaybyReturn (hub : Hub) (r : Fin 64) (readOk : Bool) (s : State) : Host.Outcome State Fault Refusal :=
  nextBlk s (unspill s.blk (.ring hub r) readOk)

end Sys2Proof.Machine
end

