-- ==== Sys2Proof/Machine/Power.lean ====
section
/-! DEFINITION. Package states and their handshake, wake events, frequency grants and temperature (chapters 13 and 18). -/

namespace Sys2Proof.Machine

/-! ## The blocks asked (R405, R408) -/

/-- BLOCK_KIND and BLOCK_INDEX of a block as one number. -/
def blockKey : PowerBlock → Nat
  | .core h => h.val
  | .die k => 256 + k.val
  | .slices h => 512 + h.idx
  | .channel c => 768 + c.val
  | .port r => 1024 + r.val
  | .highway k => 1280 + k.val
  | .engine e => 1536 + e.val
  | .guest h => 1792 + h.idx
  | .tollhouse h => 2048 + h.idx

/-- Is a quarter of an existing partition? -/
def quarterUsed (b : Block) (q : Nat) : Bool := (quarterPart b q).isSome

/-- Is a package root port, or the endpoint in place of root port 0 of its hub, present and of a partition's quarter? -/
def portAsked (b : Block) (r : Nat) : Bool :=
  let h := hubOf (r / 16)
  (portExists b h (r % 16) || (r % 16 == 0 && portMode b h 0 == 4)) && quarterUsed b (portQuarter h (r % 16))

/-- Keys of the blocks of a rank. Blocks of quarters outside every partition and unassigned guest sites are not asked. -/
def rankKeys (b : Block) (rank : Nat) : List Nat :=
  let hubs := [Hub.n, Hub.s]
  match rank with
  | 1 =>
    let dies := (List.range 12).filter fun k => quarterUsed b (dieQuarter k)
    dies.flatMap dieHarts ++ dies.map (256 + ·) ++ ((List.range 32).filter (portAsked b)).map (1024 + ·) ++
      (List.range 4).map (1280 + ·) ++ ((List.range 32).filter fun e => quarterUsed b (e / 8)).map (1536 + ·) ++
      ((hubs.filter fun h => (sitePart b h).isSome).map fun h => 1792 + h.idx) ++ hubs.map fun h => 2048 + h.idx
  | 2 => hubs.map fun h => 512 + h.idx
  | 3 => ((List.range 16).filter fun c => chanReady b (hubOf (c / 8)) (c % 8) && quarterUsed b (c / 4)).map (768 + ·)
  | _ => []

/-- Harts of existing partitions. -/
def partHarts (b : Block) : List Nat :=
  ((List.range 12).filter fun k => quarterUsed b (dieQuarter k)).flatMap dieHarts

/-- Is every core of every existing partition in C1 or C3 (R403, R404)? -/
def coresIdle (b : Block) : Bool := (partHarts b).all fun i => (getHart b i).core != .c0

/-- Partitions that exist. -/
def liveParts (b : Block) : List Nat := (List.range 4).filter (partExists b)

/-- The deepest state that every ceiling permits (R403, R404). -/
def powerTarget (b : Block) : Nat :=
  (liveParts b).foldl (fun t p => min t (b.power.partCeil.get {} p).deepest) b.power.pkgCeil.deepest

/-- Does an attempt come from the secure world (R409)? -/
def attemptSecure (b : Block) : Bool := (liveParts b).all fun p => (b.power.partCeil.get {} p).secure

/-! ## What a block answers (R406, R407) -/

/-- Is a block owned by the secure world (R327)? -/
def worldOwned (b : Block) (key : Nat) : Bool :=
  let i := key % 256
  match key / 256 with
  | 0 => hartWorld b i
  | 3 => (getChan b i).claimed
  | 4 => (getPort b (hubOf (i / 16)) (i % 16)).claimed
  | 6 => fon b (DM_ENG_STATUS (hubOf (i / 16)) (i % 16)) DM_ENG_STATUS_CLAIMED
  | 7 => (getSpur b (hubOf i)).claimed
  | _ => false

/-- Does an engine serve a running channel with descriptors left (R440)? -/
def engineBusy (b : Block) (h : Hub) (e : Nat) : Bool :=
  (getMover b h).chans.cells.any fun c =>
    c.2.live && c.2.engine == e && fget b (DM_CH_STATUS h c.1) DM_CH_STATUS_STATE == 1 &&
      fget b (DM_CH_STATUS h c.1) DM_CH_STATUS_HEAD != fget b (DM_CH_DOORBELL h c.1) DM_CH_DOORBELL_TAIL

/-- Is a highway link ACTIVE to a member of the same fabric that is not lost (R497)? -/
def fabricHolds (b : Block) (h : Hub) (k : Fin 2) : Bool :=
  linkState b (.hwy h k) == 5 && fon b (HWY_FABRIC_STATUS h) HWY_FABRIC_STATUS_FORMED &&
    match b.pkg.far.get 0 (h.idx * 2 + k.val) with
    | 0 => false
    | p + 1 => !pkgLost b h p

/-- Reason codes with which a block refuses by its own state (R406, R409). -/
def refusals (b : Block) (key : Nat) : List Nat :=
  let i := key % 256
  let own := match key / 256 with
    | 0 => (if (getHart b i).core = .c0 then [1] else []) ++ (if (getHart b i).sb.isEmpty then [] else [2])
    | 6 => if engineBusy b (hubOf (i / 16)) (i % 16) then [6] else []
    | _ => []
  own ++ if worldOwned b key && !attemptSecure b then [3] else []

/-- Ends whose parking a hub waits for: feeders, spur and causeway that are ACTIVE. -/
def hubParkEnds (h : Hub) : List LinkId := (List.finRange 8).map (LinkId.hub h)

/-- May an end park (R112)? -/
def mayPark (b : Block) (e : LinkId) : Bool := linkState b e != 5 || nothingToSend b e

/-- Write-backs of a hub's dirty system-cache lines (R407): each line goes on its way to a channel. -/
def cleanSlices (b : Block) (h : Hub) : Block :=
  forEach (List.range 32) (fun s b =>
    let dirty := (getSlice b h s).sc.cells.filter fun c => c.2.valid && c.2.dirty
    forEach dirty (fun c b =>
      let b := memWrite b h s none (slicePart b h s) c.2.line c.2.data c.2.poison false
      updSlice b h s fun sl => { sl with sc := sl.sc.upd {} c.1 fun l => { l with dirty := false } }) b) b

/-- Does a write of a hub's slices wait at a channel's input? -/
def writesWait (b : Block) (h : Hub) : Bool :=
  b.chans.cells.any fun c => c.2.input.any fun r => r.write && r.slice / 32 == h.idx

/-- Codes of the commands marked not abortable (R62). -/
def notAbortable : List Nat :=
  [0x802, 0x703, 0x704, 0x104, 0x105, 0x101, 0x103, 0x302, 0x303, 0x503, 0x504, 0x601, 0x602, 0x402]

/-- Does a Tollhouse run a command that is not abortable? -/
def tollBusy (b : Block) (h : Hub) : Bool :=
  (List.range 20).any fun m =>
    (getMbx b m).south == (h == .s) && fget b (TH_MBX_STATE m) TH_MBX_STATE_STATE == 1 && (getMbx b m).admitted &&
      notAbortable.contains (bitsOf (getMbx b m).req0.toNat 15 0)

/-- Delay code of a block by its own state, for a target (R407). -/
def delayCode (b : Block) (key target : Nat) : Option Nat :=
  let i := key % 256
  match key / 256 with
  | 1 =>
    if target = 5 ∧ ((dieHarts i).any fun j => !(heldWays b j true).isEmpty || !(getHart b j).wbs.isEmpty) = true then some 3
    else if mayPark b (.die (dieOf i)) then none else some 4
  | 2 =>
    let h := hubOf i
    if ((List.range 32).any fun s => !(getSlice b h s).trackers.isEmpty) = true then some 2
    else if target = 5 ∧ writesWait b h = true then some 3
    else if (hubParkEnds h).all (mayPark b) then none else some 4
  | 3 =>
    let c := getChan b i
    if c.input.isEmpty && c.reads.isEmpty && c.writes.isEmpty then none else some 1
  | 8 => if tollBusy b (hubOf i) then some 6 else none
  | _ => none

/-! ## Guests (R241) -/

/-- Send PWR_REQ with a target to the guest of a site; TARGET 0 needs no answer. -/
def askGuest (target : Nat) (h : Hub) (b : Block) : Block :=
  let seq := (getSpur b h).pwrSeq
  let p := 4 + place target 7 4 + place seq 15 8
  let b := emit b (.sideband h (BitVec.ofNat 64 p))
  updSpur b h fun s => { s with
    pwrSeq := (seq + 1) % 256, pwrReq := if target = 0 then none else some (target, seq), pwrAns := none }

/-- Sites with an assigned guest. -/
def guestSites (b : Block) : List Hub := [Hub.n, Hub.s].filter fun h => (sitePart b h).isSome

/-! ## The end of an attempt (R408, R410) -/

/-- Record an outcome with the block that caused it. -/
def setOutcome (b : Block) (outcome key code : Nat) : Block :=
  let r := HUB_PWR_STATUS
  let b := fset b r HUB_PWR_STATUS_LAST_OUTCOME outcome
  let b := fset (fset b r HUB_PWR_STATUS_BLOCK_KIND (key / 256)) r HUB_PWR_STATUS_BLOCK_INDEX (key % 256)
  let b := fset b r HUB_PWR_STATUS_CODE code
  raise b (agHome .n) 51 10 4 sevInfo 0 (place r 43 8) (rd b r)

/-- The blocks that have accepted resume, and assigned guests receive PWR_REQ with TARGET 0 (R408). -/
def resumeBlocks (b : Block) : Block :=
  let b := { b with dies := { cells := b.dies.cells.map fun c => (c.1, { c.2 with leaving := false }) } }
  let b := forEach (List.range 16) (fun c b => updChan b c fun ch => { ch with selfRefresh := false }) b
  let b := forEach [Hub.n, Hub.s] (fun h b => forEach (List.range 16) (fun p b =>
    updPort b h p fun x => { x with lowPower := false }) b) b
  forEach (guestSites b) (askGuest 0) b

/-- Abort an attempt with its outcome. -/
def abortAttempt (b : Block) (outcome key code : Nat) : Block :=
  match b.power.attempt with
  | none => b
  | some _ =>
    let b := setPower b fun p => { p with attempt := none, delays := [], blocked := true
                                          draining := if code = 2 ∧ outcome = 2 then [key] else [] }
    resumeBlocks (setOutcome b outcome key code)

/-- Park an ACTIVE end (R410). -/
def parkEnd (e : LinkId) (b : Block) : Block :=
  if linkState b e = 5 then setLinkState (updLink b e fun l => { l with parking := false, parkReq := false }) e 6 else b

/-- Link ends inside the package and of the spurs. -/
def inEnds : List LinkId := linkEnds.filter fun e => match e with | .hwy _ _ => false | _ => true

/-- Commit to PK3: the links park, and each core enters C3 (R410). -/
def commitPk3 (b : Block) : Block :=
  let b := forEach inEnds parkEnd b
  let b := { b with harts := { cells := b.harts.cells.map fun c =>
    (c.1, if (getHart b c.1).core = .c0 then c.2 else { c.2 with core := .c3, l1d := {}, l1i := {} }) } }
  setPower b fun p => { p with pk := 3, window := true, attempt := none, delays := [] }

/-- Copy WIDTH_CAP and SEGMENT of an end from a block: the save list (R402). -/
def keepCap (old : Block) (e : LinkId) (b : Block) : Block :=
  let r := LINK_CTRL e
  fset (fset b r LINK_CTRL_WIDTH_CAP (fget old r LINK_CTRL_WIDTH_CAP)) r LINK_CTRL_SEGMENT (fget old r LINK_CTRL_SEGMENT)

/-- Commit to PK5: what R402 gives as lost is lost, and the rails go (R410, R532). -/
def commitPk5 (b : Block) : Block :=
  let b := destroyAll b
  let src := fget b (HUB_CLK_STATUS .n) HUB_CLK_STATUS_SOURCE
  let prim := fon b (HUB_CLK_STATUS .n) HUB_CLK_STATUS_PRIMARY_OK
  let fall := fon b (HUB_CLK_STATUS .n) HUB_CLK_STATUS_FALLBACK_OK
  let c := clearBlock b pk5Reg
  let c := { c with objs := b.objs, chans := keepChans b.chans (·.retain), pkg := { c.pkg with freeSerial := b.pkg.freeSerial } }
  let c := setSource (forEach inEnds (keepCap b) c) src prim fall
  setPower c fun p => { p with pk := 5, window := true, attempt := none, delays := [], enCore := false
                               mainOffDue := true, coldHeld := true, heldWake := none }

/-- Commit (R408, R410): Entered. -/
def commitAttempt (b : Block) (target : Nat) : Block :=
  let b := setOutcome b 1 0 0
  let b := fset b HUB_PWR_STATUS HUB_PWR_STATUS_STATE 0
  if target = 5 then commitPk5 b else commitPk3 b

/-- Ask a rank, and the next once every block of it has accepted; after the last, commit. -/
def advance (b : Block) (target rank : Nat) (acc : List Nat) : Nat → Block
  | 0 => b
  | n + 1 =>
    if 3 < rank then commitAttempt b target
    else if (rankKeys b rank).all acc.contains then advance b target (rank + 1) acc n
    else setPower b fun p => { p with attempt := some (target, rank, acc) }

/-! ## The attempt (R404, R405) -/

/-- May a failed attempt be followed by another (R404)? -/
def mayRetry (b : Block) : Bool :=
  !b.power.blocked || (!b.power.draining.isEmpty && b.power.draining.all fun i => (getHart b i).sb.isEmpty)

/-- POWER_ATTEMPT_START: after IDLE_DWELL, rank 1 is asked. -/
def startAttempt (b : Block) : Block :=
  let p := b.power
  let target := powerTarget b
  if p.coldHeld = true ∨ 1 < p.pk ∨ p.attempt.isSome = true ∨ coresIdle b = false ∨ mayRetry b = false ∨ target < 3 then b
  else
    let b := fset b HUB_PWR_STATUS HUB_PWR_STATUS_LAST_TARGET target
    let b := setPower b fun p => { p with blocked := false, draining := [], delays := [], attempt := some (target, 1, []) }
    let b := forEach (guestSites b) (askGuest target) b
    if target = 5 then
      forEach ((List.range 12).filter fun k => quarterUsed b (dieQuarter k)) (fun k b =>
        msCheckDie (updDie b k fun d => { d with leaving := true }) k) b
    else b

def execPowerAttemptStart (s : State) : Host.Outcome State Fault Refusal := nextBlk s (startAttempt s.blk)

/-- One refusal for ownership: counted at the block's hub, with a record (R327). -/
def countOwned (b : Block) (key : Nat) : Block :=
  let i := key % 256
  let h := match key / 256 with
    | 0 => dieHub (hartDie i)
    | 3 => hubOf (i / 8)
    | 4 => hubOf (i / 16)
    | 6 => hubOf (i / 16)
    | _ => hubOf (i % 2)
  raise (bumpFld b (HUB_WORLD_STAT h) HUB_WORLD_STAT_PWR_REFUSED) (agHome .n) 51 6 2 sevInfo 0
    (place (HUB_WORLD_STAT h) 43 8) 0

/-- Blocks refuse: the lowest kind and index is named, with one of its codes (R408). -/
def refuseAttempt (b : Block) (all : List (Nat × List Nat)) : Block :=
  let b := forEach (all.filter fun x => x.2.contains 3) (fun x b => countOwned b x.1) b
  let low := (all.map (·.1)).foldl min (2 ^ 16)
  match freePick b (((all.find? fun x => x.1 == low).map (·.2)).getD []) with
  | (none, b) => b
  | (some code, b) => abortAttempt b 2 low code

/-- A block accepts: it starts no new work, and the rank may be complete. -/
def acceptBlock (b : Block) (target rank : Nat) (acc : List Nat) (key : Nat) : Block :=
  let b := setPower b fun p => { p with delays := p.delays.filter fun d => d.1 != key }
  let i := key % 256
  let b := match key / 256 with
    | 3 =>
      let h := hubOf (i / 8)
      let b := forEach ((getChan b i).postponed.cells.map (·.1)) (fun r b => mcSetPostponed b h (i % 8) r 0) b
      updChan (mcCloseAll b h (i % 8)) i fun ch => { ch with selfRefresh := true }
    | 4 => updPort b (hubOf (i / 16)) (i % 16) fun x => { x with lowPower := true }
    | 7 => updSpur b (hubOf i) fun s => { s with pwrAns := none }
    | _ => b
  advance b target rank (acc ++ [key]) 4

/-- A block delays. -/
def delayBlock (b : Block) (key code : Nat) : Block :=
  setPower b fun p => { p with delays := (p.delays.filter fun d => d.1 != key) ++ [(key, code)] }

/-- The answer of a block of the rank asked (R405 to R408). -/
def answerBlock (b : Block) (block : PowerBlock) (answer : PowerAnswer) : Block :=
  match b.power.attempt with
  | none => b
  | some (target, rank, acc) =>
    let key := blockKey block
    let waiting := (rankKeys b rank).filter fun k => !acc.contains k
    if waiting.contains key = false then b
    else
      let b := match block with
        | .slices h => if target = 5 ∧ delayCode b key target = none then cleanSlices b h else b
        | _ => b
      let own := refusals b key
      let others := (waiting.filter fun k => k != key && !(refusals b k).isEmpty).map fun k => (k, refusals b k)
      let accept := acceptBlock b target rank acc key
      if own ≠ [] then refuseAttempt b ((key, own) :: others)
      else match block, delayCode b key target with
        | _, some code => delayBlock b key code
        | .port _, none =>
          match answer with
          | .accept => accept
          | .delay _ => delayBlock b key 5
          | .refuse _ => refuseAttempt b ((key, [4]) :: others)
        | .highway k, none =>
          let h := hubOf (k.val / 2)
          let e : Fin 2 := ⟨k.val % 2, by omega⟩
          match answer with
          | .accept => accept
          | .delay _ => delayBlock b key 5
          | .refuse _ => if fabricHolds b h e then refuseAttempt b ((key, [5]) :: others) else delayBlock b key 5
        | .guest h, none =>
          match (getSpur b h).pwrAns with
          | none => b
          | some (0, _) => accept
          | some (1, _) => delayBlock (updSpur b h fun s => { s with pwrAns := none }) key 7
          | some (_, reason) => refuseAttempt b ((key, [reason]) :: others)
        | _, none => accept

def execBlockAnswer (block : PowerBlock) (answer : PowerAnswer) (s : State) : Host.Outcome State Fault Refusal :=
  nextBlk s (answerBlock s.blk block answer)

/-- GUEST_DELAY_EXPIRY: a guest that delayed is asked again (R405). -/
def guestAgain (b : Block) (h : Hub) : Block :=
  match b.power.attempt with
  | none => b
  | some (target, _, _) =>
    if (b.power.delays.any fun d => d.1 == 1792 + h.idx) ∧ (getSpur b h).pwrReq = none ∧ (getSpur b h).pwrAns = none then
      askGuest target h b
    else b

def execGuestDelayExpiry (hub : Hub) (s : State) : Host.Outcome State Fault Refusal := nextBlk s (guestAgain s.blk hub)

/-- ENTRY_LIMIT_EXPIRY: with a delay outstanding, the attempt has timed out; the lowest block is named (R408). -/
def entryLimit (b : Block) : Block :=
  match b.power.delays with
  | [] => b
  | d :: r =>
    let low := (r.map (·.1)).foldl min d.1
    abortAttempt b 3 low (((b.power.delays.find? fun x => x.1 == low).map (·.2)).getD 0)

def execEntryLimitExpiry (s : State) : Host.Outcome State Fault Refusal := nextBlk s (entryLimit s.blk)

/-- RETRY_INTERVAL_EXPIRY (R404). -/
def execRetryIntervalExpiry (s : State) : Host.Outcome State Fault Refusal :=
  nextBlk s (setPower s.blk fun p => { p with blocked := false, draining := [] })

/-! ## PK1 (R400, R403) -/

/-- Is no message in flight: none in an inbox, a buffer, a queue or on a wire? -/
def noMessages (b : Block) : Bool :=
  b.inbox.cells.isEmpty && b.links.cells.all fun c =>
    c.2.txq.cells.isEmpty && c.2.rxq.cells.isEmpty && c.2.txSlots.isEmpty && c.2.wire.all fun f => flitUses f == 0

/-- PK1_ENTRY. -/
def enterPk1 (b : Block) : Block :=
  if b.power.coldHeld = true ∨ b.power.pk ≠ 0 ∨ coresIdle b = false ∨ noMessages b = false then b
  else
    let b := fset (setPower b fun p => { p with pk := 1 }) HUB_PWR_STATUS HUB_PWR_STATUS_STATE 1
    forEach (guestSites b) (askGuest 1) b

def execPk1Entry (s : State) : Host.Outcome State Fault Refusal := nextBlk s (enterPk1 s.blk)

/-- PK1_EXIT. -/
def leavePk1 (b : Block) : Block :=
  if b.power.pk = 1 then fset (setPower b fun p => { p with pk := 0 }) HUB_PWR_STATUS HUB_PWR_STATUS_STATE 0 else b

def execPk1Exit (s : State) : Host.Outcome State Fault Refusal := nextBlk s (leavePk1 s.blk)

/-! ## Wake (R411 to R415) -/

/-- Field of HUB_WAKE_CTRL that admits a source. -/
def wakeBit (code : Nat) : Nat := if 9 ≤ code then 8 else code - 1

/-- Is a source a level? -/
def wakeLevel (code : Nat) : Bool := code != 7 && code != 8 && code != 10

/-- States from which a source wakes the package. -/
def wakesFrom (code pk : Nat) : Bool :=
  match code with
  | 1 | 2 | 5 | 9 | 10 => pk == 1 || pk == 3 || pk == 5
  | 3 | 4 => pk == 1 || pk == 3
  | 6 => pk == 5
  | 7 | 8 => pk == 3
  | _ => false

/-- Has an enabled timer compare of a hart been reached (R410)? -/
def hartTimer (b : Block) (h : Hub) (i : Nat) : Bool :=
  let now := (timeAt b (agHome h)).toNat
  let on (bit : Nat) : Bool := bitOf (rdCsr b i 0x304) bit
  (on 7 && decide ((getHart b i).mtimecmp.toNat ≤ now)) || (on 5 && decide (rdCsr b i 0x14D ≤ now)) ||
    (on 6 && decide (rdCsr b i 0x24D ≤ now))

/-- Is source 5 of a hub asserted: its HUB_WAKE_TIMER, or a hart's compare unless in PK5? -/
def timerWakes (b : Block) (h : Hub) : Bool :=
  decide (rd b (HUB_WAKE_TIMER h) ≤ (timeAt b (agHome h)).toNat) ||
    (b.power.pk != 5 && (partHarts b).any fun i => dieHub (hartDie i) == h && hartTimer b h i)

/-- Is a source enabled, and asserted as far as the model sees it? -/
def wakeEnabled (b : Block) (w : WakeSource) : Bool :=
  let code := w.code.val
  let pins := rd b (HUB_WAKE_PINS w.hub)
  code != 0 && bitOf (rd b (HUB_WAKE_CTRL w.hub)) (wakeBit code) &&
    match code with
    | 5 => timerWakes b w.hub
    | 9 => bitOf pins w.index.val && !bitOf pins (32 + w.index.val)
    | 10 => bitOf pins w.index.val && bitOf pins (32 + w.index.val)
    | _ => true

/-- Leave PARKED (R113, R414). -/
def unparkEnd (e : LinkId) (b : Block) : Block := if linkState b e = 6 then retrain b e 7 true else b

/-- Exit from PK3 (R414). -/
def leavePk3 (b : Block) (code : Nat) : Block :=
  let b := setPower b fun p => { p with pk := 0, window := false, matchBmc := false, matchPlt := false }
  let b := fset b HUB_PWR_STATUS HUB_PWR_STATUS_WAKE_SOURCE code
  let b := forEach inEnds unparkEnd b
  let b := forEach (List.range 16) (fun c b => updChan b c fun ch =>
    if ch.selfRefresh then { ch with selfRefresh := false, pauseDue := true } else ch) b
  let b := forEach [Hub.n, Hub.s] (fun h b => forEach (List.range 16) (fun p b =>
    updPort b h p fun x => { x with lowPower := false }) b) b
  let b := alignAll b
  if b.power.warmAfterWake then beginWarm (setPower b fun p => { p with warmAfterWake := false }) else b

/-- Exit from PK5 begins: PWR_EN_MAIN is asserted (R532). -/
def leavePk5 (b : Block) (code : Nat) : Block :=
  let b := fset b HUB_PWR_STATUS HUB_PWR_STATUS_WAKE_SOURCE code
  let b := { b with pkg := { b.pkg with wakeCode := code } }
  setPower b fun p => { p with enMain := true, heldWake := none, window := false, matchBmc := false, matchPlt := false }

/-- Exit from PK3 or PK5; in PK5 a wake event is held while PWR_EN_MAIN is being deasserted (R532), and has no effect while
PWR_EN_MAIN waits for a pulse on COLD_RST_N (R530). -/
def wakeUp (b : Block) (code : Nat) : Block :=
  if b.power.pk = 3 then leavePk3 b code
  else if b.power.pk = 5 then
    if b.power.mainOffDue then setPower b fun p => { p with heldWake := p.heldWake.or (some code), window := false }
    else if b.power.enMain ∨ b.power.needPulse then b else leavePk5 b code
  else b

/-- WAKE_EVENT: it aborts an attempt; in the window after commit an edge is lost and a level is sampled at its end; otherwise
exit begins. Code 0 is a new message for a core, which only aborts. -/
def wakeEvent (b : Block) (w : WakeSource) : Block :=
  if w.code.val ≠ 0 ∧ wakeEnabled b w = false then b
  else if b.power.attempt.isSome then abortAttempt b 4 0 0
  else if b.power.window then b
  else if wakesFrom w.code.val b.power.pk = false then b
  else if b.power.pk = 1 then leavePk1 b
  else wakeUp b w.code.val

def execWakeEvent (source : WakeSource) (s : State) : Host.Outcome State Fault Refusal :=
  nextBlk s (wakeEvent s.blk source)

/-- WAKE_WINDOW_END (R412): level sources are sampled: those given, the match flags and the timers. -/
def windowEnd (b : Block) (levels : List (Fin 11)) : Block :=
  if b.power.window = false then b
  else
    let b := setPower b fun p => { p with window := false }
    let on (h : Hub) (code : Nat) : Bool := bitOf (rd b (HUB_WAKE_CTRL h)) (wakeBit code)
    let given := (levels.map (·.val)).filter fun c => c != 0 && wakeLevel c && c != 5 && (on .n c || on .s c)
    let own := (if b.power.matchBmc && on .n 1 then [1] else []) ++ (if b.power.matchPlt && on .s 2 then [2] else []) ++
      if (on .n 5 && timerWakes b .n) || (on .s 5 && timerWakes b .s) then [5] else []
    match ((given ++ own).filter fun c => wakesFrom c b.power.pk) with
    | [] => b
    | cs =>
      match freePick b cs with
      | (none, b) => b
      | (some c, b) => wakeUp (setStatus b HUB_PWR_STATUS 51) c

def execWakeWindowEnd (levels : List (Fin 11)) (s : State) : Host.Outcome State Fault Refusal :=
  nextBlk s (windowEnd s.blk levels)

/-- PWR_EN_MAIN_OFF (R531, R532): PWR_EN_MAIN is deasserted. After a fall of PWRGOOD power-up resumes from step 3; in PK5 a
held wake event starts the exit. -/
def mainOff (b : Block) : Block :=
  if b.power.mainOffDue = false then b
  else
    let b := setPower b fun p => { p with enMain := false, mainGood := false, mainOffDue := false }
    if b.power.pk ≠ 5 then setPower b fun p => { p with enMain := true }
    else match b.power.heldWake with
      | none => b
      | some code => leavePk5 b code

def execPwrEnMainOff (s : State) : Host.Outcome State Fault Refusal := nextBlk s (mainOff s.blk)

/-- HIGHWAY_EXIT_REPEAT (R412): an end that leaves PARKED and has no answer signals again. -/
def exitAgain (b : Block) (h : Hub) (k : Fin 2) : Block :=
  if linkState b (.hwy h k) = 1 ∧ fget b (LINK_STATUS (.hwy h k)) LINK_STATUS_LAST_RETRAIN_CAUSE = 7 then
    emit b (.hwyExit h k)
  else b

def execHighwayExitRepeat (hub : Hub) (k : Fin 2) (s : State) : Host.Outcome State Fault Refusal :=
  nextBlk s (exitAgain s.blk hub k)

/-- I3C_ADDRESS_MATCH (R413): another address passes without effect. The match flag stays set until the port runs; in I3C mode
the first matching header is not acknowledged. -/
def addressMatch (b : Block) (port : I3cPort) (mode : I3cMode) (addressed : Bool) : Block :=
  if addressed = false then b
  else
    let runs := b.power.pk = 0 ∧ b.power.attempt.isSome = false
    if runs then emit b (.i3cAck port true)
    else
      let b := emit b (.i3cAck port (mode == .smbus))
      let b := match port with
        | .bmc => setPower b fun p => { p with matchBmc := true }
        | .platform => setPower b fun p => { p with matchPlt := true }
      let w : WakeSource := match port with
        | .bmc => { code := 1, hub := .n, index := 0 }
        | .platform => { code := 2, hub := .s, index := 0 }
      let b := wakeEvent b w
      if b.power.pk = 0 then setPower b fun p => { p with matchBmc := false, matchPlt := false } else b

def execI3cAddressMatch (port : I3cPort) (mode : I3cMode) (addressed : Bool) (s : State) :
    Host.Outcome State Fault Refusal := nextBlk s (addressMatch s.blk port mode addressed)

/-- WARM_RST_N (R534, R535): low for at least 10 µs; discarded while COLD_RST_N is low or a cold reset runs; in PK3 and PK5 the
package wakes first. -/
def warmPin (b : Block) (low : Nat) : Block :=
  let p := b.power
  if low < 10 ∨ p.aoGood = false ∨ p.coldHigh = false ∨ b.pkg.resetDue = 1 ∨ (p.coldHeld = true ∧ p.pk ≠ 5) then b
  else if p.pk = 3 then leavePk3 (setPower b fun p => { p with warmAfterWake := true }) (fget b HUB_PWR_STATUS HUB_PWR_STATUS_WAKE_SOURCE)
  else if p.pk = 5 then
    wakeUp (setPower b fun p => { p with warmAfterWake := true }) (fget b HUB_PWR_STATUS HUB_PWR_STATUS_WAKE_SOURCE)
  else beginWarm (if p.attempt.isSome then abortAttempt b 4 0 0 else b)

def execWarmRstN (lowMicros : Nat) (s : State) : Host.Outcome State Fault Refusal := nextBlk s (warmPin s.blk lowMicros)

/-! ## Frequency grants (R416, R417) -/

/-- PERF_REQ as it counts. -/
def perfReq (b : Block) (i : Nat) : Nat := max 12 (min 38 (cget b i FCD_CORE_PWR FCD_CORE_PWR_PERF_REQ))

/-- Power grant of a hart in units of 100 MHz. -/
def powerGrant (b : Block) (i : Nat) : Nat :=
  match b.power.grants.get 0 i with
  | 0 => 38
  | g => g

/-- Cap of a die or hub (R418, R539). -/
def capOf (b : Block) (k : Nat) : Nat :=
  match b.power.caps.get 0 k with
  | 0 => 38
  | c => c

/-- Thermal cap of a core: the lower of its die's and its hub's. -/
def coreCap (b : Block) (i : Nat) : Nat := min (capOf b (hartDie i)) (capOf b (agHome (dieHub (hartDie i))))

def setGrant (g i : Nat) (b : Block) : Block :=
  setPower b fun p => { p with grants := p.grants.set 0 i (if 38 ≤ g then 0 else g) }

/-- Harts of dies that are out of reset. -/
def grantHarts (b : Block) : List Nat :=
  ((List.range 12).filter fun k => !(getDie b k).inReset).flatMap dieHarts

/-- GRANT_EVALUATION: the measured averages against SUSTAINED_W and FAST_W, then every core's grant. -/
def evaluateGrants (b : Block) (m : PowerMeasure) : Block :=
  let b := setPower b fun p => { p with average := m.average }
  let harts := grantHarts b
  let gs := harts.map (powerGrant b)
  let high := gs.foldl max 12
  let low := gs.foldl min 38
  let past := b.power.sustained < m.average ∨ b.power.fast < m.fast
  let b := if past then
      if high ≤ 12 then raise b (agHome .n) 51 10 4 sevInfo 0 (place HUB_PWR_STATUS 43 8) (rd b HUB_PWR_STATUS)
      else forEach (harts.filter fun i => powerGrant b i == high) (setGrant (high - 1)) b
    else if m.average < b.power.sustained ∧ m.fast < b.power.fast ∧ low < 38 then
      forEach (harts.filter fun i => powerGrant b i == low) (setGrant (low + 1)) b
    else b
  forEach harts (fun i b =>
    cset b i FCD_CORE_PWR FCD_CORE_PWR_GRANTED (min (perfReq b i) (min (powerGrant b i) (coreCap b i)))) b

def execGrantEvaluation (measure : PowerMeasure) (s : State) : Host.Outcome State Fault Refusal :=
  nextBlk s (evaluateGrants s.blk measure)

/-! ## Temperature (R418, R538 to R540) -/

/-- Agent number that keys a die or hub. -/
def unitKey : ClockUnit → Nat
  | .hub h => agHome h
  | .die k => k.val

/-- Cap of the derating table for a temperature. -/
def derate (t : Int) : Nat :=
  if t ≤ 105 then 38 else if t ≤ 115 then 34 else if t ≤ 125 then 30 else if t ≤ 135 then 26 else if t ≤ 145 then 20 else 12

/-- The next higher cap, and the lower bound of a cap's row. -/
def capRow : Nat → Nat × Int
  | 34 => (38, 105)
  | 30 => (34, 115)
  | 26 => (30, 125)
  | 20 => (26, 135)
  | 12 => (20, 145)
  | _ => (38, 0)

/-- One sample of a die's highest sensor against its cap (R539). -/
def capSample (b : Block) (k : Nat) (t : Int) : Block :=
  let cap := capOf b k
  let put (c n : Nat) : Block :=
    setPower b fun p => { p with caps := p.caps.set 0 k (if c = 38 then 0 else c), cooler := p.cooler.set 0 k n }
  if derate t < cap then put (derate t) 0
  else if cap = 38 then b
  else if t ≤ (capRow cap).2 - 3 then
    if b.power.cooler.get 0 k + 1 = 10 then put (capRow cap).1 0 else put cap (b.power.cooler.get 0 k + 1)
  else put cap 0

/-- The thermal trip (R418, R540): every clock but the always-on clocks stops, and the trip is recorded. -/
def thermalTrip (b : Block) (u : ClockUnit) : Block :=
  let h := agentHub (unitKey u)
  let b := setPower b fun p => { p with clocksStopped := true, thermTrip := true }
  raise b (agHome h) 52 10 4 sevFatal 0 (place HUB_PWR_STATUS 43 8) (rd b HUB_PWR_STATUS) true

/-- THERMAL_SAMPLE. -/
def sampleTemp (b : Block) (u : ClockUnit) (t : Int) : Block :=
  let b := setPower b fun p => { p with temps := p.temps.set 0 (unitKey u) (t + 41).toNat }
  if 155 ≤ t then thermalTrip b u else capSample b (unitKey u) t

def execThermalSample (unit : ClockUnit) (celsius : Int) (s : State) : Host.Outcome State Fault Refusal :=
  if celsius < -40 then .fault .belowMinusForty else nextBlk s (sampleTemp s.blk unit celsius)

end Sys2Proof.Machine
end

