-- ==== Sys2Proof/Machine/Mailbox.lean ====
section
/-! DEFINITION. The mailboxes (R50 to R64): their pages, the exchange, the order of the checks of a command, handles and pools
(R65 to R70). -/

namespace Sys2Proof.Machine

/-! ## Pages -/

def mbxState (b : Block) (m : Nat) : Nat := fget b (TH_MBX_STATE m) TH_MBX_STATE_STATE
def mbxBusy (b : Block) (m : Nat) : Bool := mbxState b m == 1

/-- A byte of the payload window; one that a DONE left undefined is free (R57). -/
def winByte (x : Mbx) (i : Nat) : Byte :=
  match x.window.get none i with
  | some v => v
  | none => if x.seed = 0 then 0 else BitVec.ofNat 8 (Config.freeNat (x.seed - 1) >>> (8 * i))

/-- Bytes of the window from `i` up. -/
def winBytes (x : Mbx) (i : Nat) : Nat → List Byte
  | 0 => []
  | n + 1 => winByte x i :: winBytes x (i + 1) n

/-- Write bytes of the window from `i` up. -/
def putWin (x : Mbx) : Nat → List Byte → Mbx
  | _, [] => x
  | i, v :: r => putWin { x with window := x.window.set none i (some v) } (i + 1) r

/-- Tollhouse that serves a command rung by a caller (R50, R395). -/
def ringServer (b : Block) (c : Caller) (m : Nat) : Hub :=
  if m = 19 then .s
  else if isSplit b = false then .n
  else if m < 16 then (if partHubs b (m / 4) = [.s] then .s else .n)
  else if m = 16 then c.hub
  else .n

/-- Tollhouse that serves the command running on a page. -/
def pageServer (b : Block) (m : Nat) : Hub := if (getMbx b m).south then .s else .n

/-- Does a Tollhouse complete commands (R44, R49)? -/
def thServes (b : Block) (h : Hub) : Bool := (getTh b h).running && !(getTh b h).stopped

/-! ## RING and ABORT (R55, R56, R62) -/

/-- RING = 1 on a page: BUSY, with a copy of the request; while BUSY it is ignored and sets OVERRUN. -/
def ringPage (b : Block) (c : Caller) (m : Nat) : Block :=
  if mbxBusy b m then setStatus b (TH_MBX_STATE m) 2
  else
    let r0 := rd b (TH_MBX_REQ_HDR0 m)
    let len := min 4096 (bitsOf r0 47 32)
    let south := ringServer b c m == .s
    let n := b.pkg.rung + 1
    let b := { b with pkg := { b.pkg with rung := n } }
    let b := fset b (TH_MBX_STATE m) TH_MBX_STATE_STATE 1
    let r1 := rd b (TH_MBX_REQ_HDR1 m)
    updMbx b m fun x => { x with
      req0 := BitVec.ofNat 64 r0, req1 := BitVec.ofNat 64 r1, payload := winBytes x 0 len, world := c.world, order := n
      south := south, admitted := false, changed := false, waiting := false, result := none
      waitA := 0, waitB := 0, cursor := 0, limit := 0, counts := [0, 0, 0] }

/-- COMMAND of the request that a page runs. -/
def pageCode (b : Block) (m : Nat) : Nat := bitsOf (getMbx b m).req0.toNat 15 0

/-- DRY_RUN and SEQUENCE of that request. -/
def pageDry (b : Block) (m : Nat) : Bool := bitOf (getMbx b m).req0.toNat 49
def pageSeq (b : Block) (m : Nat) : Nat := bitsOf (getMbx b m).req0.toNat 31 16

/-- Is the request the one whose response is stored (R58)? -/
def isReplay (b : Block) (m : Nat) : Bool :=
  fon b (TH_MBX_STATE m) TH_MBX_STATE_HAVE_LAST && fget b (TH_MBX_STATE m) TH_MBX_STATE_LAST_SEQ == pageSeq b m &&
    (getMbx b m).storedDry == pageDry b m

/-- Command codes of interface version 1 (R71). -/
def commandCodes : List Nat :=
  [0x001, 0x002, 0x003, 0x004, 0x101, 0x102, 0x103, 0x104, 0x105, 0x201, 0x202, 0x301, 0x302, 0x303, 0x304, 0x305,
   0x401, 0x402, 0x403, 0x501, 0x502, 0x503, 0x504, 0x601, 0x602, 0x603, 0x701, 0x702, 0x703, 0x704, 0x801, 0x802,
   0x901, 0x902, 0x903, 0xA01, 0xA02]

/-- The result of a page's command is known. -/
def reply (b : Block) (m status detail handle : Nat) (pay : List Byte) : Block :=
  updMbx b m fun x => { x with result := some (status, detail, handle, pay), waiting := false }

/-- ABORT = 1 on a page (R62). -/
def abortPage (b : Block) (m : Nat) : Block :=
  let x := getMbx b m
  if mbxBusy b m = false ∨ thServes b (pageServer b m) = false ∨ x.result.isSome = true ∨ x.changed = true ∨
      notAbortable.contains (pageCode b m) = true ∨ commandCodes.contains (pageCode b m) = false ∨ isReplay b m = true then b
  else reply b m 0xB 0 0 []

/-! ## Reads and writes of a page (R11, R51, R53, R54, R56) -/

/-- A register value with `size` bytes from byte `lo` replaced. -/
def mergeBytes (old lo size v : Nat) : Nat := putBits old (8 * (lo + size) - 1) (8 * lo) v

/-- Is an access of a page one that R11 permits on a 64-bit register or the window? -/
def wordAccess (off size : Nat) : Bool := (size == 4 && off % 4 == 0) || (size == 8 && off % 8 == 0)

/-- A write within an accepted page; none where it is not performed (R11, R51). -/
def pageWrite (b : Block) (c : Caller) (m off size v : Nat) : Option Block :=
  let busy := mbxBusy b m
  let overrun := setStatus b (TH_MBX_STATE m) 2
  if wordAccess off size = false then none
  else if off = 0 then
    if size ≠ 4 then none
    else
      let b := if bitOf v 1 then abortPage b m else b
      some (if bitOf v 0 then ringPage b c m else b)
  else if off = 8 then
    if size ≠ 4 then none
    else
      let b := if bitOf v 2 then clearStatus b (TH_MBX_STATE m) 2 else b
      let b := if bitOf v 3 then clearStatus b (TH_MBX_STATE m) 3 else b
      some (if m = 18 then epIntx b .n else if m = 19 then epIntx b .s else b)
  else if 0x20 ≤ off ∧ off < 0x30 then
    let r := off / 8 * 8
    let keep := if r = 0x20 then 2 ^ 64 else 2 ^ 32
    some (if busy then overrun else wr b (TH_MBX_DOORBELL m + r) (mergeBytes (rd b (TH_MBX_DOORBELL m + r)) (off % 8) size v % keep))
  else if 0x30 ≤ off ∧ off < 0x40 then some b
  else if 0x40 ≤ off ∧ off < 0x48 then
    some (if 17 ≤ m then b else
      let w := mergeBytes (rd b (TH_MBX_MSI m)) (off % 8) size v
      wr b (TH_MBX_MSI m) (place (bitsOf w 55 44) 55 44 + bitsOf w 39 0))
  else if 0x1000 ≤ off ∧ off < 0x2000 then
    some (if busy then overrun else updMbx b m fun x => putWin x (off - 0x1000) (natToBytes size v))
  else none

/-- A read within an accepted page; none where it is not performed. -/
def pageRead (b : Block) (m off size : Nat) : Option Nat :=
  if wordAccess off size = false then none
  else if off = 0 ∨ off = 8 then (if size = 4 then some (if off = 0 then 0 else rd b (TH_MBX_STATE m)) else none)
  else if 0x20 ≤ off ∧ off < 0x48 then some (rd b (TH_MBX_DOORBELL m + off / 8 * 8) >>> (8 * (off % 8)) % 2 ^ (8 * size))
  else if 0x1000 ≤ off ∧ off < 0x2000 then
    some (if mbxBusy b m then 0 else bytesToNat (winBytes (getMbx b m) (off - 0x1000) size))
  else none

/-- RING (R55). -/
def execRing (src : Source) (page : Fin 20) (s : State) : Host.Outcome State Fault Refusal :=
  nextBlk s (regAction s.blk src (TH_MBX_DOORBELL page.val) fun c => ringPage s.blk c page.val)

/-- ABORT (R62). -/
def execAbort (src : Source) (page : Fin 20) (s : State) : Host.Outcome State Fault Refusal :=
  nextBlk s (regAction s.blk src (TH_MBX_DOORBELL page.val) fun _ => abortPage s.blk page.val)

/-- MBX_HEADER_WRITE (R56). -/
def execMbxHeaderWrite (src : Source) (page : Fin 20) (off size : Nat) (value : Word) (s : State) :
    Host.Outcome State Fault Refusal :=
  let at_ := TH_MBX_DOORBELL page.val + off
  nextBlk s (regAction s.blk src at_ fun c =>
    (pageWrite s.blk c page.val off size value.toNat).getD (refuseWrite s.blk c at_ (callerHdr s.blk c at_ true)))

/-- The units of a write transfer of the baseboard controller, from an offset. -/
def i3cWrite (c : Caller) : Nat → List Byte → Block → Block
  | off, a :: d :: e :: f :: r, b =>
    let at_ := TH_MBX_DOORBELL 17 + off
    let b := (pageWrite b c 17 off 4 (bytesToNat [a, d, e, f])).getD (refuseWrite b c at_ (callerHdr b c at_ true))
    i3cWrite c ((off + 4) % 65536) r b
  | off, _, b => updMbx b 17 fun x => { x with pointer := off }

/-- Answer bytes of a read transfer of `n` units; a unit that is not performed ends the answer and is reported. -/
def i3cRead (b : Block) (c : Caller) : Nat → Nat → List Byte → List Byte × Block
  | _, 0, acc => (acc, b)
  | off, n + 1, acc =>
    match pageRead b 17 off 4 with
    | some v => i3cRead b c ((off + 4) % 65536) n (acc ++ natToBytes 4 v)
    | none => (acc, reportAccess b c (TH_MBX_DOORBELL 17 + off) (callerHdr b c (TH_MBX_DOORBELL 17 + off) false))

/-- I3C_TRANSFER (R52): a transfer of another length is ignored and reported. -/
def i3cTransfer (b : Block) (op : I3cOp) : Block :=
  let c := callerOf b .bmc
  let bad (off : Nat) : Block := reportAccess b c (TH_MBX_DOORBELL 17 + off) 0
  match op with
  | .write (lo :: hi :: data) =>
    let off := lo.toNat + 256 * hi.toNat
    if data.length % 4 = 0 then i3cWrite c off data b else bad off
  | .write _ => bad 0
  | .read n =>
    if n % 4 = 0 ∧ n ≠ 0 then
      let off := (getMbx b 17).pointer
      let (bytes, b) := i3cRead b c off (n / 4) []
      emit (updMbx b 17 fun x => { x with pointer := (off + n) % 65536 }) (.i3cBytes bytes)
    else bad (getMbx b 17).pointer

def execI3cTransfer (op : I3cOp) (s : State) : Host.Outcome State Fault Refusal := nextBlk s (i3cTransfer s.blk op)

/-! ## DONE (R54, R55, R57, R58) -/

/-- The completion interrupt of a page (R54). -/
def pageIrq (b : Block) (m : Nat) : Block :=
  let h := pageServer b m
  let b := setStatus b (TH_MBX_STATE m) 3
  if m < 17 then
    let msi := rd b (TH_MBX_MSI m)
    let addr := bitsOf msi 39 0
    if addr = 0 then b
    else sendMsi b h (agTh h) (if m < 16 then m / 4 else 0) (addr * 4096) (bitsOf msi 55 44) ((getMbx b m).world || m == 16)
  else if m = 17 then emit b .ibi
  else
    let x : Hub := hubOf (m - 18)
    epIntx (if (getIo b x).ep.msixOn then emit b (.msix x 0 0) else b) x

/-- The window after a response: its bytes, and undefined bytes beyond. -/
def showResponse (b : Block) (m : Nat) (pay : List Byte) : Block :=
  let i := b.freeIx
  updMbx { b with freeIx := i + 1 } m fun x => putWin { x with window := {}, seed := i + 1 } 0 pay

/-- End a command: DONE, LAST_SEQ, HAVE_LAST, and the interrupt where it was asked for (R55 steps 5 and 6). -/
def endCommand (b : Block) (m : Nat) : Block :=
  let st := TH_MBX_STATE m
  let b := fset (fset (fset b st TH_MBX_STATE_STATE 2) st TH_MBX_STATE_LAST_SEQ (pageSeq b m)) st TH_MBX_STATE_HAVE_LAST 1
  if bitOf (getMbx b m).req0.toNat 48 then pageIrq b m else b

/-- Write the response of a page's command, and store it (R55, R58, R59). -/
def finish (b : Block) (m status detail handle : Nat) (pay : List Byte) : Block :=
  let dry := pageDry b m
  let pay := if dry then [] else pay
  let r0 := place (detail % 2 ^ 14 + 2 ^ 14 * b2n dry) 63 48 + place pay.length 47 32 + place (pageSeq b m) 31 16 +
    place status 15 0
  let r1 := if dry then 0 else handle % 2 ^ 32
  let b := showResponse b m pay
  let b := wr (wr b (TH_MBX_RSP_HDR0 m) r0) (TH_MBX_RSP_HDR1 m) r1
  let b := updMbx b m fun x => { x with
    storedDry := dry, stored0 := BitVec.ofNat 64 r0, stored1 := BitVec.ofNat 64 r1, storedPayload := pay
    admitted := false, waiting := false, result := none }
  endCommand b m

/-- Return the stored response again, with REPLAYED (R58). -/
def replay (b : Block) (m : Nat) : Block :=
  let x := getMbx b m
  let b := showResponse b m x.storedPayload
  let b := wr (wr b (TH_MBX_RSP_HDR0 m) (putBits x.stored0.toNat 63 63 1)) (TH_MBX_RSP_HDR1 m) x.stored1.toNat
  endCommand b m

/-! ## A command (R59 to R62) -/

/-- What the Tollhouse knows of a command: its page and server, the request, and the caller's class: a partition, the secure
world, the baseboard controller or a foreign host. -/
structure Call where
  m : Nat
  server : Hub
  code : Nat
  dry : Bool
  len : Nat
  flags : Nat
  handle : Nat
  pay : List Byte
  part : Option Nat
  sec : Bool
  bmc : Bool
  host : Bool
  /-- The RING was written in the secure world (R60 check 4). -/
  world : Bool
deriving DecidableEq, Repr

def callOf (b : Block) (m : Nat) : Call :=
  let x := getMbx b m
  let r := x.req0.toNat
  { m := m, server := pageServer b m, code := bitsOf r 15 0, dry := bitOf r 49, len := bitsOf r 47 32, flags := bitsOf r 63 48
    handle := bitsOf x.req1.toNat 31 0, pay := x.payload, part := if m < 16 then some (m / 4) else none
    sec := m == 16, bmc := m == 17, host := decide (18 ≤ m), world := x.world }

/-- Payload fields of 1, 2, 4 and 8 bytes. -/
def Call.u8 (c : Call) (i : Nat) : Nat := (c.pay.getD i 0).toNat
def Call.u16 (c : Call) (i : Nat) : Nat := bytesToNat ((c.pay.drop i).take 2)
def Call.u32 (c : Call) (i : Nat) : Nat := bytesToNat ((c.pay.drop i).take 4)
def Call.u64 (c : Call) (i : Nat) : Nat := bytesToNat ((c.pay.drop i).take 8)

/-- A command card: code, permitted LENGTH, admitted caller classes, reserved fields and ranges, hubs whose Tollhouses the
work needs, and the type of its handle. -/
structure Card where
  code : Nat
  len : Nat
  part : Bool := false
  sec : Bool := true
  bmc : Bool := true
  host : Bool := false
  fields : Call → Bool := fun _ => true
  hubs : Block → Call → List Hub := fun _ _ => []
  handle : Option Nat := none

/-- Status codes (R64). -/
abbrev thOk : Nat := 0
abbrev thBadField : Nat := 3
abbrev thBadHandle : Nat := 4
abbrev thStale : Nat := 5
abbrev thDenied : Nat := 6
abbrev thNoResource : Nat := 7
abbrev thBusy : Nat := 8
abbrev thNotReady : Nat := 9
abbrev thTimeout : Nat := 10
abbrev thRefused : Nat := 12

/-- Bit of HUB_MILEPOST_TH for a code (R74). -/
def serviceBit (code : Nat) : Nat := [1, 3, 4, 6, 5, 7, 8, 2, 9, 10, 11].getD (code / 256) 0

/-- Is a service there at a hub, for a command that another hub's Tollhouse may serve (R74)? Across a split it is not. -/
def serviceUp (b : Block) (server : Hub) (code : Nat) (h : Hub) : Bool :=
  bitOf (rd b (HUB_MILEPOST_TH h)) (serviceBit code) && (h == server || !isSplit b)

/-- Index range of a handle type (R66). -/
def handleRange (ty : Nat) : Nat := [0, 4096, 128, 512, 512, 128].getD ty 0

/-- The checks of R65; `ty` is the type that the card requires, or none for any. -/
def handleFault (b : Block) (c : Call) (ty : Option Nat) : Option Nat :=
  let t := bitsOf c.handle 31 28
  let p := bitsOf c.handle 27 24
  let g := bitsOf c.handle 23 16
  let ix := bitsOf c.handle 15 0
  let o := b.objs.get {} (objKey t ix)
  if t = 0 ∨ 6 ≤ t ∨ (ty.isSome = true ∧ ty ≠ some t) ∨ (4 ≤ p ∧ p ≠ 15) ∨ g = 0 ∨ handleRange t ≤ ix then some thBadHandle
  else if (c.part.isSome = true ∧ c.part ≠ some p) ∨ (c.host = true ∧ p ≠ 15) then some thDenied
  else if g ≠ o.gen ∨ o.live = false ∨ p ≠ o.part then some thStale
  else none

/-- Checks 2 to 6 of R60. -/
def cardFault (b : Block) (c : Call) (k : Card) : Option Nat :=
  if 4096 < c.len ∨ c.len ≠ k.len then some 2
  else if c.flags / 4 ≠ 0 ∨ k.fields c = false then some thBadField
  else if !((c.part.isSome && k.part) || (c.sec && k.sec) || (c.bmc && k.bmc) || (c.host && k.host)) then some thDenied
  else if ((c.server :: k.hubs b c).all (serviceUp b c.server c.code)) = false then some thNotReady
  else match k.handle with
  | some ty => handleFault b c (some ty)
  | none => none

/-- Does an earlier command that names the same object still run (R61)? -/
def waitsForObject (b : Block) (m : Nat) : Bool :=
  let x := getMbx b m
  x.req1.toNat % 2 ^ 32 != 0 && (List.range 20).any fun n =>
    let y := getMbx b n
    n != m && mbxBusy b n && y.result.isNone && decide (y.order < x.order) && y.req1.toNat % 2 ^ 32 == x.req1.toNat % 2 ^ 32

/-- May the Tollhouse now check and begin the command `code` of a page? -/
def mayBegin (b : Block) (m code : Nat) : Bool :=
  let x := getMbx b m
  thServes b (pageServer b m) && mbxBusy b m && x.result.isNone && !x.admitted && pageCode b m == code && !isReplay b m &&
    !waitsForObject b m

/-- Check a command and let it act: the first check that fails decides the status (R60); a dry run stops there (R59). The
card's own checks answer a status and DETAIL. -/
def runCard (b : Block) (m : Nat) (k : Card) (check : Block → Call → Option (Nat × Nat)) (act : Block → Call → Block) : Block :=
  if mayBegin b m k.code = false then b
  else
    let c := callOf b m
    match cardFault b c k with
    | some st => reply b m st 0 0 []
    | none =>
      match check b c with
      | some (st, det) => reply b m st det 0 []
      | none =>
        if c.dry then reply b m thOk 0 0 []
        else act (updMbx b m fun x => { x with admitted := true }) c

/-- Mark that a command has changed state (R62). -/
def markChanged (b : Block) (m : Nat) : Block := updMbx b m fun x => { x with changed := true }

/-- The command waits for its card's condition, with what it works on. -/
def await (b : Block) (m a z : Nat) : Block :=
  updMbx b m fun x => { x with waiting := true, changed := true, waitA := a, waitB := z }

/-- Pages that wait with a command code. -/
def waitingPages (b : Block) (code : Nat) : List Nat :=
  (List.range 20).filter fun m => (getMbx b m).waiting && mbxBusy b m && pageCode b m == code

/-- Answer every page that waits with a command code. -/
def replyAll (b : Block) (code status detail : Nat) (pay : List Byte) : Block :=
  forEach (waitingPages b code) (fun m b => reply b m status detail 0 pay) b

/-! ## Pools (R69, R70) -/

/-- Indices of a type on a hub in a quarter's pool, by handle index: `west` or east (R15, R66, R319, R467). -/
def poolIndices (b : Block) (ty : Nat) (h : Hub) (west : Bool) : List Nat :=
  let half (n : Nat) : List Nat := (List.range n).map fun i => h.idx * (2 * n) + (if west then 0 else n) + i
  match ty with
  | 1 => half 1024
  | 2 => half 32
  | 3 => if west && epMode b h then (List.range 256).map fun i => h.idx * 256 + i else []
  | 4 => if west && epMode b h then (List.range 256).map fun i => h.idx * 256 + i else []
  | 5 => half 32
  | _ => []

/-- Is an index free? -/
def indexFree (b : Block) (ty ix : Nat) : Bool := !(b.objs.get {} (objKey ty ix)).live

/-- The index of a list that was freed longest ago (R69); those never used come first, in order. -/
def longestFree (b : Block) (ty : Nat) : List Nat → Option Nat → Option Nat
  | [], best => best
  | ix :: r, best =>
    let at_ (i : Nat) : Nat := (b.objs.get {} (objKey ty i)).freed
    longestFree b ty r <|
      if indexFree b ty ix = false then best
      else match best with
        | none => some ix
        | some j => if at_ ix < at_ j then some ix else some j

/-- Draw an index from a list of indices. -/
def drawIndex (b : Block) (ty : Nat) (xs : List Nat) : Option Nat := longestFree b ty xs none

/-- Take an index for a new object of a partition (15 for a package-scope one). -/
def takeIndex (b : Block) (ty ix part : Nat) (world : Bool) (server : Hub) : Block :=
  { b with objs := b.objs.upd {} (objKey ty ix) fun o => { o with
      live := true, destroying := false, part := part, world := world, created := timeAt b (agTh server) } }

/-- Handle of a live object (R65). -/
def handleOf (b : Block) (ty ix : Nat) : Nat :=
  let o := b.objs.get {} (objKey ty ix)
  place ty 31 28 + place o.part 27 24 + place o.gen 23 16 + place ix 15 0

end Sys2Proof.Machine
end

