-- ==== Sys2Proof/Machine/Fabric.lean ====
section
/-! DEFINITION. The fabric (R482 to R488, R505) and the waymark waves (R498 to R504): roll calls, routes, route drains, waves
and their commands. -/

namespace Sys2Proof.Machine

/-! ## Topologies (R482) -/

/-- Are two positions of a topology of `n` members neighbours? -/
def posAdjacent (topo n p q : Nat) : Bool :=
  match topo with
  | 1 => p != q && ((p + 1) % n == q || (q + 1) % n == p)
  | 2 =>
    let c := n / 2
    let apart (a d : Nat) : Nat := max a d - min a d
    apart (p / c) (q / c) + apart (p % c) (q % c) == 1
  | 3 => (p ^^^ q) == 1 || (p ^^^ q) == 2 || (p ^^^ q) == 4
  | _ => false

/-- Member counts that a topology permits; a package that runs alone names itself or nothing. -/
def membersOk (topo n : Nat) : Bool :=
  match topo with
  | 0 => decide (n ≤ 1)
  | 1 => decide (2 ≤ n ∧ n ≤ 8)
  | 2 => n == 4 || n == 6 || n == 8
  | 3 => n == 2 || n == 4 || n == 8
  | _ => false

/-- Package number of a member: the rank of its serial number (R483 step 4). -/
def memberNumber (f : RollCall) (i : Nat) : Nat := (f.serials.filter fun s => decide (s < f.serials.getD i 0)).length

/-- Are two packages, by number, joined by an ACTIVE link? -/
def linkedPkgs (f : RollCall) (a z : Nat) : Bool :=
  f.links.any fun l =>
    let x := memberNumber f l.1
    let y := memberNumber f l.2
    (x == a && y == z) || (x == z && y == a)

/-- May package `p` stand at the position after `seq`? -/
def fitsAt (topo n : Nat) (f : RollCall) (seq : List Nat) (p : Nat) : Bool :=
  !seq.contains p && (List.range seq.length).all fun q =>
    !posAdjacent topo n q seq.length || linkedPkgs f (seq.getD q 0) p

/-- The lexicographically smallest placing of packages that goes on from `seq`, for the positions left (R483 step 4). -/
def placePkgs (topo n : Nat) (f : RollCall) : Nat → List Nat → Option (List Nat)
  | 0, seq => some seq
  | k + 1, seq => ((List.range n).filter (fitsAt topo n f seq)).findSome? fun p => placePkgs topo n f k (seq ++ [p])

/-- Packages by position, with package 0 at position 0. -/
def positions (topo : Nat) (f : RollCall) : Option (List Nat) :=
  placePkgs topo f.serials.length f (f.serials.length - 1) [0]

/-! ## Routes (R486) -/

/-- Steps from `p` in a ring of `n`, `len` of them: does the path use the link between `x` and its successor only as its last
hop? -/
def ringPath (n x p len : Nat) (up : Bool) : Bool :=
  (List.range len).all fun i =>
    let here := if up then (p + i) % n else (p + n * len - i) % n
    let crosses := if up then here == x else here == (x + 1) % n
    !crosses || i + 1 == len

/-- Next position from `p` to `t` under an alternative. -/
def nextPosition (topo n alt p t : Nat) : Nat :=
  match topo with
  | 1 =>
    let x := if alt = 0 then n - 1 else n / 2 - 1
    let up := (t + n - p) % n
    let down := (p + n - t) % n
    let upOk := ringPath n x p up true
    let downOk := ringPath n x p down false
    if upOk && (!downOk || decide (up ≤ down)) then (p + 1) % n else (p + n - 1) % n
  | 2 =>
    let c := n / 2
    let row := p / c
    let col := p % c
    let rowStep := (if row < t / c then row + 1 else row - 1) * c + col
    let colStep := row * c + (if col < t % c then col + 1 else col - 1)
    if alt = 0 then (if col = t % c then rowStep else colStep) else (if row = t / c then colStep else rowStep)
  | _ =>
    let d := p ^^^ t
    let bits := [1, 2, 4].filter fun m => (d &&& m) != 0
    p ^^^ (if alt = 0 then bits.getD 0 0 else bits.getLastD 0)

/-- The link that leads to a package: the lowest with it at the far end, as hub × 2 + k. -/
def linkTo (f : RollCall) (p : Nat) : Option Nat :=
  (List.range 4).find? fun x => ((f.far.getD x none).map (memberNumber f)) == some p

/-- Code of HWY_ROUTE_n at a hub for a link. -/
def routeCode (h : Hub) (x : Nat) : Nat := if x / 2 = h.idx then 2 + x % 2 else 4

/-- HWY_ROUTE_n at a hub, for the placing `seq` with this package `me` (R485, R486). -/
def routeWord (topo : Nat) (f : RollCall) (seq : List Nat) (me : Nat) (h : Hub) (node : Nat) : Nat :=
  let n := seq.length
  let pkg := nodePkg node
  if agentReserved (nodeAgent node) then 0
  else if pkg = me then 0x11
  else if n ≤ pkg then 0
  else
    let pos (k : Nat) : Nat := seq.idxOf k
    let code (alt : Nat) : Nat :=
      match linkTo f (seq.getD (nextPosition topo n alt (pos me) (pos pkg)) 0) with
      | some x => routeCode h x
      | none => 0
    code 1 * 16 + code 0

/-- Write the route table of both hubs. -/
def writeRoutes (b : Block) (word : Hub → Nat → Nat) : Block :=
  forEach [Hub.n, Hub.s] (fun h b => forEach (List.range 256) (fun n b => wr b (HWY_ROUTE h n) (word h n)) b) b

/-- Routes of a package that runs alone as package 0 (R505). -/
def aloneRoute (_ : Hub) (n : Nat) : Nat := if nodePkg n = 0 ∧ agentReserved (nodeAgent n) = false then 0x11 else 0

/-! ## The outcome of a roll call (R483, R484, R488) -/

/-- Partition that a plan joins in a package. -/
def joinOf (p : FabricPlan) (n : Nat) : Option Nat :=
  match p.join.getD n 0xFF with
  | 0xFF => none
  | j => some j

/-- Plan by which the partitions are formed, or will be once a boot's roll call ends. -/
def formingPlan (b : Block) : Plan := if b.pkg.rolling = 1 then b.pkg.plan else b.pkg.running

/-- Home groups of the neighbours for the joined partition (R488). -/
def neighbourWords (f : RollCall) (plan : FabricPlan) (seq : List Nat) (me : Nat) : List Nat :=
  match joinOf plan me with
  | none => []
  | some j =>
    let near (k : Nat) : Bool := posAdjacent plan.topology seq.length (seq.idxOf me) (seq.idxOf k)
    (f.groups.filter fun g => near (memberNumber f g.1)).map fun g =>
      let w := g.2.toNat
      place (memberNumber f g.1) 58 56 + place (bitsOf w 55 52) 55 52 + place (bitsOf w 51 30) 51 30 + place j 17 16 +
        place (bitsOf w 15 0) 15 0

/-- Do two groups of a partition overlap? -/
def wordsOverlap (x y : Nat) : Bool :=
  let lo (w : Nat) : Nat := bitsOf w 51 30
  let hi (w : Nat) : Nat := bitsOf w 51 30 + bitsOf w 15 0
  bitsOf x 17 16 == bitsOf y 17 16 && decide (lo x < hi y ∧ lo y < hi x)

/-- Does some pair of a list of groups overlap? -/
def anyOverlap : List Nat → Bool
  | [] => false
  | w :: r => r.any (wordsOverlap w) || anyOverlap r

/-- Does a partition run on this package? -/
def anyRuns (b : Block) : Bool := (List.range 4).any fun p => partState b .n p == 2 || partState b .s p == 2

/-- The check that fails, by its code of R484, or the placing of the members. -/
def rollFault (b : Block) (f : RollCall) : Nat ⊕ List Nat :=
  let plan := b.pkg.fabricPlan
  let me := memberNumber f 0
  if f.timedOut then .inl 1
  else if f.serials.length ≠ plan.members then .inl 2
  else if f.plansAgree = false then .inl 3
  else match positions plan.topology f with
  | none => .inl 4
  | some seq =>
    let own := planWords b (formingPlan b)
    let all := own ++ neighbourWords f plan seq me
    if f.groupsConflict || decide (32 < all.length) || anyOverlap all then .inl 5
    else if f.numberBlocked || (me != pkgNo b && anyRuns b) then .inl 6
    else .inr seq

/-- Give a field of HWY_FABRIC_STATUS a value at both hubs. -/
def setFabric (fld : Fld) (v : Nat) (b : Block) : Block :=
  fset (fset b (HWY_FABRIC_STATUS .n) fld v) (HWY_FABRIC_STATUS .s) fld v

/-- Packages that stay lost after a roll call: those that a hub has still to scrub (R495). -/
def stillLost (b : Block) : Nat :=
  ((List.range 8).map fun k =>
    let waits (h : Hub) : Bool := bitOf (fget b (HWY_FABRIC_STATUS h) HWY_FABRIC_STATUS_FAB_SCRUB) k ||
      b.pkg.lostWait.contains (waitKey h (32 + k))
    b2n (bitOf (fget b (HWY_FABRIC_STATUS .n) HWY_FABRIC_STATUS_LOST) k && (waits .n || waits .s)) * 2 ^ k).foldl (· + ·) 0

/-- The tables that a roll call leaves: far ends and neighbours of the links, quarters and JOIN bytes of the members. -/
def fabricTables (f : RollCall) (plan : FabricPlan) (seq : List Nat) (me : Nat) (b : Block) : Block :=
  let far (x : Nat) : Nat := ((f.far.getD x none).map fun i => memberNumber f i + 1).getD 0
  let near (x : Nat) : Nat :=
    if linkTo f (far x - 1) = some x ∧ posAdjacent plan.topology seq.length (seq.idxOf me) (seq.idxOf (far x - 1)) = true then
      far x else 0
  let fill (v : Nat → Nat) (n : Nat) : Tab Nat := { cells := ((List.range n).map fun x => (x, v x)).filter fun c => c.2 != 0 }
  let quarters (k : Nat) : Nat :=
    ((List.range f.serials.length).map fun i => if memberNumber f i = k then f.quarters.getD i 0 % 16 else 0).foldl (· + ·) 0
  { b with pkg := { b.pkg with
      far := fill (fun x => if (f.far.getD x none).isSome then far x else 0) 4
      neighbours := fill (fun x => if (f.far.getD x none).isSome then near x else 0) 4
      memberQuarters := fill quarters 8, joinNow := plan.join } }

/-- The fabric is formed: numbers, tables and routes (R483 steps 5 and 6). -/
def fabricForms (b : Block) (f : RollCall) (seq : List Nat) : Block :=
  let plan := b.pkg.fabricPlan
  let me := memberNumber f 0
  let forming := formingPlan b
  let direct := ((List.range seq.length).map fun q =>
    b2n (posAdjacent plan.topology seq.length (seq.idxOf me) q) * 2 ^ seq.getD q 0).foldl (· + ·) 0
  let b := setFabric HWY_FABRIC_STATUS_LOST (stillLost b) b
  let b := setFabric HWY_FABRIC_STATUS_MEMBERS (2 ^ seq.length - 1) (setFabric HWY_FABRIC_STATUS_DIRECT direct b)
  let b := setFabric HWY_FABRIC_STATUS_COORDINATOR 0 (setFabric HWY_FABRIC_STATUS_TOPOLOGY plan.topology b)
  let b := setFabric HWY_FABRIC_STATUS_ALT 0 (setFabric HWY_FABRIC_STATUS_FAIL_REASON 0 b)
  let b := setFabric HWY_FABRIC_STATUS_PKG me (setFabric HWY_FABRIC_STATUS_FORMED 1 b)
  let b := writeRoutes (fabricTables f plan seq me b) (routeWord plan.topology f seq me)
  let b := writeGroups b (planWords b forming ++ neighbourWords f plan seq me)
  forEach [Hub.n, Hub.s] (fun h b => forEach (List.finRange 2) (fun k b =>
    if linkState b (.hwy h k) = 5 then setHwyReady b h k.val true else b) b) b

/-- The package runs alone with number 0 (R482, R484). -/
def fabricAlone (b : Block) (reason : Nat) : Block :=
  let forming := formingPlan b
  let zero : List Fld := [HWY_FABRIC_STATUS_FORMED, HWY_FABRIC_STATUS_PKG, HWY_FABRIC_STATUS_MEMBERS,
    HWY_FABRIC_STATUS_DIRECT, HWY_FABRIC_STATUS_COORDINATOR, HWY_FABRIC_STATUS_TOPOLOGY, HWY_FABRIC_STATUS_ALT]
  let b := forEach zero (fun x b => setFabric x 0 b) b
  let b := setFabric HWY_FABRIC_STATUS_FAIL_REASON reason b
  let b := { b with pkg := { b.pkg with far := {}, neighbours := {}, memberQuarters := {}, joinNow := [] } }
  let b := writeRoutes b aloneRoute
  writeGroups b (planWords b forming)

/-- A roll call fails (R484). -/
def fabricFails (b : Block) (reason : Nat) : Block :=
  let b := fabricAlone b reason
  let b := forEach [Hub.n, Hub.s] (fun h b => forEach (List.finRange 2) (fun k b => linkTakeDown b (.hwy h k)) b) b
  raise b (agTh .n) 0 11 4 sevInfo 0 (place (HWY_FABRIC_STATUS .n) 43 8) (rd b (HWY_FABRIC_STATUS .n))

/-- FABRIC sets at both hubs, and a boot goes on to form the partitions. -/
def rollEnds (b : Block) : Block :=
  let b := setThMilepost (setThMilepost b .n 8 true) .s 8 true
  if b.pkg.rolling = 1 then formAll b else { b with pkg := { b.pkg with rolling := 0 } }

/-- Are the partitions HELD that a plan applied now needs held: those joined in the old or the new plan, and every one where
the number changes (R505)? -/
def heldForPlan (b : Block) (old new : FabricPlan) (number : Nat) : Bool :=
  let joined := (joinOf old (pkgNo b)).toList ++ (joinOf new number).toList
  (List.range 4).all fun p =>
    let idle := partState b .n p ≤ 1 ∧ partState b .s p ≤ 1
    decide idle || (!joined.contains p && number == pkgNo b)

/-- The code of TH_FABRIC_PLAN_SET, TH_FABRIC_ROUTE_SELECT and TH_WAVE_RUN. -/
abbrev codePlanSet : Nat := 0x601
abbrev codeRouteSelect : Nat := 0x602
abbrev codeWaveRun : Nat := 0x603

/-- The outcome of a roll call (R483, R484, R505). -/
def rollOutcome (b : Block) (f : RollCall) : Block :=
  let plan := b.pkg.fabricPlan
  let applied := b.pkg.rolling == 2
  let number := if plan.topology = 0 then 0 else memberNumber f 0
  if applied && !f.timedOut && !(f.heldOk && heldForPlan b b.pkg.fabricOld plan number) then
    replyAll { b with pkg := { b.pkg with fabricPlan := b.pkg.fabricOld, rolling := 0 } } codePlanSet thBusy 0 []
  else if plan.topology = 0 ∧ f.timedOut = false then replyAll (rollEnds (fabricAlone b 0)) codePlanSet thOk 0 []
  else match rollFault b f with
  | .inl r => replyAll (rollEnds (fabricFails b r)) codePlanSet thRefused r []
  | .inr seq => replyAll (rollEnds (fabricForms b f seq)) codePlanSet thOk 0 []

/-- ROLL_CALL (R483): a roll call under way ends with what it has found. -/
def execRollCall (found : RollCall) (s : State) : Host.Outcome State Fault Refusal :=
  nextBlk s (if s.blk.pkg.rolling = 0 then s.blk else rollOutcome s.blk found)

/-- ROLL_CALL_TIMEOUT (R484). -/
def execRollCallTimeout (s : State) : Host.Outcome State Fault Refusal :=
  nextBlk s (if s.blk.pkg.rolling = 0 then s.blk
    else replyAll (rollEnds (fabricFails s.blk 1)) codePlanSet thRefused 1 [])

/-! ## TH_FABRIC_PLAN_SET (R505) -/

/-- JOIN bytes of a request. -/
def joinBytes (c : Call) : List Nat := (List.range 8).map fun p => c.u8 (8 + p)

def planSetFields (c : Call) : Bool :=
  let ok (p : Nat) : Bool :=
    let j := (joinBytes c).getD p 0
    (decide (j < 4) && decide (p < c.u8 3)) || j == 0xFF
  c.u8 0 == 1 && decide (c.u8 1 < 2) && c.u32 4 == 0 && membersOk (c.u8 2) (c.u8 3) && (List.range 8).all ok

def planOf (c : Call) : FabricPlan := { topology := c.u8 2, members := c.u8 3, join := joinBytes c }

def fabricPlanCard : Card :=
  { code := codePlanSet, len := 16, fields := planSetFields
    hubs := fun _ c => if c.u8 1 = 1 then [.n, .s] else [] }

def fabricPlanCheck (b : Block) (c : Call) : Option (Nat × Nat) :=
  if c.u8 1 = 1 ∧ (b.pkg.rolling ≠ 0 ∨ heldForPlan b b.pkg.fabricPlan (planOf c) (pkgNo b) = false) then some (thBusy, 0)
  else none

/-- Store the plan; with APPLY_NOW start every highway end, and a roll call. -/
def fabricPlanAct (b : Block) (c : Call) : Block :=
  let old := b.pkg.fabricPlan
  let b := { b with pkg := { b.pkg with fabricPlan := planOf c } }
  if c.u8 1 = 0 then reply (markChanged b c.m) c.m thOk 0 0 []
  else
    let b := { b with pkg := { b.pkg with fabricOld := old, rolling := 2 } }
    let b := forEach [Hub.n, Hub.s] (fun h b => forEach (List.finRange 2) (fun k b => linkStart b (.hwy h k)) b) b
    await b c.m 0 0

def execThFabricPlanSet (page : Fin 20) (s : State) : Host.Outcome State Fault Refusal :=
  nextBlk s (runCard s.blk page.val fabricPlanCard fabricPlanCheck fabricPlanAct)

/-! ## Route alternatives (R487) -/

def routeSelectCard : Card :=
  { code := codeRouteSelect, len := 4, fields := fun c => decide (c.u8 0 < 2) && c.u32 0 / 256 == 0
    hubs := fun _ _ => [.n, .s] }

def routeSelectCheck (b : Block) (_ : Call) : Option (Nat × Nat) :=
  if fon b (HWY_FABRIC_STATUS .n) HWY_FABRIC_STATUS_FORMED = false then some (thNotReady, 0) else none

def routeSelectAct (b : Block) (c : Call) : Block :=
  if fget b (HWY_FABRIC_STATUS .n) HWY_FABRIC_STATUS_ALT = c.u8 0 then reply b c.m thOk 0 0 []
  else await { b with pkg := { b.pkg with draining := some (c.u8 0) } } c.m 0 0

def execThFabricRouteSelect (page : Fin 20) (s : State) : Host.Outcome State Fault Refusal :=
  nextBlk s (runCard s.blk page.val routeSelectCard routeSelectCheck routeSelectAct)

/-- Does a message pass through this package on its way between two others? -/
def inTransit (b : Block) (m : Hdr) : Bool := nodePkg (hSrc m) != pkgNo b && nodePkg (hDst m) != pkgNo b

/-- Is every highway replay buffer and transit buffer of this package empty (R487 step 2)? -/
def routeDrained (b : Block) : Bool :=
  let queued (e : LinkId) : List Msg := (List.range 6).flatMap fun c => (getLink b e).txq.get [] c ++ (getLink b e).rxq.get [] c
  linkEnds.all fun e => !((queued e).any fun m => inTransit b m.hdr) &&
    match e with
    | .hwy _ _ => (getLink b e).replay.isEmpty && (getLink b e).txSlots.isEmpty
    | _ => true

/-- Take the waiting messages of a highway end and route them again. -/
def rerouteEnd (h : Hub) (k : Fin 2) (b : Block) : Block :=
  let e : LinkId := .hwy h k
  let ms := (List.range 6).flatMap fun c => (getLink b e).txq.get [] c
  forEach ms (fun m b => hubPut b h m) (updLink b e fun l => { l with txq := {} })

/-- ROUTE_DRAIN_DONE: every hub switches ALT and releases local traffic. -/
def routeSwitch (b : Block) (alt : Nat) : Block :=
  let b := setFabric HWY_FABRIC_STATUS_ALT alt { b with pkg := { b.pkg with draining := none } }
  let b := forEach [Hub.n, Hub.s] (fun h b => forEach (List.finRange 2) (fun k b => rerouteEnd h k b) b) b
  replyAll b codeRouteSelect thOk 0 []

def execRouteDrainDone (s : State) : Host.Outcome State Fault Refusal :=
  nextBlk s (match s.blk.pkg.draining with
    | none => s.blk
    | some alt => if routeDrained s.blk then routeSwitch s.blk alt else s.blk)

/-- ROUTE_DRAIN_TIMEOUT: the old alternative stays. -/
def execRouteDrainTimeout (s : State) : Host.Outcome State Fault Refusal :=
  nextBlk s (match s.blk.pkg.draining with
    | none => s.blk
    | some _ => replyAll { s.blk with pkg := { s.blk.pkg with draining := none } } codeRouteSelect thRefused 1 [])

/-! ## Waymark waves (R498 to R504) -/

/-- Agent that a link end belongs to: a hub, 16 or 17, or a die. -/
def endOwner : LinkId → Nat
  | .hub h _ => agHome h
  | .hwy h _ => agHome h
  | .die k => k.val

/-- Is a link end in the scope of the wave? An OFF end is not. -/
def inWave (b : Block) (e : LinkId) : Bool :=
  linkState b e != 0 && match e with
    | .hwy _ _ => b.wave.fabric
    | _ => true

/-- ARG of the wave's Waymarks (R501). -/
def waveArg (w : Wave) : Nat := place w.number 87 72 + place (b2n w.fabric) 71 71 + place w.origin 70 68

/-- The Waymark that an end owes. -/
def owedWaymark (b : Block) (e : LinkId) : Hdr :=
  mkMgt opWaymark false (getLink b e).partnerNode (nodeId (pkgNo b) (endAgent e)) 0 (waveArg b.wave)

/-- Rings of a hub, always-on ones included. -/
def hubRings (h : Hub) : List RingId := (List.finRange 64).map (RingId.ring h) ++ (List.finRange 2).map (RingId.ao h)

/-- Does a ring's count balance (R521)? -/
def ringBalances (b : Block) (r : RingId) : Bool :=
  rd b (CNT_EVR r 0) == (rd b (CNT_EVR r 1) + rd b (CNT_EVR r 2) + (getRing b (ringKey r)).held.length) % 2 ^ 32

/-- Tracker and event checks that fail at a hub (R500, R503). -/
def hubFaults (b : Block) (h : Hub) : Nat :=
  let slice (s : Nat) : Bool :=
    let sl := getSlice b h s
    (sl.trackers.length + sl.completed) % 2 ^ 32 == sl.nextId % 2 ^ 32
  let io := getIo b h
  let rings := (hubRings h).filter fun r => match r with
    | .ao _ _ => true
    | _ => fon b (HUB_EVR_STATUS r) HUB_EVR_STATUS_CREATED
  ((List.range 32).filter fun s => !slice s).length +
    b2n ((io.proxy.length + io.proxyDone) % 2 ^ 32 != io.proxyIn % 2 ^ 32) + (rings.filter fun r => !ringBalances b r).length

/-- An agent learns of the wave: each of its ends owes a Waymark, and a hub records its agents (R498, R500). -/
def waveLearn (b : Block) (a : Nat) : Block :=
  if b.wave.known.contains a then b
  else
    let b := { b with wave := { b.wave with known := b.wave.known ++ [a] } }
    let b := forEach (linkEnds.filter fun e => endOwner e == a && inWave b e) (fun e b =>
      updLink b e fun l => { l with way := some (owedWaymark b e) }) b
    if a < 16 then b
    else
      let h := hubOf (a % 2)
      let r := HWY_WAVE_STATUS h
      let b := { b with wave := { b.wave with trackFaults := b.wave.trackFaults.set 0 h.idx (hubFaults b h) } }
      fset (fset b r HWY_WAVE_STATUS_STATE 1) r HWY_WAVE_STATUS_WAVE b.wave.number

/-- What a wave finds of one direction: not reached, a new epoch, or the failed checks, each with its number (1 flight, 2
conservation, 3 range, 4 replay), channel and toll type. -/
inductive WaveDir
  | unreached
  | epoch
  | audited (faults : List (Nat × Nat × Nat))
deriving DecidableEq, Repr

/-- Allotment of a toll kind that an end grants. -/
def tollGrant (e : LinkId) (x : Nat × Nat) : Nat := if x.2 = 1 then (grants e x.1).2 else (grants e x.1).1

/-- Check one direction inside the package (R503). -/
def auditPair (b : Block) (s d : LinkId) : WaveDir :=
  let ws := b.wave.ends.get {} (linkKey s)
  let wd := b.wave.ends.get {} (linkKey d)
  if ws.sent = false ∨ wd.got = false then .unreached
  else if wd.argEpoch ≠ wd.rxEpoch then .epoch
  else
    let kind (i : Nat) : List (Nat × Nat × Nat) :=
      let x := tollKinds.getD i (0, 0)
      let a := tollGrant d x
      let held := ws.held.getD i 0
      let inD := wd.occ.getD i 0 + wd.pend.getD i 0
      let back := (wd.retSent.getD i 0 + 65536 - ws.returned.getD i 0 % 65536) % 65536
      (if wd.stored.getD i 0 % 65536 = ws.spent.getD i 0 % 65536 then [] else [(1, x.1, x.2)]) ++
        (if a = held + inD + back then [] else [(2, x.1, x.2)]) ++
        (if held ≤ a ∧ inD ≤ a then [] else [(3, x.1, x.2)])
    let window := (ws.nextFsn + 4096 - ws.oldest) % 4096
    let rep := if ws.replayOcc = window ∧ ws.replayOcc ≤ 512 then [] else [(4, 0, 0)]
    .audited (((List.range tollKinds.length).flatMap kind) ++ rep)

/-- Check the sending direction of an end whose partner is outside the package: the range and, on a highway, the replay. -/
def auditOut (b : Block) (e : LinkId) : WaveDir :=
  let w := b.wave.ends.get {} (linkKey e)
  if w.sent = false then .unreached
  else
    let kind (i : Nat) : List (Nat × Nat × Nat) :=
      let x := tollKinds.getD i (0, 0)
      let g := partnerGrants b e x.1
      if w.held.getD i 0 ≤ (if x.2 = 1 then g.2 else g.1) then [] else [(3, x.1, x.2)]
    let window := (w.nextFsn + 4096 - w.oldest) % 4096
    let rep := if !onHighway e || (w.replayOcc == window && decide (w.replayOcc ≤ 512)) then [] else [(4, 0, 0)]
    .audited (((List.range tollKinds.length).flatMap kind) ++ rep)

/-- Check the receiving direction of such an end: the range. -/
def auditIn (b : Block) (e : LinkId) : WaveDir :=
  let w := b.wave.ends.get {} (linkKey e)
  if w.got = false then .unreached
  else if w.argEpoch ≠ w.rxEpoch then .epoch
  else
    let kind (i : Nat) : List (Nat × Nat × Nat) :=
      let x := tollKinds.getD i (0, 0)
      if w.occ.getD i 0 + w.pend.getD i 0 ≤ tollGrant e x then [] else [(3, x.1, x.2)]
    .audited ((List.range tollKinds.length).flatMap kind)

/-- The directions of a wave, each with the end at which it is reported, and what is found. -/
def waveDirs (b : Block) : List (LinkId × WaveDir) :=
  (linkEnds.filter (inWave b)).flatMap fun e =>
    match partner e with
    | some p => [(e, auditPair b p e)]
    | none => [(e, auditOut b e), (e, auditIn b e)]

/-- Has every end of the scope recorded? -/
def waveFull (b : Block) : Bool :=
  (linkEnds.filter (inWave b)).all fun e =>
    let w := b.wave.ends.get {} (linkKey e)
    w.sent && w.got

/-- Faults of a direction. -/
def dirFaults : WaveDir → List (Nat × Nat × Nat)
  | .audited fs => fs
  | _ => []

/-- Name of a failed check in an event record: end, check, channel and toll type. -/
def faultName (e : LinkId) (f : Nat × Nat × Nat) : Nat :=
  place (linkKey e) 23 16 + place f.1 11 8 + place f.2.1 6 4 + place f.2.2 0 0

/-- One hub's result of a wave (HWY_WAVE_STATUS, R504). -/
def waveHub (dirs : List (LinkId × WaveDir)) (h : Hub) (b : Block) : Block :=
  let r := HWY_WAVE_STATUS h
  let mine := dirs.filter fun d => endHub d.1 == h
  let faults := mine.flatMap fun d => (dirFaults d.2).map fun f => faultName d.1 f
  let track := b.wave.trackFaults.get 0 h.idx
  let names := faults ++ List.replicate track (place 5 11 8)
  let b := forEach names (fun n b => setStatus b (HUB_ERR_STATUS h) 3 n) b
  let whole := mine.all fun d => match d.2 with
    | .audited _ => true
    | _ => false
  let result := if names.isEmpty = false then 2 else if whole then 1 else 3
  let b := fset (fset b r HWY_WAVE_STATUS_STATE 2) r HWY_WAVE_STATUS_RESULT result
  let b := fset (fset b r HWY_WAVE_STATUS_LEDGER_FAULTS names.length) r HWY_WAVE_STATUS_DIGEST_MISMATCHES 0
  let b := fset b r HWY_WAVE_STATUS_WAVE b.wave.number
  raise b (agTh h) 3 11 4 sevInfo 0 (place r 43 8) (rd b r)

/-- The checks of a wave are made (R503): the results at both hubs, and the answer to its command. -/
def waveEnds (b : Block) : Block :=
  let dirs := waveDirs b
  let count (p : WaveDir → Bool) : Nat := (dirs.filter fun d => p d.2).length
  let audited := count fun d => match d with
    | .audited _ => true
    | _ => false
  let ledger := (dirs.map fun d => (dirFaults d.2).length).foldl (· + ·) 0
  let track := b.wave.trackFaults.get 0 0 + b.wave.trackFaults.get 0 1
  let pay := natToBytes 2 b.wave.number ++ natToBytes 2 audited ++ natToBytes 2 ledger ++ natToBytes 2 track ++
    natToBytes 2 0 ++ natToBytes 2 (count (· == .epoch)) ++ natToBytes 2 (count (· == .unreached)) ++ natToBytes 2 0 ++
    natToBytes 8 b.wave.start.toNat ++ natToBytes 8 0
  let b := waveHub dirs .s (waveHub dirs .n b)
  let b := forEach linkEnds (fun e b => if (getLink b e).way.isSome then updLink b e fun l => { l with way := none } else b) b
  let page := b.wave.page
  let b := { b with wave := { b.wave with running := false, page := none, known := [], ends := {}, trackFaults := {} } }
  match page with
  | some m => if (getMbx b m).waiting && pageCode b m == codeWaveRun then reply b m thOk 0 0 pay else b
  | none => b

/-- End the wave once every end of its scope has recorded. -/
def waveTry (b : Block) : Block := if b.wave.running && waveFull b then waveEnds b else b

/-- Remove the oldest Waymark in an end's receive buffer, and free its toll (R499). -/
def takeWaymark (b : Block) (e : LinkId) : Option (Hdr × Block) :=
  let l := getLink b e
  let q := l.rxq.get [] vcMgt
  let isWay (m : Msg) : Bool := hOp m.hdr == opWaymark
  match takeFirst isWay q with
  | none => none
  | some (m, rest) =>
    let old := l.rxOld.get 0 vcMgt
    let early := decide ((q.takeWhile fun m => !isWay m).length < old)
    let b := updLink b e fun l => { l with
      rxq := l.rxq.set [] vcMgt rest, rxOld := l.rxOld.set 0 vcMgt (if early then old - 1 else old) }
    some (m.hdr, if early then b else freeTolls b e vcMgt false)

/-- WAYMARK: a link end consumes a Waymark; its agent learns of the wave (R498 to R500). -/
def waymark (b : Block) (e : LinkId) : Block :=
  match takeWaymark b e with
  | none => b
  | some (m, b) => waveTry (if ofWave b m then waveLearn b (endOwner e) else b)

def execWaymark (link : LinkId) (s : State) : Host.Outcome State Fault Refusal := nextBlk s (waymark s.blk link)

/-- WAVE_LIMIT_EXPIRY (R503). -/
def execWaveLimitExpiry (s : State) : Host.Outcome State Fault Refusal :=
  nextBlk s (if s.blk.wave.running then waveEnds s.blk else s.blk)

/-! ## TH_WAVE_RUN -/

def waveRunCard : Card :=
  { code := codeWaveRun, len := 4, fields := fun c => decide (c.u8 0 < 2) && c.u32 0 / 256 == 0
    hubs := fun _ _ => [.n, .s] }

def waveRunCheck (b : Block) (c : Call) : Option (Nat × Nat) :=
  if c.u8 0 = 1 ∧ fon b (HWY_FABRIC_STATUS .n) HWY_FABRIC_STATUS_FORMED = false then some (thNotReady, 0)
  else if b.wave.running then some (thBusy, 0)
  else none

/-- Start a wave at the two Tollhouses (R498). -/
def waveRunAct (b : Block) (c : Call) : Block :=
  let b := { b with wave := { running := true, number := (b.wave.number + 1) % 65536, fabric := c.u8 0 == 1, origin := pkgNo b
                              start := timeAt b (agTh c.server), page := some c.m } }
  waveLearn (waveLearn (await b c.m 0 0) (agHome .n)) (agHome .s)

def execThWaveRun (page : Fin 20) (s : State) : Host.Outcome State Fault Refusal :=
  nextBlk s (runCard s.blk page.val waveRunCard waveRunCheck waveRunAct)

end Sys2Proof.Machine
end

