-- ==== Sys2Proof/Machine/View.lean ====
section
/-! DEFINITION. What a read of a register answers: its stored value, with the read-only fields that report the occupancy of a
structure of the block (R118, R195, R222, R247, R294, R409, R444, R449, R476). -/

namespace Sys2Proof.Machine

/-- Give a field of a word a value. -/
def putFld (v : Nat) (f : Fld) (x : Nat) : Nat := putBits v f.hi f.lo x

/-- Replay-buffer occupancy in a link's epoch register. -/
def epochView (b : Block) (e : LinkId) (v : Nat) : Nat := putFld v LINK_EPOCH_REPLAY_OCC (getLink b e).replay.length

/-- Valid snoop-filter entries and running back-invalidations of a slice. -/
def sfView (b : Block) (h : Hub) (s v : Nat) : Nat :=
  let sl := getSlice b h s
  let v := putFld v HUB_SLICE_SF_STAT_BACKINV_ACTIVE (sl.trackers.filter fun t => t.kind == .backInv).length
  putFld v HUB_SLICE_SF_STAT_VALID_ENTRIES (sl.filter.cells.filter fun c => c.2.valid).length

/-- Trackers of a slice in use, and those that wait. -/
def jctView (b : Block) (h : Hub) (s v : Nat) : Nat :=
  let sl := getSlice b h s
  let v := putFld v HUB_SLICE_JCT_STAT_TRACKERS_ACTIVE sl.trackers.length
  putFld v HUB_SLICE_JCT_STAT_WAITING (sl.trackers.filter fun t => !t.active || t.needWay || t.handover).length

/-- Valid and dirty lines of a slice's system cache. -/
def scView (b : Block) (h : Hub) (s v : Nat) : Nat :=
  let sl := getSlice b h s
  let v := putFld v HUB_SLICE_SC_STAT_DIRTY_LINES (sl.sc.cells.filter fun c => c.2.valid && c.2.dirty).length
  putFld v HUB_SLICE_SC_STAT_VALID_LINES (sl.sc.cells.filter fun c => c.2.valid).length

/-- Channels of an engine, and its tags in use. -/
def engView (b : Block) (h : Hub) (e v : Nat) : Nat :=
  let v := putFld v DM_ENG_STATUS_CHANNELS
    ((getMover b h).chans.cells.filter fun c => c.2.live && c.2.engine == e).length
  putFld v DM_ENG_STATUS_TAGS (engineTags b h e).length

/-- The register at a relative offset of a hub's block, from its stored value. -/
def hubView (b : Block) (h : Hub) (rel v : Nat) : Nat :=
  if 0x1_0000 ≤ rel ∧ rel < 0x1_0800 ∧ rel % 0x100 = 0x18 then epochView b (.hub h (Fin.ofNat 8 ((rel - 0x1_0000) / 0x100))) v
  else if 0x5_0000 ≤ rel ∧ rel < 0x5_0200 ∧ rel % 0x100 = 0x18 then epochView b (.hwy h (Fin.ofNat 2 ((rel - 0x5_0000) / 0x100))) v
  else if rel = 0x418 then putFld v SPUR_VIOL_STATUS_ORPHANS (getSpur b h).orphans.length
  else if rel = 0x800 then putFld v HUB_PWR_CTRL_PKG_CEILING b.power.pkgCeil.deepest
  else if 0x2_0000 ≤ rel ∧ rel < 0x2_2000 then
    let s := (rel - 0x2_0000) / 0x100
    match rel % 0x100 with
    | 0x00 => sfView b h s v
    | 0x10 => jctView b h s v
    | 0x20 => scView b h s v
    | _ => v
  else if 0x4_0000 ≤ rel ∧ rel < 0x4_1000 ∧ rel % 0x100 = 0 then engView b h ((rel - 0x4_0000) / 0x100) v
  else if rel = 0x49_0000 then
    putFld (putFld v EP_STATUS_TAGS_IN_USE (busTags b h).length) EP_STATUS_ENDPOINT (b2n (epMode b h))
  else if 0x200_0000 ≤ rel ∧ rel < 0x280_0000 ∧ rel % 0x1000 = 0x10 then
    putFld v DM_CH_STATUS_DIRTY_LOG (b2n (getChanDm b h ((rel - 0x200_0000) / 0x1000)).log.isSome)
  else v

/-- What a read of the register at an offset answers. -/
def regView (b : Block) (off : Nat) : Nat :=
  let v := rd b off
  if off < 0x2000_0000 then hubView b (hubOf (off / 0x1000_0000)) (off % 0x1000_0000) v
  else if off < 0x20C0_0000 ∧ off % 0x10_0000 = 0x418 then
    epochView b (.die (Fin.ofNat 12 ((off - 0x2000_0000) / 0x10_0000))) v
  else v

end Sys2Proof.Machine
end

