-- ==== Sys2Proof/Machine/ThGeneral.lean ====
section
/-! DEFINITION. The general commands of a Tollhouse (R65, R71, R553, R554) and the commands of the links (R122 to R124) and of
the system cache (R288, R289, R292). -/

namespace Sys2Proof.Machine

/-- A check that passes where a condition holds, and otherwise answers a status. -/
def need (ok : Bool) (status : Nat) (next : Option (Nat × Nat)) : Option (Nat × Nat) := if ok then next else some (status, 0)

/-- May a caller name a partition: a partition caller only its own? -/
def ownPart (c : Call) (p : Nat) : Bool :=
  match c.part with
  | some q => q == p
  | none => true

/-- Pages whose command of one of some codes acts, other than `m`. -/
def actingPages (b : Block) (m : Nat) (codes : List Nat) : List Nat :=
  (List.range 20).filter fun n =>
    n != m && (getMbx b n).admitted && mbxBusy b n && (getMbx b n).result.isNone && codes.contains (pageCode b n)

/-! ## TH_IDENTITY_GET -/

def identityCard : Card := { code := 0x001, len := 0, part := true, host := true }

/-- Boot state: 0 slot A, 1 slot B, 2 recovery. -/
def bootState (b : Block) (h : Hub) : Nat :=
  let t := getTh b h
  if t.recovery then 2 else b2n t.slotB

def identityPay (b : Block) (c : Call) : List Byte :=
  natToBytes 4 0x24000 ++ natToBytes 1 0 ++ natToBytes 1 (bootState b c.server) ++ natToBytes 2 Config.variant.toNat ++
    natToBytes 8 Config.serial.toNat ++ natToBytes 2 1 ++ natToBytes 4 (getTh b c.server).build.toNat ++
    natToBytes 1 (pkgNo b) ++ natToBytes 1 (c.part.getD 0xFF) ++ natToBytes 4 Config.fuseVersion.toNat ++ natToBytes 4 0

/-- TH_IDENTITY_GET in recovery, which the ROM serves on page 17 (R49). -/
def identityRecovery (b : Block) (m : Nat) : Block :=
  if m ≠ 17 ∨ mbxBusy b m = false ∨ (getMbx b m).result.isSome = true ∨ pageCode b m ≠ 0x001 ∨ isReplay b m = true then b
  else
    let c := callOf b m
    if c.len ≠ 0 then reply b m 2 0 0 []
    else if c.flags / 4 ≠ 0 then reply b m thBadField 0 0 []
    else reply b m thOk 0 0 (identityPay b c)

def identityGet (b : Block) (m : Nat) : Block :=
  if (getTh b .n).recovery then identityRecovery b m
  else runCard b m identityCard (fun _ _ => none) fun b c => reply b c.m thOk 0 0 (identityPay b c)

def execThIdentityGet (page : Fin 20) (s : State) : Host.Outcome State Fault Refusal := nextBlk s (identityGet s.blk page.val)

/-! ## TH_ECHO_PAYLOAD -/

def echoCard (len : Nat) : Card := { code := 0x002, len := len, part := true, host := true }

def echoPayload (b : Block) (m : Nat) : Block :=
  runCard b m (echoCard (callOf b m).len) (fun _ _ => none) fun b c => reply b c.m thOk 0 0 c.pay

def execThEchoPayload (page : Fin 20) (s : State) : Host.Outcome State Fault Refusal := nextBlk s (echoPayload s.blk page.val)

/-! ## TH_POOL_QUERY (R553) -/

def poolCard : Card :=
  { code := 0x003, len := 4, part := true, fields := fun c => decide (c.u8 0 < 4) && c.u32 0 / 256 == 0 }

/-- Indices of a type on a hub in the pools of a partition's quarters. -/
def partIndices (b : Block) (p ty : Nat) (h : Hub) : List Nat :=
  ((partQuarters b p).filter fun q => quarterHub q == h).flatMap fun q => poolIndices b ty h (q % 2 == 0)

def poolPay (b : Block) (p : Nat) : List Byte :=
  [1, 2, 3, 4, 5].flatMap fun ty => [Hub.n, Hub.s].flatMap fun h =>
    let xs := partIndices b p ty h
    natToBytes 2 xs.length ++ natToBytes 2 (xs.filter (indexFree b ty)).length

def poolCheck (b : Block) (c : Call) : Option (Nat × Nat) :=
  need (ownPart c (c.u8 0)) thDenied <| need (partExists b (c.u8 0)) thBadField none

def execThPoolQuery (page : Fin 20) (s : State) : Host.Outcome State Fault Refusal :=
  nextBlk s (runCard s.blk page.val poolCard poolCheck fun b c => reply b c.m thOk 0 0 (poolPay b (c.u8 0)))

/-! ## TH_HANDLE_QUERY (R554) -/

def handleCard : Card := { code := 0x004, len := 0, part := true, host := true }

/-- Hub of an object, by its type and index (R66). -/
def objHub (ty ix : Nat) : Hub := hubOf (if ty = 1 then ix / 2048 else if ty = 2 ∨ ty = 5 then ix / 64 else ix / 256)

/-- World of an object. -/
def objWorld (b : Block) (ty ix : Nat) : Bool :=
  match ty with
  | 1 => (getChanDm b (objHub 1 ix) (ix % 2048)).secure
  | 2 => (getRing b ix).secure
  | 5 => true
  | _ => false

/-- State of an object. -/
def objState (b : Block) (ty ix : Nat) : Nat :=
  if ty = 1 then chanState b (objHub 1 ix) (ix % 2048)
  else if (b.objs.get {} (objKey ty ix)).destroying then 5 else 1

/-- Agent that holds an object. -/
def objAgent (ty ix : Nat) : Nat :=
  let h := objHub ty ix
  if ty = 1 then agDm h else if ty = 2 ∨ ty = 5 then agHome h else agIo h

def handlePay (b : Block) (c : Call) : List Byte :=
  let ty := bitsOf c.handle 31 28
  let ix := bitsOf c.handle 15 0
  natToBytes 1 (objState b ty ix) ++ natToBytes 1 (b2n (objWorld b ty ix)) ++ natToBytes 2 (myNode b (objAgent ty ix)) ++
    natToBytes 8 (b.objs.get {} (objKey ty ix)).created.toNat ++ natToBytes 4 0

def handleCheck (b : Block) (c : Call) : Option (Nat × Nat) :=
  match handleFault b c none with
  | some st => some (st, 0)
  | none => need (c.world || !objWorld b (bitsOf c.handle 31 28) (bitsOf c.handle 15 0)) thDenied none

def execThHandleQuery (page : Fin 20) (s : State) : Host.Outcome State Fault Refusal :=
  nextBlk s (runCard s.blk page.val handleCard handleCheck fun b c => reply b c.m thOk 0 c.handle (handlePay b c))

/-! ## TH_LINK_STATUS_GET (R122) -/

/-- Hub and link end that bytes 0 and 1 of a payload name. -/
def namedEnd (c : Call) : LinkId := .hub (hubOf (c.u8 0)) (Fin.ofNat 8 (c.u8 1))

def linkStatusCard : Card :=
  { code := 0x801, len := 4, part := true, hubs := fun _ c => [hubOf (c.u8 0)]
    fields := fun c => decide (c.u8 0 < 2) && decide (c.u8 1 < 8) && c.u16 2 == 0 }

/-- May a partition name a hub's link end? -/
def linkOwned (b : Block) (p : Nat) (h : Hub) (l : Nat) : Bool :=
  if l < 6 then diePart b (h.idx * 6 + l) == some p else if l = 6 then sitePart b h == some p else true

def linkStatusCheck (b : Block) (c : Call) : Option (Nat × Nat) :=
  match c.part with
  | some p => need (linkOwned b p (hubOf (c.u8 0)) (c.u8 1)) thDenied none
  | none => none

def linkStatusPay (b : Block) (c : Call) : List Byte :=
  let e := namedEnd c
  natToBytes 8 (rd b (LINK_LANE_TEST e)) ++ natToBytes 4 (rd b (LINK_STATUS e)) ++ natToBytes 4 (regView b (LINK_EPOCH e)) ++
    natToBytes 4 (rd b (LINK_ERR e)) ++ (List.range 9).flatMap (fun i => natToBytes 4 (rd b (CNT_CRC_ERR e + 4 * i))) ++
    natToBytes 8 0

def execThLinkStatusGet (page : Fin 20) (s : State) : Host.Outcome State Fault Refusal :=
  nextBlk s (runCard s.blk page.val linkStatusCard linkStatusCheck fun b c => reply b c.m thOk 0 0 (linkStatusPay b c))

/-! ## TH_LINK_TRAIN (R123, R124) -/

abbrev codeLinkTrain : Nat := 0x802

def linkTrainCard : Card :=
  { code := codeLinkTrain, len := 8, hubs := fun _ c => [hubOf (c.u8 0)]
    fields := fun c => decide (c.u8 0 < 2) && decide (c.u8 1 < 8) && decide (c.u8 2 < 4) && decide (c.u8 3 < 32) && c.u32 4 == 0 }

/-- Does an action act on an end in its state (R119)? -/
def linkActs (b : Block) (e : LinkId) (action : Nat) : Bool :=
  let st := linkState b e
  match action with
  | 0 => st == 0 || st == 7
  | 3 => st != 0 && st != 7
  | _ => st == 5 || st == 6

/-- WIDTH_CAP and SEGMENT of byte 3 may be held (R119). -/
def capValid (c : Call) : Bool :=
  let v := c.u8 3
  !bitOf v 4 || !(v % 4 == 3 || (v % 4 == 1 && decide (2 ≤ v / 4 % 4)))

def linkTrainCheck (b : Block) (c : Call) : Option (Nat × Nat) :=
  let e := namedEnd c
  need (capValid c) thBadField <|
    need (linkActs b e (c.u8 2) &&
      (actingPages b c.m [codeLinkTrain]).all fun n => (getMbx b n).waitA != linkKey e) thBusy none

/-- START, RETRAIN, RESTART or TAKE_DOWN at an end. -/
def linkDo (b : Block) (e : LinkId) (action : Nat) : Block :=
  match action with
  | 0 => linkStart b e
  | 1 => linkRetrain b e true
  | 2 => linkRetrain b e false
  | _ => linkTakeDown b e

def linkTrainAct (b : Block) (c : Call) : Block :=
  let e := namedEnd c
  let v := c.u8 3
  let b := if bitOf v 4 then linkCap b e (v % 4) (v / 4 % 4) else b
  linkDo (await b c.m (linkKey e) (c.u8 2)) e (c.u8 2)

def execThLinkTrain (page : Fin 20) (s : State) : Host.Outcome State Fault Refusal :=
  nextBlk s (runCard s.blk page.val linkTrainCard linkTrainCheck linkTrainAct)

/-- Status and epoch of a link end, as its command returns them. -/
def linkTrainPay (b : Block) (e : LinkId) : List Byte := natToBytes 4 (rd b (LINK_STATUS e)) ++ natToBytes 4 (regView b (LINK_EPOCH e))

/-- COMMAND_COMPLETE: the end has reached ACTIVE or DOWN. -/
def linkTrainTry (b : Block) (m : Nat) : Block :=
  let c := callOf b m
  let e := namedEnd c
  let st := linkState b e
  let pay := linkTrainPay b e
  if st = 7 ∧ c.u8 2 ≠ 3 then
    reply b m thRefused (fget b (LINK_STATUS e) LINK_STATUS_LAST_TRAIN_FAIL) 0 pay
  else if st = 7 ∨ (st = 5 ∧ c.u8 2 ≠ 3) then reply b m thOk 0 0 pay
  else b

/-! ## TH_SC_LOCK (R288, R289) -/

abbrev codeScLock : Nat := 0xA01
abbrev codeScMaint : Nat := 0xA02

/-- Slices of the quarters of a partition: hub and slice. -/
def partSlices (b : Block) (p : Nat) : List (Hub × Nat) :=
  (partQuarters b p).flatMap fun q => (List.range 16).map fun s => (quarterHub q, q % 2 * 16 + s)

/-- Does a range touch a secure world region of a partition (R289)? -/
def touchesRegion (b : Block) (p lo size : Nat) : Bool :=
  [Hub.n, Hub.s].any fun h => (List.range 64).any fun n =>
    let r := rd b (HUB_WORLD_REGION_BASE h n)
    let base := bitsOf r 51 12 * 4096
    bitOf r 63 && bitOf (bitsOf r 59 56) p &&
      decide (base < lo + size ∧ lo < base + fget b (HUB_WORLD_REGION_SIZE h n) HUB_WORLD_REGION_SIZE_PAGES * 4096)

/-- Does a range lie within one home group of a partition in this package? -/
def inOneGroup (b : Block) (p lo size : Nat) : Bool :=
  match groupOf b .n p lo with
  | none => false
  | some g =>
    let r := rd b (HUB_HOME_GROUP .n g)
    bitsOf r 58 56 == pkgNo b && decide (lo + size ≤ (bitsOf r 51 30 + bitsOf r 15 0) * 2 ^ 30)

def scLockCard : Card :=
  { code := codeScLock, len := 24, part := true, bmc := false, hubs := fun b c => partHubs b (c.u8 0)
    fields := fun c => decide (c.u8 0 < 4) && decide (c.u8 1 ≤ 8) && decide (c.u8 2 < 2) && c.u8 3 == 0 && c.u32 4 == 0 &&
      c.u64 8 % 4096 == 0 && c.u64 16 % 4096 == 0 && decide (c.u64 16 ≤ 2 ^ 30) }

/-- Does another page run a system-cache command for a partition? -/
def scBusy (b : Block) (c : Call) : Bool :=
  (actingPages b c.m [codeScLock, codeScMaint]).any fun n => (callOf b n).u8 0 == c.u8 0

def scLockCheck (b : Block) (c : Call) : Option (Nat × Nat) :=
  let p := c.u8 0
  let pre := c.u8 2 == 1
  let size := c.u64 16
  need (ownPart c p) thDenied <|
    need (if pre then c.u8 1 != 0 && size != 0 && inOneGroup b p (c.u64 8) size else size == 0) thBadField <|
      need (c.world || !pre || !touchesRegion b p (c.u64 8) size) thDenied <|
        need (!scBusy b c) thBusy none

/-- Locked ways that the slices of a quarter show. -/
def setScLock (q n : Nat) (b : Block) : Block :=
  fset b (HUB_SC_LOCK (quarterHub q)) (if q % 2 = 0 then HUB_SC_LOCK_WAYS_LO else HUB_SC_LOCK_WAYS_HI) n

/-- Is way `w` locked now and not with `old` locked ways? -/
def newlyLocked (old n w : Nat) : Bool := decide (16 - n ≤ w ∧ w < 16 - old)

/-- Evict the lines of the newly locked ways of a slice (R289 step 5). -/
def evictWays (old n : Nat) (x : Hub × Nat) (b : Block) : Block :=
  let keys := ((getSlice b x.1 x.2).sc.cells.map (·.1)).filter fun k => newlyLocked old n (k % 16)
  forEach keys (fun k b => if ((getSlice b x.1 x.2).sc.get {} k).valid then maintLine b x.1 x.2 k 3 20 else b) b

/-- The ways are locked at once, so that nothing enters them; their lines are evicted, and the preload begins when none of the
ways is reserved for an earlier request. -/
def scLockAct (b : Block) (c : Call) : Block :=
  let p := c.u8 0
  let n := c.u8 1
  match partSlices b p with
  | [] => reply (markChanged b c.m) c.m thOk 0 0 (natToBytes 8 0 ++ natToBytes 8 0)
  | x :: _ =>
    let old := scLocked b x.1 x.2
    let b := forEach (partQuarters b p) (fun q b => setScLock q n b) (await b c.m old 0)
    let b := forEach (partSlices b p) (evictWays old n) b
    let size := if c.u8 2 = 1 then c.u64 16 else 0
    updMbx b c.m fun m => { m with cursor := c.u64 8 / 64, limit := (c.u64 8 + size) / 64 }

def execThScLock (page : Fin 20) (s : State) : Host.Outcome State Fault Refusal :=
  nextBlk s (runCard s.blk page.val scLockCard scLockCheck scLockAct)

/-- Trackers that work for a page. -/
def pageTrackers (b : Block) (p m : Nat) (k : TKind) : Bool :=
  (partSlices b p).any fun x => (getSlice b x.1 x.2).trackers.any fun t => t.kind == k && t.page == m

/-- Start the preload of up to `n` further lines, each at a slice with a free tracker. -/
def startPreload (p m : Nat) : Nat → Block → Block
  | 0, b => b
  | n + 1, b =>
    let x := getMbx b m
    if x.limit ≤ x.cursor then b
    else
      let pa := x.cursor * 64
      let h := match decodePa b .n p pa with
        | .group _ _ spot => hubOf spot.hub
        | _ => .n
      match homeSlice b h p pa with
      | none => b
      | some s =>
        if maxTrackers ≤ (getSlice b h s).trackers.length then b
        else
          let b := updMbx b m fun x => { x with cursor := x.cursor + 1 }
          startPreload p m n (queueReq b h s { id := 0, kind := .preload, line := pa / 64, part := p, page := m })

/-- COMMAND_COMPLETE: the evictions, then 64 further lines; the command ends when all lines are processed. -/
def scLockTry (b : Block) (m : Nat) : Block :=
  let c := callOf b m
  let p := c.u8 0
  let old := (getMbx b m).waitA
  let busy := (partSlices b p).any fun x => (getSlice b x.1 x.2).sc.cells.any fun k =>
    newlyLocked old (c.u8 1) (k.1 % 16) && k.2.reserved
  let b := if (getMbx b m).waitB = 0 then forEach (partSlices b p) (evictWays old (c.u8 1)) b else b
  if (getMbx b m).waitB = 0 ∧ busy = true then b
  else
    let b := startPreload p m 64 (updMbx b m fun x => { x with waitB := 1 })
    let x := getMbx b m
    if x.cursor < x.limit ∨ pageTrackers b p m .preload = true then b
    else reply b m thOk 0 0 ((x.counts.flatMap (natToBytes 4)) ++ natToBytes 4 0)

/-! ## TH_SC_MAINT (R292) -/

def scMaintCard : Card :=
  { code := codeScMaint, len := 4, part := true, bmc := false, hubs := fun b c => partHubs b (c.u8 0)
    fields := fun c => decide (c.u8 0 < 4) && decide (1 ≤ c.u8 1 ∧ c.u8 1 ≤ 3) && c.u16 2 == 0 }

def scMaintCheck (b : Block) (c : Call) : Option (Nat × Nat) :=
  need (ownPart c (c.u8 0)) thDenied <| need (!scBusy b c) thBusy none

/-- Walk a slice: lines at once, those with a tracker after it completes. -/
def maintWalk (p m op : Nat) (x : Hub × Nat) (b : Block) : Block :=
  let sl := getSlice b x.1 x.2
  forEach (sl.sc.cells.filter fun c => c.2.valid) (fun k b =>
    if sl.trackers.any fun t => t.line == k.2.line then
      queueReq b x.1 x.2 { id := 0, kind := .maint, line := k.2.line, part := p, page := m, op := op }
    else maintLine b x.1 x.2 k.1 op m) b

def scMaintAct (b : Block) (c : Call) : Block :=
  forEach (partSlices b (c.u8 0)) (maintWalk (c.u8 0) c.m (c.u8 1)) (await b c.m 0 0)

def execThScMaint (page : Fin 20) (s : State) : Host.Outcome State Fault Refusal :=
  nextBlk s (runCard s.blk page.val scMaintCard scMaintCheck scMaintAct)

/-- COMMAND_COMPLETE: no line waits for its tracker and every write has been accepted into a write queue. -/
def scMaintTry (b : Block) (m : Nat) : Block :=
  let x := getMbx b m
  if pageTrackers b ((callOf b m).u8 0) m .maint = true ∨ (b.chans.cells.any fun c => c.2.input.any fun r => r.page == m) = true then b
  else reply b m thOk 0 0 (natToBytes 4 (x.counts.getD 0 0) ++ natToBytes 4 (x.counts.getD 1 0))

/-- The lines of a page's command go on without it after a TIMEOUT (R63). -/
def orphanLines (b : Block) (m : Nat) : Block :=
  let drop (t : Tracker) : Tracker := if t.page = m ∧ (t.kind = .preload ∨ t.kind = .maint) then { t with page := 20 } else t
  let slice (sl : Slice) : Slice := { sl with trackers := sl.trackers.map drop }
  let req (r : MemReq) : MemReq := if r.page = m then { r with page := 20 } else r
  let chan (c : Chan) : Chan := { c with input := c.input.map req }
  { b with
    slices := { cells := b.slices.cells.map fun c => (c.1, slice c.2) }
    chans := { cells := b.chans.cells.map fun c => (c.1, chan c.2) } }

end Sys2Proof.Machine
end

