-- ==== Sys2Proof/Machine/ThWorlds.lean ====
section
/-! DEFINITION. The commands of world regions and claims (R318 to R323, R439) and of the memory channels (R354, R359 to R361). -/

namespace Sys2Proof.Machine

/-! ## TH_WORLD_REGION_CREATE and TH_WORLD_REGION_DESTROY (R318 to R320) -/

abbrev codeRegionCreate : Nat := 0x901
abbrev codeRegionDestroy : Nat := 0x902

/-- Partitions of a mask. -/
def maskParts (m : Nat) : List Nat := (List.range 4).filter fun p => bitOf m p

/-- Quarters of a hub, in order, that belong to a partition of a mask. -/
def maskQuarters (b : Block) (h : Hub) (m : Nat) : List Nat :=
  ((List.range 4).filter fun q => quarterHub q == h).filter fun q =>
    match quarterPart b q with
    | some p => bitOf m p
    | none => false

def regionCreateCard : Card :=
  { code := codeRegionCreate, len := 24, bmc := false, hubs := fun _ c => [hubOf (c.u8 0)]
    fields := fun c => decide (c.u8 0 < 2) && decide (c.u8 1 < 16) && c.u16 2 == 0 && c.u32 4 == 0 && c.u64 8 % 4096 == 0 &&
      c.u64 16 % 4096 == 0 && c.u64 16 != 0 }

/-- The index of a new region: from the first quarter whose pool has one (R319). -/
def regionIndex (b : Block) (c : Call) : Option Nat :=
  let h := hubOf (c.u8 0)
  (maskQuarters b h (c.u8 1)).findSome? fun q => drawIndex b 5 (poolIndices b 5 h (q % 2 == 0))

def regionCreateCheck (b : Block) (c : Call) : Option (Nat × Nat) :=
  let m := c.u8 1
  need (m != 0 && (maskParts m).all (partExists b) && !(maskQuarters b (hubOf (c.u8 0)) m).isEmpty &&
      decide (c.u64 8 + c.u64 16 ≤ fabBase)) thBadField <|
    need (regionIndex b c).isSome thNoResource none

/-- Next tracker numbers of a hub's slices: what is active now has a lower number. -/
def trackerMarks (b : Block) (h : Hub) : List Nat := (List.range 32).map fun s => (getSlice b h s).nextId

/-- Have the trackers of a hub that were active at some marks completed (R318)? -/
def marksPassed (b : Block) (h : Hub) (marks : List Nat) : Bool :=
  (List.range 32).all fun s => (getSlice b h s).trackers.all fun t => decide (marks.getD s 0 ≤ t.id)

/-- The command waits for the trackers of a hub (R318); what it will answer is the handle. -/
def awaitHub (b : Block) (m : Nat) (h : Hub) (handle : Nat) : Block :=
  updMbx (await b m h.idx handle) m fun x => { x with counts := trackerMarks b h }

def regionCreateAct (b : Block) (c : Call) : Block :=
  match regionIndex b c with
  | none => reply b c.m thNoResource 0 0 []
  | some ix =>
    let h := hubOf (c.u8 0)
    let part := match maskParts (c.u8 1) with
      | [p] => p
      | _ => 15
    let b := takeIndex b 5 ix part true c.server
    let b := wr b (HUB_WORLD_REGION_SIZE h (ix % 64)) (c.u64 16 / 4096)
    let b := wr b (HUB_WORLD_REGION_BASE h (ix % 64)) (place 1 63 63 + place (c.u8 1) 59 56 + place (c.u64 8 / 4096) 51 12)
    awaitHub b c.m h (handleOf b 5 ix)

def execThWorldRegionCreate (page : Fin 20) (s : State) : Host.Outcome State Fault Refusal :=
  nextBlk s (runCard s.blk page.val regionCreateCard regionCreateCheck regionCreateAct)

/-- COMMAND_COMPLETE. -/
def regionCreateTry (b : Block) (m : Nat) : Block :=
  let x := getMbx b m
  if marksPassed b (hubOf x.waitA) x.counts then reply b m thOk 0 x.waitB [] else b

def regionDestroyCard : Card :=
  { code := codeRegionDestroy, len := 0, bmc := false, handle := some 5
    hubs := fun _ c => [hubOf (bitsOf c.handle 15 0 / 64)] }

def regionDestroyAct (b : Block) (c : Call) : Block :=
  let ix := bitsOf c.handle 15 0
  let h := hubOf (ix / 64)
  let b := wr (wr b (HUB_WORLD_REGION_BASE h (ix % 64)) 0) (HUB_WORLD_REGION_SIZE h (ix % 64)) 0
  awaitHub (retireObj (objKey 5 ix) b) c.m h ix

def execThWorldRegionDestroy (page : Fin 20) (s : State) : Host.Outcome State Fault Refusal :=
  nextBlk s (runCard s.blk page.val regionDestroyCard (fun _ _ => none) regionDestroyAct)

/-- COMMAND_COMPLETE. -/
def regionDestroyTry (b : Block) (m : Nat) : Block :=
  let x := getMbx b m
  if marksPassed b (hubOf x.waitA) x.counts then
    let b := if (b.objs.get {} (objKey 5 x.waitB)).destroying then returnObj (objKey 5 x.waitB) b else b
    reply b m thOk 0 0 []
  else b

/-! ## TH_WORLD_CLAIM (R321, R327, R439) -/

/-- Range of INDEX for a KIND. -/
def claimRange (kind ix : Nat) : Bool :=
  match kind with
  | 0 => decide (ix < 32)
  | 1 => decide (1 ≤ ix ∧ ix < 1024)
  | 2 => decide (ix < 8)
  | 3 => decide (ix < 16)
  | 4 => decide (ix < 16)
  | 5 => ix == 0
  | _ => false

def claimCard : Card :=
  { code := 0x903, len := 8, bmc := false, hubs := fun _ c => [hubOf (c.u8 1)]
    fields := fun c => claimRange (c.u8 0) (c.u16 2) && decide (c.u8 1 < 2) && decide (c.u8 4 < 2) && c.u8 5 == 0 && c.u16 6 == 0 }

/-- The normal-world channels of a claimed engine that are at a stretch boundary enter in error (R439); the others do when
their stretch ends. -/
def withdrawEngine (b : Block) (h : Hub) (e : Nat) : Block :=
  let mine := (getMover b h).chans.cells.filter fun c => c.2.live && c.2.engine == e && !c.2.secure && c.2.prog.st.isNone &&
    c.2.parts.isEmpty
  forEach (mine.map (·.1)) (fun n b => if chanState b h n = 1 ∨ chanState b h n = 2 then failChan b h n 0x1B else b) b

def claimAct (b : Block) (c : Call) : Block :=
  let h := hubOf (c.u8 1)
  let ix := c.u16 2
  let v := c.u8 4 == 1
  let b := match c.u8 0 with
    | 0 => wr b (HUB_PIN_WORLD h) (putBits (rd b (HUB_PIN_WORLD h)) ix ix (b2n v))
    | 1 => updIo b h fun i => { i with aplicSecure := i.aplicSecure.set false ix v }
    | 2 => updChan b (8 * h.idx + ix) fun ch => { ch with claimed := v }
    | 3 =>
      let b := fset b (DM_ENG_STATUS h ix) DM_ENG_STATUS_CLAIMED (b2n v)
      if v then withdrawEngine b h ix else b
    | 4 => updPort b h ix fun p => { p with claimed := v }
    | _ => updSpur b h fun s => { s with claimed := v }
  reply (markChanged b c.m) c.m thOk 0 0 []

def execThWorldClaim (page : Fin 20) (s : State) : Host.Outcome State Fault Refusal :=
  nextBlk s (runCard s.blk page.val claimCard (fun _ _ => none) claimAct)

/-! ## TH_MC_RETAIN_SET (R354) -/

/-- Word of the home group that byte 1 of a payload names. -/
def namedGroup (b : Block) (c : Call) : Nat := rd b (HUB_HOME_GROUP .n (c.u8 1))

def retainCard : Card :=
  { code := 0x701, len := 4, part := true, bmc := false, fields := fun c => decide (c.u8 0 < 4) && decide (c.u8 1 < 32)
    hubs := fun b c => ((maskChans (bitsOf (namedGroup b c) 55 52)).map fun pc => hubOf (pc / 8)).eraseDups }

def retainCheck (b : Block) (c : Call) : Option (Nat × Nat) :=
  let w := namedGroup b c
  need (ownPart c (c.u8 0)) thDenied <|
    need (bitsOf w 17 16 == c.u8 0 && bitsOf w 15 0 != 0 && bitsOf w 58 56 == pkgNo b &&
      (maskChans (bitsOf w 55 52)).all fun pc => decide (c.u16 2 < 2 ^ mcRanks b (hubOf (pc / 8)) (pc % 8))) thBadField none

def retainAct (b : Block) (c : Call) : Block :=
  let b := forEach (maskChans (bitsOf (namedGroup b c) 55 52)) (fun pc b => updChan b pc fun ch => { ch with retain := c.u16 2 }) b
  reply (markChanged b c.m) c.m thOk 0 0 []

def execThMcRetainSet (page : Fin 20) (s : State) : Host.Outcome State Fault Refusal :=
  nextBlk s (runCard s.blk page.val retainCard retainCheck retainAct)

/-! ## Commands that name a channel (R359) -/

/-- The channel that bytes 0 and 1 of a payload name. -/
def chanHub (c : Call) : Hub := hubOf (c.u8 0)
def chanIx (c : Call) : Nat := c.u8 1
def namedChan (c : Call) : Nat := pkgChan (chanHub c) (chanIx c)

/-- May the caller name the channel: it lies in the partition's quarters, and is not claimed against a normal-world caller? -/
def chanAllowed (b : Block) (c : Call) : Bool :=
  (match c.part with
    | some p => quarterPart b (namedChan c / 4) == some p
    | none => true) && (c.world || !(getChan b (namedChan c)).claimed)

def chanFrozen (b : Block) (c : Call) : Bool := fon b (MC_FREEZE_STATUS (chanHub c) (chanIx c)) MC_FREEZE_STATUS_FROZEN

/-! ## TH_MC_FREEZE_DUMP -/

def dumpCard : Card :=
  { code := 0x702, len := 4, part := true, hubs := fun _ c => [hubOf (c.u8 0)]
    fields := fun c => decide (c.u8 0 < 2) && decide (c.u8 1 < 8) && c.u16 2 == 0 }

/-- `n` words of a list, with zeros beyond its end. -/
def padWords (n : Nat) (ws : List Word) : List Byte := (List.range n).flatMap fun i => natToBytes 8 (ws.getD i 0).toNat

def dumpPay (b : Block) (c : Call) : List Byte :=
  let d := (getChan b (namedChan c)).dump
  natToBytes 8 (rd b (MC_FREEZE_STATUS (chanHub c) (chanIx c))) ++ natToBytes 8 (rd b (MC_FREEZE_ADDR (chanHub c) (chanIx c))) ++
    natToBytes 16 d.syndrome.toNat ++ natToBytes 8 d.time.toNat ++ natToBytes 24 0 ++ padWords 256 d.reads ++ padWords 128 d.writes

def execThMcFreezeDump (page : Fin 20) (s : State) : Host.Outcome State Fault Refusal :=
  nextBlk s (runCard s.blk page.val dumpCard (fun b c => need (chanAllowed b c) thDenied none) fun b c =>
    reply b c.m thOk 0 0 (dumpPay b c))

/-! ## TH_MC_RELEASE (R360) -/

abbrev codeMcRelease : Nat := 0x703
abbrev codeMcRetrain : Nat := 0x704

def releaseCard : Card :=
  { code := codeMcRelease, len := 8, part := true, hubs := fun _ c => [hubOf (c.u8 0)]
    fields := fun c => decide (c.u8 0 < 2) && decide (c.u8 1 < 8) && decide (c.u8 2 < 2) && c.u8 3 == 0 && c.u32 4 == 0 }

/-- Does another page train the channel? -/
def chanTrains (b : Block) (c : Call) : Bool :=
  (actingPages b c.m [codeMcRelease, codeMcRetrain]).any fun n => namedChan (callOf b n) == namedChan c

def releaseCheck (b : Block) (c : Call) : Option (Nat × Nat) :=
  need (chanAllowed b c) thDenied <| need (chanFrozen b c && !chanTrains b c) thBusy none

def releaseAct (b : Block) (c : Call) : Block :=
  updChan (await b c.m 0 0) (namedChan c) fun ch => { ch with selfRefresh := false, training := true }

def execThMcRelease (page : Fin 20) (s : State) : Host.Outcome State Fault Refusal :=
  nextBlk s (runCard s.blk page.val releaseCard releaseCheck releaseAct)

/-- The held writes of a released channel: performed in queue order, or discarded. -/
def performHeld (x : Block × Dram) (pc : Nat) (discard : Bool) : Block × Dram :=
  let ws := (getChan x.1 pc).writes
  let b := updChan x.1 pc fun ch => { ch with writes := [], training := false }
  (b, if discard then x.2 else ws.foldl (fun d e => d.writeLine pc e.req.ma e.req.data e.req.poison) x.2)

/-- COMMAND_COMPLETE: whether training succeeds is free; then the held writes, FROZEN clears, and the milepost sets once no fill
is left to run. -/
def releaseTry (x : Block × Dram) (m : Nat) : Block × Dram :=
  let c := callOf x.1 m
  let pc := namedChan c
  let h := chanHub c
  let i := chanIx c
  if (getMbx x.1 m).waitA = 0 ∧ chanFrozen x.1 c = true then
    let (fate, b) := freeNat x.1
    if fate % 2 = 0 then
      (reply (updChan b pc fun ch => { ch with selfRefresh := true, training := false }) m thRefused 1 0 [], x.2)
    else
      let n := (getChan b pc).writes.length
      let discard := c.u8 2 == 1
      let (b, d) := performHeld (b, x.2) pc discard
      let b := fset b (MC_FREEZE_STATUS h i) MC_FREEZE_STATUS_FROZEN 0
      let b := updMbx b m fun y => { y with waitA := 1, counts := if discard then [0, n, 0] else [n, 0, 0] }
      if (getChan b pc).filling then (b, d)
      else
        let pay := natToBytes 4 (if discard then 0 else n) ++ natToBytes 4 (if discard then n else 0)
        (reply (setChanReady b h i true) m thOk 0 0 pay, d)
  else if chanReady x.1 h i then
    let y := getMbx x.1 m
    (reply x.1 m thOk 0 0 (natToBytes 4 (y.counts.getD 0 0) ++ natToBytes 4 (y.counts.getD 1 0)), x.2)
  else x

/-! ## TH_MC_RETRAIN (R361) -/

def retrainCard : Card :=
  { code := codeMcRetrain, len := 4, part := true, hubs := fun _ c => [hubOf (c.u8 0)]
    fields := fun c => decide (c.u8 0 < 2) && decide (c.u8 1 < 8) && c.u16 2 == 0 }

def retrainCheck (b : Block) (c : Call) : Option (Nat × Nat) :=
  need (chanAllowed b c) thDenied <|
    need (!chanFrozen b c && !chanTrains b c) thBusy <|
      need (chanReady b (chanHub c) (chanIx c)) thNotReady none

def retrainAct (b : Block) (c : Call) : Block :=
  mcCloseAll (updChan (await b c.m 0 0) (namedChan c) fun ch => { ch with training := true }) (chanHub c) (chanIx c)

def execThMcRetrain (page : Fin 20) (s : State) : Host.Outcome State Fault Refusal :=
  nextBlk s (runCard s.blk page.val retrainCard retrainCheck retrainAct)

/-- COMMAND_COMPLETE: whether training succeeds is free; a failure freezes the channel with CAUSE 4. A channel that has frozen
in the meantime does not train. -/
def retrainTry (b : Block) (m : Nat) : Block :=
  let c := callOf b m
  let trains := (getChan b (namedChan c)).training
  let (fate, b) := freeNat (updChan b (namedChan c) fun ch => { ch with training := false })
  if chanFrozen b c then reply b m thRefused 1 0 []
  else if trains = true ∧ fate % 2 = 0 then reply (mcFreeze b (chanHub c) (chanIx c) 4 none 0) m thRefused 1 0 []
  else reply b m thOk 0 0 (natToBytes 4 (rd b (MC_MAINT (chanHub c) (chanIx c))))

end Sys2Proof.Machine
end

