-- ==== Sys2Proof/Machine/ThParts.lean ====
section
/-! DEFINITION. The commands of partitions, resets, clocks and the split (R373, R374, R386 to R390, R397 to R399) and of power
(R419, R420). -/

namespace Sys2Proof.Machine

/-! ## TH_PARTITION_PLAN_SET and TH_PARTITION_PLAN_GET (R374, R386 to R388, R398) -/

/-- Entry of partition `p` in a payload. -/
def payEnt (c : Call) (p : Nat) : PlanEnt :=
  let i := 16 * p + 8
  { qmask := c.u8 i, mode := c.u8 (i + 1), memBase := c.u32 (i + 4), vector := c.u64 (i + 8) }

def payPlan (c : Call) : Plan :=
  { ents := [payEnt c 0, payEnt c 1, payEnt c 2, payEnt c 3], spurN := c.u8 2, spurS := c.u8 3 }

/-- Reserved bits and ranges of an entry. -/
def payEntOk (c : Call) (p : Nat) : Bool :=
  let i := 16 * p + 8
  decide (c.u8 i < 16) && decide (c.u8 (i + 1) < 3) && c.u16 (i + 2) == 0

def planSetCard : Card :=
  { code := 0x101, len := 72, hubs := fun _ c => if c.u8 1 = 1 then [.n, .s] else []
    fields := fun c => c.u8 0 == 1 && decide (c.u8 1 < 2) && decide (c.u8 2 < 64) && decide (c.u8 3 < 64) && c.u32 4 == 0 &&
      (List.range 4).all (payEntOk c) }

def planSetCheck (b : Block) (c : Call) : Option (Nat × Nat) :=
  let p := payPlan c
  need (planValid b p) thBadField <|
    need (c.u8 1 == 0 || (mustBeHeld b p).all fun n => partState b .n n == 1 && partState b .s n == 1) thBusy none

/-- A die of a quarter that belongs to no partition any more is held in reset, its feeder off (R384). -/
def parkDie (k : Nat) (b : Block) : Block :=
  let b := resetDie (setEndMilepost b (dieHub k) (k % 6) false) k 2
  setLinkState (updLink b (hubEnd k) fun _ => {}) (hubEnd k) 0

/-- APPLY_NOW (R388): the changed partitions are formed by steps 6 and 8 of R375 and held. -/
def applyPlan (b : Block) (new : Plan) : Block :=
  let old := b.pkg.running
  let parts := (changedParts old new).filter fun n => (new.ents.getD n {}).qmask != 0
  let all : List Nat := [0, 1, 2, 3]
  let used := planQuarters new all
  let gone := (List.range 12).filter fun k => bitOf (planQuarters old all) (dieQuarter k) && !bitOf used (dieQuarter k)
  let b := forEach gone parkDie b
  let b := startDies b (planQuarters new parts)
  formParts b new parts ([Hub.n, Hub.s].filter fun h => planSite old h != planSite new h)

def planSetAct (b : Block) (c : Call) : Block :=
  let p := payPlan c
  let b := markChanged { b with pkg := { b.pkg with plan := p } } c.m
  reply (if c.u8 1 = 1 then applyPlan b p else b) c.m thOk 0 0 []

def execThPartitionPlanSet (page : Fin 20) (s : State) : Host.Outcome State Fault Refusal :=
  nextBlk s (runCard s.blk page.val planSetCard planSetCheck planSetAct)

def planGetCard : Card := { code := 0x102, len := 0, part := true }

/-- The stored plan in the layout of TH_PARTITION_PLAN_SET, with APPLY_NOW 0. -/
def planBytes (p : Plan) : List Byte :=
  let ent (n : Nat) : List Byte :=
    let e := p.ents.getD n {}
    natToBytes 1 e.qmask ++ natToBytes 1 e.mode ++ natToBytes 2 0 ++ natToBytes 4 e.memBase ++ natToBytes 8 e.vector
  natToBytes 1 1 ++ natToBytes 1 0 ++ natToBytes 1 p.spurN ++ natToBytes 1 p.spurS ++ natToBytes 4 0 ++ ent 0 ++ ent 1 ++ ent 2 ++
    ent 3

def execThPartitionPlanGet (page : Fin 20) (s : State) : Host.Outcome State Fault Refusal :=
  nextBlk s (runCard s.blk page.val planGetCard (fun _ _ => none) fun b c => reply b c.m thOk 0 0 (planBytes b.pkg.plan))

/-! ## TH_RESET (R399): what a request names -/

abbrev codeReset : Nat := 0x103

def rsScope (c : Call) : Nat := c.u8 0
def rsAction (c : Call) : Nat := c.u8 1
def rsTarget (c : Call) : Nat := c.u8 3
def rsCore (c : Call) : Nat := c.u8 4

/-- Is the request a PULSE or HOLD by MODE 1? -/
def rsUnplanned (c : Call) : Bool := c.u8 2 == 1

/-- Hart that scope 4 names. -/
def rsHart (c : Call) : Nat := rsTarget c * 20 + rsCore c

def resetCard : Card :=
  { code := codeReset, len := 16, part := true
    fields := fun c =>
      let mode := if rsScope c = 3 then rsAction c == 2 || decide (c.u8 2 < 2) else c.u8 2 == 0
      let target := match rsScope c with
        | 2 => decide (rsTarget c < 4)
        | 3 => decide (rsTarget c < 14)
        | 4 => decide (rsTarget c < 12 ∧ rsCore c < 20)
        | _ => rsAction c == 0
      decide (rsScope c < 5) && decide (rsAction c < 3) && mode && target && c.u8 5 == 0 && c.u16 6 == 0 }

/-- What a reset covers: harts, and 240 and 241 for the guest sites. -/
def rsCover (b : Block) (c : Call) : List Nat :=
  let guests (p : Nat) : List Nat := ([Hub.n, Hub.s].filter fun h => sitePart b h == some p).map fun h => 240 + h.idx
  match rsScope c with
  | 2 => ((List.range 12).filter fun k => diePart b k == some (rsTarget c)).flatMap dieHarts ++ guests (rsTarget c)
  | 3 => if rsTarget c < 12 then dieHarts (rsTarget c) else [240 + rsTarget c % 2]
  | 4 => [rsHart c]
  | _ => List.range 242

/-- Is a block that a reset covers claimed by the secure world (R321)? -/
def rsClaimed (b : Block) (c : Call) : Bool :=
  match rsScope c with
  | 2 =>
    (partQuarters b (rsTarget c)).any (fun q =>
      (List.range 4).any (fun i => (getChan b (4 * q + i)).claimed) || (List.range 8).any fun i =>
        (getPort b (quarterHub q) (q % 2 * 8 + i)).claimed ||
          fon b (DM_ENG_STATUS (quarterHub q) (q % 2 * 8 + i)) DM_ENG_STATUS_CLAIMED) ||
      [Hub.n, Hub.s].any fun h => sitePart b h == some (rsTarget c) && (getSpur b h).claimed
  | 3 => decide (12 ≤ rsTarget c) && (getSpur b (hubOf (rsTarget c % 2))).claimed
  | _ => false

/-- May the caller name the target? -/
def rsAllowed (b : Block) (c : Call) : Bool :=
  let own := match c.part with
    | none => true
    | some p => match rsScope c with
      | 2 => rsTarget c == p
      | 3 => if rsTarget c < 12 then diePart b (rsTarget c) == some p else sitePart b (hubOf (rsTarget c % 2)) == some p
      | 4 => diePart b (rsTarget c) == some p
      | _ => false
  let guarded := (c.part.isSome && !c.world) || c.bmc
  let secret := (rsCover b c).any (fun i => decide (i < 240) && hartWorld b i) || rsClaimed b c
  own && (decide (rsScope c < 2) || !(guarded && secret))

/-- Is an agent 0 to 13 lost? -/
def rsLost (b : Block) (a : Nat) : Bool := agentLost b (agentHub a) a

/-- Is a core held in reset? -/
def coreIsHeld (b : Block) (i : Nat) : Bool :=
  bitOf (fget b (FCD_RESET_STATUS (hartDie i)) FCD_RESET_STATUS_CORE_HELD) (hartCore i)

/-- Is the target held? A lost die or guest site counts as held. -/
def rsHeld (b : Block) (c : Call) : Bool :=
  match rsScope c with
  | 2 => partState b .n (rsTarget c) == 1 || partState b .s (rsTarget c) == 1
  | 3 =>
    let a := rsTarget c
    rsLost b a || (if a < 12 then (dieHarts a).all (coreIsHeld b) else fon b (SPUR_GUEST_CTRL (hubOf (a % 2))) SPUR_GUEST_CTRL_RESET)
  | 4 => coreIsHeld b (rsHart c)
  | _ => false

/-- Does a target belong to a partition: an existing one, a die of its quarters, its guest site, a core of a die that runs? -/
def rsPresent (b : Block) (c : Call) : Bool :=
  match rsScope c with
  | 2 => partExists b (rsTarget c)
  | 3 => if rsTarget c < 12 then (diePart b (rsTarget c)).isSome else (sitePart b (hubOf (rsTarget c % 2))).isSome
  | 4 => (diePart b (rsTarget c)).isSome && !(getDie b (rsTarget c)).inReset && !rsLost b (rsTarget c)
  | _ => true

/-- Does a reset that still runs overlap this one: of another page, of an agent that is evacuated or held for its 10 µs, of the
package? -/
def rsOverlaps (b : Block) (c : Call) : Bool :=
  let mine := rsCover b c
  let hits (xs : List Nat) : Bool := xs.any mine.contains
  let agent (a : Nat) : Bool :=
    decide (2 ≤ getRun b a ∧ getRun b a ≤ (if a < 12 then 5 else 4)) && hits (rsCover b { c with pay := [3, 0, 0, BitVec.ofNat 8 a] })
  b.pkg.resetDue != 0 || (List.range 14).any agent ||
    (actingPages b c.m [codeReset]).any fun n => hits (rsCover b (callOf b n))

def resetCheck (b : Block) (c : Call) : Option (Nat × Nat) :=
  let planned := rsScope c == 3 && rsAction c != 2 && !rsUnplanned c
  need (rsAllowed b c) thDenied <|
    need (rsPresent b c && !(planned && (decide (12 ≤ rsTarget c) || rsLost b (rsTarget c))) &&
      !(rsAction c == 1 && rsHeld b c) && !(rsAction c == 2 && !rsHeld b c) && !rsOverlaps b c) thBusy none

/-! ## TH_RESET: what it does -/

/-- Stores that the drains of a core have discarded so far (R268, R271). -/
def discarded (b : Block) (i : Nat) : Nat := fget b (FCD_CORE_DRAIN (hartDie i) (hartCore i)) FCD_CORE_DRAIN_DISCARDED

/-- Show the scope of a reset at a die. -/
def markScope (k v : Nat) (b : Block) : Block := fset b (FCD_RESET_STATUS k) FCD_RESET_STATUS_LAST_SCOPE v

/-- Begin a PULSE or HOLD of a compute die (R379, R381). -/
def beginDieReset (b : Block) (c : Call) : Block :=
  let a := rsTarget c
  let hold := b2n (rsAction c == 1)
  let b := { b with pkg := { b.pkg with startPa := b.pkg.startPa.set 0 a (c.u64 8), resetLost := b.pkg.resetLost.set 0 a 0 } }
  if rsUnplanned c then
    let b := freeDie (resetDie (declareLost b a 1) a 3) a
    let st := linkState b (hubEnd a)
    let b := if st = 0 ∨ st = 7 then linkStart b (hubEnd a) else b
    setRun (enrol b a) a (6 + hold)
  else
    let b := updDie b a fun d => { d with evacuating := true, evacLost := 0 }
    msCheckDie (setRun b a (2 + hold)) a

/-- Begin a reset of scope 3. -/
def beginAgentReset (b : Block) (c : Call) : Block :=
  let a := rsTarget c
  let h := hubOf (a % 2)
  if rsAction c = 2 then
    let b := { b with pkg := { b.pkg with startPa := b.pkg.startPa.set 0 a (c.u64 8) } }
    if a < 12 then
      if rsLost b a then setRun (enrol b a) a 6
      else forEach (dieHarts a) (releaseCore (startOf b a (c.u64 8))) b
    else
      let b := if fon b (SPUR_GUEST_CTRL h) SPUR_GUEST_CTRL_RESET then linkStart (guestFree b h) (.hub h 6) else b
      setRun (enrol b a) a 6
  else if a < 12 then beginDieReset b c
  else guestReset { b with pkg := { b.pkg with resetLost := b.pkg.resetLost.set 0 a 0 } } h (4 + b2n (rsAction c == 1))

/-- Let a TH_RESET act: it remembers whether its agent was lost before, and the stores that each core's drains had discarded. -/
def resetAct (b : Block) (c : Call) : Block :=
  let was := b2n (rsScope c == 3 && rsLost b (rsTarget c))
  let b := await b c.m 0 was
  let b := updMbx b c.m fun x => { x with counts := (List.range 240).map (discarded b) }
  match rsScope c with
  | 0 | 1 => reply b c.m thOk 0 0 (natToBytes 8 0)
  | 2 => if rsAction c = 2 then releaseLater b (rsTarget c) else beginPartReset b (rsTarget c)
  | 3 => beginAgentReset b c
  | _ =>
    let i := rsHart c
    if rsAction c = 2 then releaseCore (startOf b (rsTarget c) (c.u64 8)) i b
    else markScope (rsTarget c) 4 (beginDrain i b)

def execThReset (page : Fin 20) (s : State) : Host.Outcome State Fault Refusal :=
  nextBlk s (runCard s.blk page.val resetCard resetCheck resetAct)

/-- Payload of a TH_RESET: stores lost and lines poisoned. -/
def resetPay (lost lines : Nat) : List Byte := natToBytes 4 (min lost 0xFFFF_FFFF) ++ natToBytes 4 (min lines 0xFFFF_FFFF)

/-- Stores that the drains of harts have discarded since a command began. -/
def lostSince (b : Block) (x : Mbx) (harts : List Nat) : Nat :=
  (harts.map fun i => discarded b i - x.counts.getD i 0).foldl (· + ·) 0

/-- Have the channels of a partition's quarters retrained? -/
def chansBack (b : Block) (p : Nat) : Bool :=
  (partQuarters b p).all fun q => (List.range 4).all fun i => !(getChan b (4 * q + i)).filling

/-- COMMAND_COMPLETE of scope 2: the reset once the cores have drained, and its end. -/
def resetPartTry (x : Block × Dram) (m : Nat) : Block × Dram :=
  let c := callOf x.1 m
  let p := rsTarget c
  if partState x.1 .n p = 3 then
    if partDrained x.1 p then
      let harts := rsCover x.1 { c with pay := [2, 0, 0, BitVec.ofNat 8 p] }
      let lost := lostSince x.1 (getMbx x.1 m) (harts.filter (· < 240))
      let (b, d) := resetPart x p
      let b := updMbx b m fun y => { y with waitA := lost, cursor := 4 }
      (if rsAction c = 0 then releaseLater b p else b, d)
    else x
  else
    let back := chansBack x.1 p
    let b := if back ∧ rsAction c ≠ 2 then updMbx x.1 m fun y => { y with cursor := 5 } else x.1
    let done := if rsAction c = 1 then back else partState b .n p == 2 && (rsAction c == 2 || back)
    (if done then reply b m thOk 0 0 (resetPay (getMbx b m).waitA 0) else b, x.2)

/-- Do a hub's scrub or its wait for an agent still run (R219, R221)? -/
def scrubOpen (b : Block) (a : Nat) : Bool :=
  (lostHubs b a).any fun h =>
    bitOf (fget b (HUB_JCT_LOST h) HUB_JCT_LOST_SCRUB) a || b.pkg.lostWait.contains (waitKey h a)

/-- COMMAND_COMPLETE of scope 3. -/
def resetAgentTry (b : Block) (m : Nat) : Block :=
  let c := callOf b m
  let a := rsTarget c
  let run := getRun b a
  let was := (getMbx b m).waitB == 1
  let lost := b.pkg.resetLost.get 0 a % 2 ^ 32
  let lines := if was ∨ rsAction c = 2 then 0 else b.pkg.resetLost.get 0 a / 2 ^ 32
  let ended := resetPay lost lines
  if run = 8 then reply (setRun b a 0) m thRefused 1 0 []
  else if run = 5 ∧ 12 ≤ a then
    if scrubOpen b a then b
    else
      let open_ := ((lostHubs b a).map fun h => b.pkg.scrubPoison.get 0 (h.idx * 32 + a)).foldl (· + ·) 0
      reply (setRun b a 0) m thOk 0 0 (resetPay 0 (if was then 0 else open_))
  else if rsLost b a then b
  else if run = 0 then reply b m thOk 0 0 ended
  else if run = 6 ∧ 12 ≤ a ∧ endMilepost b (hubOf (a % 2)) 6 = true then reply (setRun b a 0) m thOk 0 0 ended
  else b

/-- COMMAND_COMPLETE of scope 4. -/
def resetCoreTry (b : Block) (m : Nat) : Block :=
  let c := callOf b m
  let i := rsHart c
  if rsAction c ≠ 2 ∧ drains b i = true then b
  else
    let b := if rsAction c = 0 then releaseCore (startOf b (rsTarget c) (c.u64 8)) i b else b
    reply b m thOk 0 0 (resetPay (if rsAction c = 2 then 0 else lostSince b (getMbx b m) [i]) 0)

/-- COMMAND_COMPLETE of a TH_RESET. -/
def resetTry (x : Block × Dram) (m : Nat) : Block × Dram :=
  match rsScope (callOf x.1 m) with
  | 2 => resetPartTry x m
  | 3 => (resetAgentTry x.1 m, x.2)
  | 4 => (resetCoreTry x.1 m, x.2)
  | _ => x

/-- Last step completed of a planned die reset or a partition reset, for a TIMEOUT (R399). -/
def resetStep (b : Block) (m : Nat) : Nat :=
  let c := callOf b m
  match rsScope c with
  | 2 => (getMbx b m).cursor
  | 3 =>
    let a := rsTarget c
    if rsAction c = 2 ∨ rsUnplanned c = true ∨ 12 ≤ a then 0
    else match getRun b a / 2 with
      | 1 =>
        let hs := (dieHarts a).map (getHart b)
        if (hs.any fun h => !h.sb.isEmpty) = true then 1
        else if (hs.any fun h => !h.dest.isEmpty || !h.waiting.isEmpty) = true ∨
            ((getDie b a).reqs.any fun r => r.purpose != .wb) = true then 2
        else if (dieHarts a).any fun i => !(heldWays b i true).isEmpty || !(getHart b i).wbs.isEmpty then 3
        else if (getDie b a).reqs.isEmpty then 5 else 4
      | 2 => 6
      | _ => 7
  | _ => 0

/-- What a package reset that completed OK asks for (R399): cold, or warm. -/
def resetAfter (b : Block) (c : Call) : Block :=
  match rsScope c with
  | 0 => requestCold b
  | 1 => if b.pkg.resetDue = 0 then beginWarm b else b
  | _ => b

/-! ## TH_CLOCK_SOURCE_SET (R373) -/

abbrev codeClock : Nat := 0x104

def clockCard : Card :=
  { code := codeClock, len := 4, fields := fun c => decide (c.u8 0 < 2) && c.u32 0 / 256 == 0 }

def clockCheck (b : Block) (c : Call) : Option (Nat × Nat) :=
  if c.u8 0 = 0 ∧ (clockUnits.any fun u => !fon b (clkReg u) HUB_CLK_STATUS_PRIMARY_OK) = true then some (thRefused, 1)
  else if c.u8 0 = 1 ∧ fon b (HUB_CLK_STATUS .n) HUB_CLK_STATUS_FALLBACK_OK = false then some (thRefused, 2)
  else need (!isSplit b) thBusy none

def clockAct (b : Block) (c : Call) : Block :=
  if fget b (HUB_CLK_STATUS .n) HUB_CLK_STATUS_SOURCE = c.u8 0 then reply b c.m thOk 0 0 []
  else switchSource (await b c.m 0 0) (c.u8 0)

def execThClockSourceSet (page : Fin 20) (s : State) : Host.Outcome State Fault Refusal :=
  nextBlk s (runCard s.blk page.val clockCard clockCheck clockAct)

/-- COMMAND_COMPLETE: every die runs from the source, and no retrain with cause 6 is under way. -/
def clockTry (b : Block) (m : Nat) : Block :=
  let src := (callOf b m).u8 0
  let trains (e : LinkId) : Bool :=
    decide (1 ≤ linkState b e ∧ linkState b e ≤ 4) && fget b (LINK_STATUS e) LINK_STATUS_LAST_RETRAIN_CAUSE == 6
  if (clockUnits.all fun u => fget b (clkReg u) HUB_CLK_STATUS_SOURCE == src) = true ∧ linkEnds.any trains = false then
    reply b m thOk 0 0 []
  else b

/-! ## TH_SPLIT_END (R397) -/

def splitEndCard : Card := { code := 0x105, len := 0 }

def splitEndCheck (b : Block) (_ : Call) : Option (Nat × Nat) :=
  need (isSplit b) thBusy ((splitEndRefused b).map fun r => (thRefused, r))

def execThSplitEnd (page : Fin 20) (s : State) : Host.Outcome State Fault Refusal :=
  nextBlk s (runCard s.blk page.val splitEndCard splitEndCheck fun b c => reply (endSplit (markChanged b c.m)) c.m thOk 0 0 [])

/-! ## TH_PKG_STATE_SET (R403, R404, R419) -/

def pkgStateCard : Card :=
  { code := 0x201, len := 16, part := true
    fields := fun c => (decide (c.u8 0 < 4) || c.u8 0 == 0xFF) && c.u16 2 == 0 && c.u32 4 == 0 && c.u64 8 % 4096 == 0 &&
      (c.u8 0 != 0xFF || c.u64 8 == 0) && [1, 3, 5].contains (c.u8 1) }

def pkgStateCheck (b : Block) (c : Call) : Option (Nat × Nat) :=
  let p := c.u8 0
  need (p == 0xFF || (partExists b p && (c.u64 8 == 0 || (groupOf b .n p (c.u64 8)).isSome))) thBadField <|
    need (ownPart c p && (!c.bmc || p == 0xFF)) thDenied none

/-- A ceiling changes: a failed attempt may then start again (R404). -/
def pkgStateAct (b : Block) (c : Call) : Block :=
  let ceil : Ceiling := { deepest := c.u8 1, secure := c.world, resume := c.u64 8 }
  let b := setPower b fun p =>
    let p := { p with blocked := false, draining := [] }
    if c.u8 0 = 0xFF then { p with pkgCeil := ceil } else { p with partCeil := p.partCeil.set {} (c.u8 0) ceil }
  reply (markChanged b c.m) c.m thOk 0 0 []

def execThPkgStateSet (page : Fin 20) (s : State) : Host.Outcome State Fault Refusal :=
  nextBlk s (runCard s.blk page.val pkgStateCard pkgStateCheck pkgStateAct)

/-! ## TH_POWER_LIMIT_SET (R420) -/

def powerLimitCard : Card :=
  { code := 0x202, len := 8
    fields := fun c => decide (600 ≤ c.u16 0 ∧ c.u16 0 ≤ 900) && decide (c.u16 0 ≤ c.u16 2 ∧ c.u16 2 ≤ 1100) &&
      decide (10 ≤ c.u16 4 ∧ c.u16 4 ≤ 10000) && c.u16 6 == 0 }

/-- Highest junction temperature, as a 16-bit two's complement value; free before the first sample. -/
def hottest (b : Block) : Nat × Block :=
  match b.power.temps.cells with
  | [] =>
    let (n, b) := freeNat b
    (n % 65536, b)
  | cs => ((65536 + (cs.map (·.2)).foldl max 0 - 41) % 65536, b)

def powerLimitAct (b : Block) (c : Call) : Block :=
  let b := setPower b fun p => { p with sustained := c.u16 0, fast := c.u16 2, windowMs := c.u16 4 }
  let (t, b) := hottest b
  reply (markChanged b c.m) c.m thOk 0 0 (natToBytes 2 b.power.average ++ natToBytes 2 t ++ natToBytes 4 0)

def execThPowerLimitSet (page : Fin 20) (s : State) : Host.Outcome State Fault Refusal :=
  nextBlk s (runCard s.blk page.val powerLimitCard (fun _ _ => none) powerLimitAct)

end Sys2Proof.Machine
end

