-- ==== Sys2Proof/Machine/ThDevices.lean ====
section
/-! DEFINITION. The commands of data-mover channels (R444 to R449), event rings (R514 to R525), ports and endpoint functions
(R465 to R476). -/

namespace Sys2Proof.Machine

/-! ## TH_CHANNEL_CREATE (R444) -/

def chanCreateHub (c : Call) : Hub := hubOf (c.u8 1)

/-- Are payload bytes `i` to `i + n - 1` zero? -/
def zeroBytes (c : Call) (i n : Nat) : Bool := ((c.pay.drop i).take n).all (· == 0)

def chanCreateCard : Card :=
  { code := 0x301, len := 16, part := true, bmc := false, hubs := fun _ c => [chanCreateHub c]
    fields := fun c => decide (c.u8 0 < 4) && decide (c.u8 1 < 2) && (decide (c.u8 2 < 16) || c.u8 2 == 0xFF) &&
      decide (c.u8 3 < 4) && decide (c.u32 4 < 2 ^ 20) && (decide (c.u16 8 < 2048) || c.u16 8 == 0xFFFF) && zeroBytes c 10 6 }

/-- Quarters of a partition on a hub. -/
def hubQuarters (b : Block) (p : Nat) (h : Hub) : List Nat := (partQuarters b p).filter fun q => quarterHub q == h

/-- Is an engine claimed by the secure world? -/
def engineClaimed (b : Block) (h : Hub) (e : Nat) : Bool := fon b (DM_ENG_STATUS h e) DM_ENG_STATUS_CLAIMED

/-- Channels that an engine serves. -/
def engineLoad (b : Block) (h : Hub) (e : Nat) : Nat :=
  ((getMover b h).chans.cells.filter fun x => x.2.live && x.2.engine == e).length

/-- The least loaded of some engines, the lowest first. -/
def leastLoaded (b : Block) (h : Hub) (es : List Nat) : Option Nat :=
  es.foldl (fun best e => match best with
    | none => some e
    | some x => if engineLoad b h e < engineLoad b h x then some e else some x) none

/-- Engines of a side of a hub that may serve a channel of a world. -/
def sideEngines (b : Block) (h : Hub) (west secure : Bool) : List Nat :=
  ((List.range 8).map fun i => (if west then 0 else 8) + i).filter fun e => secure || !engineClaimed b h e

/-- The index and the engine of a new channel (R444 step 3). -/
def chanCreatePick (b : Block) (c : Call) : Option (Nat × Nat) :=
  let h := chanCreateHub c
  let e := c.u8 2
  let secure := bitOf (c.u8 3) 1
  if e < 16 then (drawIndex b 1 (poolIndices b 1 h (decide (e < 8)))).map fun ix => (ix, e)
  else
    match drawIndex b 1 ((hubQuarters b (c.u8 0) h).flatMap fun q => poolIndices b 1 h (q % 2 == 0)) with
    | none => none
    | some ix => (leastLoaded b h (sideEngines b h (decide (ix % 2048 < 1024)) secure)).map fun e => (ix, e)

def chanCreateCheck (b : Block) (c : Call) : Option (Nat × Nat) :=
  let h := chanCreateHub c
  let p := c.u8 0
  let qs := hubQuarters b p h
  let secure := bitOf (c.u8 3) 1
  let g := getChanDm b h (c.u16 8)
  need (ownPart c p) thDenied <|
    need (!qs.isEmpty && (c.u8 2 == 0xFF || qs.any fun q => q % 2 == c.u8 2 / 8) && (bitOf (c.u8 3) 0 || c.u32 4 == 0) &&
      (c.u16 8 == 0xFFFF || (g.live && g.part == some p && g.secure == secure))) thBadField <|
    need ((!secure || c.sec) && (secure || c.u8 2 == 0xFF || !engineClaimed b h (c.u8 2))) thDenied <|
    need (chanCreatePick b c).isSome thNoResource none

def chanCreateAct (b : Block) (c : Call) : Block :=
  match chanCreatePick b c with
  | none => reply b c.m thNoResource 0 0 []
  | some (ix, e) =>
    let h := chanCreateHub c
    let n := ix % 2048
    let secure := bitOf (c.u8 3) 1
    let group := if c.u16 8 = 0xFFFF then n else c.u16 8
    let pasid := if bitOf (c.u8 3) 0 then some (c.u32 4) else none
    let b := takeIndex b 1 ix (c.u8 0) secure c.server
    let b := updChanDm b h n fun _ =>
      { live := true, part := some (c.u8 0), secure := secure, engine := e, group := group, pasid := pasid }
    reply (markChanged b c.m) c.m thOk 0 (handleOf b 1 ix) (natToBytes 4 e ++ natToBytes 4 (0x1_0000 + group))

def execThChannelCreate (page : Fin 20) (s : State) : Host.Outcome State Fault Refusal :=
  nextBlk s (runCard s.blk page.val chanCreateCard chanCreateCheck chanCreateAct)

/-! ## Commands that name a channel -/

/-- The channel that a handle names. -/
def dmHub (c : Call) : Hub := objHub 1 (bitsOf c.handle 15 0)
def dmIx (c : Call) : Nat := bitsOf c.handle 15 0 % 2048
def dmNamed (b : Block) (c : Call) : DmChan := getChanDm b (dmHub c) (dmIx c)

/-- A card that names a channel. -/
def dmCard (code len : Nat) (fields : Call → Bool := fun _ => true) : Card :=
  { code := code, len := len, part := true, bmc := false, handle := some 1, hubs := fun _ c => [dmHub c], fields := fields }

/-- What every such command checks first: a normal-world caller does not name a secure-world channel (R445), and no command
names a channel under destruction (R61). -/
def dmCheck (b : Block) (c : Call) (next : Option (Nat × Nat)) : Option (Nat × Nat) :=
  need (c.world || !(dmNamed b c).secure) thDenied <| need (chanState b (dmHub c) (dmIx c) != 5) thStale next

/-! ## TH_CHANNEL_DESTROY (R445) -/

abbrev codeChanDestroy : Nat := 0x302

/-- A channel stops at once; its unfinished descriptor receives no record and no MSI. -/
def destroyChan (h : Hub) (n : Nat) (b : Block) : Block :=
  let b := retireObj (objKey 1 (h.idx * 2048 + n)) (setChanState b h n 5)
  settleChan (updChanDm b h n fun c => { c with
    prog := {}, due := none, stopping := false, freezing := false, flr := false }) h n

def chanDestroyAct (b : Block) (c : Call) : Block := destroyChan (dmHub c) (dmIx c) (await b c.m (bitsOf c.handle 15 0) 0)

def execThChannelDestroy (page : Fin 20) (s : State) : Host.Outcome State Fault Refusal :=
  nextBlk s (runCard s.blk page.val (dmCard codeChanDestroy 0)
    (fun b c => dmCheck b c (need (dmNamed b c).fn.isNone thBusy none)) chanDestroyAct)

/-- COMMAND_COMPLETE: the object's index is back in its pool. -/
def destroyTry (ty : Nat) (b : Block) (m : Nat) : Block :=
  if (b.objs.get {} (objKey ty (getMbx b m).waitA)).destroying then b else reply b m thOk 0 0 []

/-! ## TH_CHANNEL_DIRTY_LOG (R446, R447) -/

abbrev codeDirtyLog : Nat := 0x305

def dirtyCard : Card := dmCard codeDirtyLog 32 fun c =>
  let rest := zeroBytes c 8 20
  decide (c.u8 0 < 2) && zeroBytes c 1 7 && c.u32 28 == 0 &&
    (if c.u8 0 = 1 then c.u64 8 % 8 == 0 && c.u64 16 % 4096 == 0 && c.u32 24 != 0 else rest)

def dirtyCheck (b : Block) (c : Call) : Option (Nat × Nat) :=
  let x := dmNamed b c
  dmCheck b c <| need x.fn.isNone thBusy <|
    if c.u8 0 = 1 then
      need (inOneGroup b (chanPart x) (c.u64 8) ((c.u32 24 + 63) / 64 * 8)) thBadField <| need x.log.isNone thBusy none
    else none

/-- Answer with the counts since the last command, and clear them. -/
def dirtyReply (b : Block) (m : Nat) (h : Hub) (n : Nat) : Block :=
  let x := getChanDm b h n
  let b := updChanDm b h n fun x => { x with newBits := 0, outside := 0 }
  reply b m thOk 0 0 (natToBytes 4 x.newBits ++ natToBytes 4 x.outside)

def dirtyAct (b : Block) (c : Call) : Block :=
  let h := dmHub c
  let n := dmIx c
  let on := c.u8 0 == 1
  if !on && (dmNamed b c).log.isNone then dirtyReply b c.m h n
  else
    let log := if on then some (c.u64 16, c.u32 24, c.u64 8) else none
    let b := fset (updChanDm b h n fun x => { x with log := log }) (DM_CH_STATUS h n) DM_CH_STATUS_DIRTY_LOG (b2n on)
    if on then dirtyReply (markChanged b c.m) c.m h n else await b c.m (bitsOf c.handle 15 0) 0

def execThChannelDirtyLog (page : Fin 20) (s : State) : Host.Outcome State Fault Refusal :=
  nextBlk s (runCard s.blk page.val dirtyCard dirtyCheck dirtyAct)

/-- COMMAND_COMPLETE of a STOP: every update of earlier stretches has completed. -/
def dirtyTry (b : Block) (m : Nat) : Block :=
  let c := callOf b m
  let x := dmNamed b c
  if x.parts.any (fun p => p.kind == .log) || (x.prog.st.map (·.logging)).getD false then b
  else dirtyReply b m (dmHub c) (dmIx c)

/-! ## TH_CHANNEL_FREEZE (R448) -/

abbrev codeFreeze : Nat := 0x303

/-- The 32 bytes of a descriptor. -/
def descBytes (d : Desc) : List Byte :=
  natToBytes 4 d.ctrl.toNat ++ natToBytes 4 d.length.toNat ++ natToBytes 8 d.src.toNat ++ natToBytes 8 d.dst.toNat ++
    natToBytes 8 d.cmpl.toNat

/-- Bytes 0 to 251 of the save record of a frozen channel; the descriptor at HEAD where the channel has not read it is free. -/
def saveBody (b : Block) (h : Hub) (n : Nat) (free : Nat) : List Byte :=
  let c := getChanDm b h n
  let p := c.prog
  let desc := match p.desc with
    | some d => descBytes d
    | none => natToBytes 32 free
  let src := match p.desc with
    | some d => dSrcSg d
    | none => false
  let dst := match p.desc with
    | some d => dDstSg d
    | none => false
  natToBytes 1 1 ++ natToBytes 1 c.before ++ natToBytes 1 (fget b (DM_CH_STATUS h n) DM_CH_STATUS_ERROR) ++
    natToBytes 1 (chanOrder b h n) ++ natToBytes 1 (b2n c.secure) ++ natToBytes 3 0 ++ natToBytes 4 (chanHead b h n) ++
    natToBytes 4 (chanTail b h n) ++ natToBytes 8 (fget b (DM_CH_RING h n) DM_CH_RING_BASE * 4096) ++
    natToBytes 8 (rd b (DM_CH_MSI_ADDR h n)) ++ natToBytes 4 (rd b (DM_CH_MSI_DATA h n)) ++ natToBytes 28 0 ++ desc ++
    natToBytes 8 (doneBytes p) ++ natToBytes 8 (if src then p.srcEnt else 0) ++ natToBytes 4 (if src then p.srcUsed else 0) ++
    natToBytes 8 (if dst then p.dstEnt else 0) ++ natToBytes 4 (if dst then p.dstUsed else 0) ++ natToBytes 4 p.crc.toNat ++
    natToBytes 120 0

/-- The save record with its CHECK. -/
def saveRecord (body : List Byte) : List Byte := body ++ natToBytes 4 (crc32c body)

/-- Answer with the record of a frozen channel. -/
def freezeReply (b : Block) (m : Nat) (h : Hub) (n : Nat) : Block :=
  let (v, b) := freeNat b
  reply b m thOk 0 0 (saveRecord (saveBody b h n v))

def freezeCard : Card := dmCard codeFreeze 4 fun c => decide (c.u8 0 < 2) && zeroBytes c 1 3

def freezeCheck (b : Block) (c : Call) : Option (Nat × Nat) :=
  let st := chanState b (dmHub c) (dmIx c)
  dmCheck b c (need (if c.u8 0 = 0 then st != 0 else st == 3) thBusy none)

def freezeAct (b : Block) (c : Call) : Block :=
  let h := dmHub c
  let n := dmIx c
  if c.u8 0 = 1 then reply (markChanged (setChanState b h n (getChanDm b h n).before) c.m) c.m thOk 0 0 []
  else if chanState b h n = 3 then freezeReply b c.m h n
  else settleChan (updChanDm (await b c.m 0 0) h n fun x => { x with freezing := true }) h n

def execThChannelFreeze (page : Fin 20) (s : State) : Host.Outcome State Fault Refusal :=
  nextBlk s (runCard s.blk page.val freezeCard freezeCheck freezeAct)

/-- COMMAND_COMPLETE. -/
def freezeTry (b : Block) (m : Nat) : Block :=
  let c := callOf b m
  if chanState b (dmHub c) (dmIx c) = 3 then freezeReply b m (dmHub c) (dmIx c) else b

/-! ## TH_CHANNEL_RESTORE (R449) -/

def restoreOk (c : Call) : Bool :=
  c.u8 0 == 1 && (c.u8 1 == 1 || c.u8 1 == 2 || c.u8 1 == 4) && decide (4 ≤ c.u8 3 ∧ c.u8 3 ≤ 16) && zeroBytes c 5 3 &&
    zeroBytes c 36 28 && zeroBytes c 132 120 && c.u32 252 == crc32c (c.pay.take 252)

def restoreCheck (b : Block) (c : Call) : Option (Nat × Nat) :=
  dmCheck b c <| need ((dmNamed b c).fn.isNone && chanState b (dmHub c) (dmIx c) == 0) thBusy <|
    need (restoreOk c) thBadField <| need (c.u8 4 == b2n (dmNamed b c).secure) thDenied none

/-- The descriptor of a save record. -/
def savedDesc (c : Call) : Desc :=
  { ctrl := BitVec.ofNat 32 (c.u32 64), length := BitVec.ofNat 32 (c.u32 68), src := BitVec.ofNat 64 (c.u64 72)
    dst := BitVec.ofNat 64 (c.u64 80), cmpl := BitVec.ofNat 64 (c.u64 88) }

/-- The progress of a save record; a descriptor of which no byte is done is read again from the ring. -/
def savedProgress (c : Call) : Progress :=
  if c.u64 96 = 0 then {}
  else
    { desc := some (savedDesc c), done := c.u64 96, srcEnt := c.u64 104, srcUsed := c.u32 112, dstEnt := c.u64 116
      dstUsed := c.u32 124, crc := BitVec.ofNat 32 (c.u32 128) }

def restoreAct (b : Block) (c : Call) : Block :=
  let h := dmHub c
  let n := dmIx c
  let st := DM_CH_STATUS h n
  let b := wr b (DM_CH_RING h n) (place (c.u64 16 / 4096) 63 12 + c.u8 3)
  let b := wr (wr b (DM_CH_MSI_ADDR h n) (c.u64 24 / 4 * 4 + c.u64 24 % 2)) (DM_CH_MSI_DATA h n) (c.u32 32)
  let b := fset (fset b (DM_CH_DOORBELL h n) DM_CH_DOORBELL_TAIL (c.u32 12)) st DM_CH_STATUS_HEAD (c.u32 8)
  let bad := c.u8 1 == 4
  let b := fset (setChanState b h n (if bad then 4 else 2)) st DM_CH_STATUS_ERROR (if bad then c.u8 2 else 0)
  let b := updChanDm b h n fun x => { x with prog := savedProgress c }
  reply (markChanged b c.m) c.m thOk 0 0 []

def execThChannelRestore (page : Fin 20) (s : State) : Host.Outcome State Fault Refusal :=
  nextBlk s (runCard s.blk page.val (dmCard 0x304 256) restoreCheck restoreAct)

/-! ## TH_EVENT_RING_CREATE and TH_EVENT_RING_DESTROY (R523) -/

def ringCreateCard : Card :=
  { code := 0x401, len := 32, part := true, hubs := fun _ c => [hubOf (c.u8 1)]
    fields := fun c => (decide (c.u8 0 < 4) || c.u8 0 == 15) && decide (c.u8 1 < 2) && decide (c.u8 2 < 4) &&
      decide (c.u8 6 < 32) && c.u8 7 == 0 && c.u64 8 % 4096 == 0 && bitsOf (c.u64 16) 63 56 == 0 &&
      bitsOf (c.u64 16) 43 40 == 0 && c.u32 28 == 0 }

/-- Is the payload's lay-by where R523 asks for it? A package-scope ring's lies in a home group of some partition. -/
def laybyOk (b : Block) (c : Call) : Bool :=
  let size := (2 ^ c.u8 3 - 64) * 32
  if bitOf (c.u8 2) 0 = false then c.u64 8 == 0
  else if c.u8 0 = 15 then (List.range 4).any fun p => inOneGroup b p (c.u64 8) size
  else inOneGroup b (c.u8 0) (c.u64 8) size

/-- The index of a new ring (R523 step 3). -/
def ringPick (b : Block) (c : Call) : Option Nat :=
  let h := hubOf (c.u8 1)
  let wests : List Bool := if c.u8 0 = 15 then [true, false] else (hubQuarters b (c.u8 0) h).map (· % 2 == 0)
  wests.findSome? fun w => drawIndex b 2 (poolIndices b 2 h w)

def ringCreateCheck (b : Block) (c : Call) : Option (Nat × Nat) :=
  let cap := c.u8 3
  let capOk := if bitOf (c.u8 2) 0 then decide (7 ≤ cap ∧ cap ≤ 20) else cap == 4
  need (capOk && c.u16 4 != 0 && c.u8 6 != 0 && decide (c.u32 24 ≤ 2 ^ cap) && laybyOk b c) thBadField <|
    need ((!bitOf (c.u8 2) 1 || c.sec) && ownPart c (c.u8 0)) thDenied <| need (ringPick b c).isSome thNoResource none

def ringCreateAct (b : Block) (c : Call) : Block :=
  match ringPick b c with
  | none => reply b c.m thNoResource 0 0 []
  | some ix =>
    let r : RingId := .ring (hubOf (ix / 64)) (Fin.ofNat 64 ix)
    let secure := bitOf (c.u8 2) 1
    let b := dropRing ix (takeIndex b 2 ix (c.u8 0) secure c.server)
    let b := updRing b ix fun _ =>
      { part := if c.u8 0 = 15 then none else some (c.u8 0), secure := secure, classMask := c.u16 4, sevMask := c.u8 6
        laybyPa := c.u64 8 }
    let b := wr b (HUB_EVR_STATUS r) (place (c.u8 3) 12 8 + place (c.u8 2 % 2) 1 1 + 1)
    let b := wr (wr b (HUB_EVR_MSI r) (c.u64 16)) (HUB_EVR_CTRL r) (place (c.u32 24) 31 11)
    reply (markChanged b c.m) c.m thOk 0 (handleOf b 2 ix) []

def execThEventRingCreate (page : Fin 20) (s : State) : Host.Outcome State Fault Refusal :=
  nextBlk s (runCard s.blk page.val ringCreateCard ringCreateCheck ringCreateAct)

abbrev codeRingDestroy : Nat := 0x402

def ringDestroyCard : Card :=
  { code := codeRingDestroy, len := 0, part := true, handle := some 2, hubs := fun _ c => [objHub 2 (bitsOf c.handle 15 0)] }

/-- Is the object that a handle of a type names under destruction? -/
def objEnds (b : Block) (c : Call) (ty : Nat) : Bool := (b.objs.get {} (objKey ty (bitsOf c.handle 15 0))).destroying

def ringDestroyAct (b : Block) (c : Call) : Block :=
  let ix := bitsOf c.handle 15 0
  await (retireObj (objKey 2 ix) b) c.m ix 0

def execThEventRingDestroy (page : Fin 20) (s : State) : Host.Outcome State Fault Refusal :=
  nextBlk s (runCard s.blk page.val ringDestroyCard (fun b c => need (!objEnds b c 2) thStale none) ringDestroyAct)

/-- A ring under destruction ends: its records are discarded, its counts stay until a ring is created there (R521). -/
def ringGone (ix : Nat) (b : Block) : Block :=
  returnObj (objKey 2 ix) (resetRegs (evrSet (.ring (hubOf (ix / 64)) (Fin.ofNat 64 ix))) 0x80 { b with rings := b.rings.set {} ix {} })

/-- COMMAND_COMPLETE. -/
def ringDestroyTry (b : Block) (m : Nat) : Block :=
  let ix := (getMbx b m).waitA
  let n := (getRing b ix).held.length
  let b := if (b.objs.get {} (objKey 2 ix)).destroying then ringGone ix b else b
  reply b m thOk 0 0 (natToBytes 4 n)

/-! ## TH_EVENT_AO_READ -/

def aoReadCard : Card :=
  { code := 0x403, len := 4, hubs := fun _ c => [hubOf (c.u8 0)]
    fields := fun c => decide (c.u8 0 < 2) && decide (c.u8 1 < 2) && decide (1 ≤ c.u8 2 ∧ c.u8 2 ≤ 16) && c.u8 3 == 0 }

def aoReadAct (b : Block) (c : Call) : Block :=
  let r : RingId := .ao (hubOf (c.u8 0)) (Fin.ofNat 2 (c.u8 1))
  let (took, b) := ringTake b r (c.u8 2)
  let pay := natToBytes 4 took.length ++ natToBytes 4 (rd b (CNT_EVR r 2)) ++
    took.flatMap fun e => (evWords e).flatMap (natToBytes 8)
  reply (takenMsi (markChanged b c.m) r) c.m thOk 0 0 pay

def execThEventAoRead (page : Fin 20) (s : State) : Host.Outcome State Fault Refusal :=
  nextBlk s (runCard s.blk page.val aoReadCard (fun _ _ => none) aoReadAct)

/-! ## TH_PORT_CONFIG_SET (R451) -/

def portConfigCard : Card :=
  { code := 0x501, len := 8
    fields := fun c => (List.range 8).all fun g => decide (c.u8 g < 4) || (c.u8 g == 4 && g % 4 == 0) }

def portConfigAct (b : Block) (c : Call) : Block :=
  let modes := (List.range 8).map c.u8
  reply (markChanged { b with pkg := { b.pkg with portModes := modes } } c.m) c.m thOk 0 0 []

def execThPortConfigSet (page : Fin 20) (s : State) : Host.Outcome State Fault Refusal :=
  nextBlk s (runCard s.blk page.val portConfigCard (fun _ _ => none) portConfigAct)

/-! ## TH_EP_FUNCTION_CREATE and TH_EP_FUNCTION_DESTROY (R465, R467, R475) -/

def fnHub (c : Call) : Hub := hubOf (c.u8 0)

def fnFields (c : Call) : Bool :=
  let pf := c.u8 1 == 0
  let bar (x : Nat) : Bool := if pf then decide (12 ≤ x ∧ x ≤ 40) else x == 0
  decide (c.u8 0 < 2) && (if pf then c.u8 2 == 0 else decide (1 ≤ c.u8 2 ∧ c.u8 2 ≤ 8)) && bar (c.u8 3) &&
    decide (1 ≤ c.u16 4 ∧ c.u16 4 ≤ 1024) && decide (1 ≤ c.u16 6 ∧ c.u16 6 ≤ (if pf then 2048 else 256)) && bar (c.u8 8) &&
    zeroBytes c 9 7

def fnCreateCard : Card := { code := 0x502, len := 16, hubs := fun _ c => [fnHub c], fields := fnFields }

/-- Does function `f` exist? One under destruction still does. -/
def fnExists (b : Block) (h : Hub) (f : Nat) : Bool := !indexFree b 3 (h.idx * 256 + f)

/-- MSI-X vectors that an endpoint holds. -/
def fnVectors (b : Block) (h : Hub) : Nat := ((getIo b h).ep.fns.cells.map fun x => x.2.vectors).foldl (· + ·) 0

/-- The channels of a new function, and the engine of each: indices from the western pool, engines of the western quarter. -/
def addFnChans (h : Hub) (f : Nat) (server : Hub) : Nat → Block → Option Block
  | 0, b => some b
  | k + 1, b =>
    match addFnChans h f server k b with
    | none => none
    | some b =>
      match drawIndex b 1 (poolIndices b 1 h true), leastLoaded b h (sideEngines b h true false) with
      | some ix, some e =>
        let n := ix % 2048
        let b := takeIndex b 1 ix 15 false server
        let b := updChanDm b h n fun _ => { live := true, engine := e, group := n, fn := some (f, k) }
        some (updFn b h f fun x => { x with channels := x.channels ++ [n] })
      | _, _ => none

def fnCreateCheck (b : Block) (c : Call) : Option (Nat × Nat) :=
  let h := fnHub c
  let f := c.u8 1
  need (epMode b h && (f == 0 || (fnExists b h (f - 1) && (getFn b h (f - 1)).live))) thBadField <|
    need (!fnExists b h f && !fon b (EP_STATUS h) EP_STATUS_VF_ENABLE) thBusy <|
    need ((addFnChans h f c.server (c.u8 2) b).isSome && decide (fnVectors b h + c.u16 6 ≤ 2048) &&
      indexFree b 4 (h.idx * 256 + f)) thNoResource none

def fnCreateAct (b : Block) (c : Call) : Block :=
  let h := fnHub c
  let f := c.u8 1
  let ix := h.idx * 256 + f
  let b := takeIndex (takeIndex b 3 ix 15 false c.server) 4 ix 15 false c.server
  let b := updFn b h f fun _ =>
    { live := true, bar2Log := c.u8 3, vfBar2Log := c.u8 8, tagBudget := c.u16 4, vectors := c.u16 6 }
  match addFnChans h f c.server (c.u8 2) b with
  | none => reply b c.m thNoResource 0 0 []
  | some b => reply (markChanged b c.m) c.m thOk 0 (handleOf b 3 ix) (natToBytes 4 (handleOf b 4 ix) ++ natToBytes 4 0)

def execThEpFunctionCreate (page : Fin 20) (s : State) : Host.Outcome State Fault Refusal :=
  nextBlk s (runCard s.blk page.val fnCreateCard fnCreateCheck fnCreateAct)

abbrev codeFnDestroy : Nat := 0x503

def fnDestroyCard : Card :=
  { code := codeFnDestroy, len := 0, handle := some 3, hubs := fun _ c => [objHub 3 (bitsOf c.handle 15 0)] }

def fnDestroyCheck (b : Block) (c : Call) : Option (Nat × Nat) :=
  let ix := bitsOf c.handle 15 0
  let h := objHub 3 ix
  let f := ix % 256
  need (!objEnds b c 3) thStale <|
    need (!fon b (EP_STATUS h) EP_STATUS_VF_ENABLE && (f == 255 || !fnExists b h (f + 1))) thBusy none

/-- The function serves nothing more, its channels are destroyed, and the link goes down with the PF. -/
def fnDestroyAct (b : Block) (c : Call) : Block :=
  let ix := bitsOf c.handle 15 0
  let h := objHub 3 ix
  let f := ix % 256
  let b := retireObj (objKey 4 ix) (retireObj (objKey 3 ix) (await b c.m ix 0))
  let b := if f = 0 then pfReset b h true else b
  let b := updFn b h f fun x => { x with live := false }
  let chans := (getFn b h f).channels
  if chans.isEmpty then dropFnChan h f 0 b else forEach chans (destroyChan h) b

def execThEpFunctionDestroy (page : Fin 20) (s : State) : Host.Outcome State Fault Refusal :=
  nextBlk s (runCard s.blk page.val fnDestroyCard fnDestroyCheck fnDestroyAct)

/-! ## TH_EP_LEND_SET (R472, R473, R476) -/

abbrev codeLend : Nat := 0x504

/-- Multiple of 256 MiB. -/
def quarterGig (x : Nat) : Bool := x % 2 ^ 28 == 0

def lendCard : Card :=
  { code := codeLend, len := 24, hubs := fun _ c => [fnHub c]
    fields := fun c => decide (c.u8 0 < 2) && decide (c.u8 1 < 2) && decide (c.u8 2 < 4) && zeroBytes c 3 5 &&
      quarterGig (c.u64 8) && quarterGig (c.u64 16) &&
      (if c.u8 1 = 1 then decide (2 ^ 28 ≤ c.u64 16 ∧ c.u64 16 ≤ 2 ^ 40) else c.u64 16 == 0) }

/-- Does a range overlap what the other endpoint lends? -/
def otherLent (b : Block) (h : Hub) (p lo size : Nat) : Bool :=
  match (getIo b (hubOf (1 - h.idx))).ep.lent with
  | some (q, base, n) => q == p && decide (base < lo + size ∧ lo < base + n)
  | none => false

def lendCheck (b : Block) (c : Call) : Option (Nat × Nat) :=
  let h := fnHub c
  let p := c.u8 2
  let lend := c.u8 1 == 1
  need (!lend || (inOneGroup b p (c.u64 8) (c.u64 16) && !touchesRegion b p (c.u64 8) (c.u64 16) &&
      !otherLent b h p (c.u64 8) (c.u64 16))) thBadField <|
    need ((if lend then (getIo b h).ep.lent.isNone else !(getIo b h).ep.hdm) &&
      (actingPages b c.m [codeLend]).all fun m => fnHub (callOf b m) != h) thBusy none

/-- Lines of a range, decoded under a partition, that a slice holds, tracks or works on: for every other line a CmoCleanInval
flow changes nothing. -/
def sliceLines (b : Block) (p lo size : Nat) (h : Hub) (s : Nat) : List Nat :=
  let sl := getSlice b h s
  let inside (l : Nat) : Bool := decide (lo ≤ l * 64 ∧ l * 64 < lo + size)
  if slicePart b h s = p then
    let cached := (sl.filter.cells.filter fun x => x.2.valid).map fun x => fKeyLine sl x.1
    let stored := (sl.sc.cells.filter fun x => x.2.valid).map fun x => x.2.line
    (cached ++ stored ++ sl.trackers.map (·.line)).eraseDups.filter inside
  else []

/-- The endpoint's I/O agent sends a CmoCleanInval for a line to its home. -/
def lendLine (h : Hub) (p line : Nat) (b : Block) : Block :=
  match reqDst b (decodePa b h p (line * 64)) with
  | none => b
  | some dst =>
    let hdr := mkReq opCmoCleanInval false dst (myNode b (agIo h)) 0 line 0
    ioLaunch b h { port := none, msg := { hdr := hdr }, part := p, bi := some (line * 64) }

/-- Every line of the range that a lend names, or that a withdrawal finds lent. -/
def lendAct (b : Block) (c : Call) : Block :=
  let h := fnHub c
  let range := if c.u8 1 = 1 then some (c.u8 2, c.u64 8, c.u64 16) else (getIo b h).ep.lent
  let b := await b c.m 0 0
  match range with
  | none => b
  | some (p, lo, size) =>
    let lines := [Hub.n, Hub.s].flatMap fun x => (List.range 32).flatMap fun s => sliceLines b p lo size x s
    forEach lines (lendLine h p) b

def execThEpLendSet (page : Fin 20) (s : State) : Host.Outcome State Fault Refusal :=
  nextBlk s (runCard s.blk page.val lendCard lendCheck lendAct)

/-- COMMAND_COMPLETE: the flows have ended; the check begins, or ends. -/
def lendTry (b : Block) (m : Nat) : Block :=
  let c := callOf b m
  let h := fnHub c
  let io := getIo b h
  if io.waits.any (fun w => w.port.isNone && w.bi.isSome) || io.held.any fun e => e.port.isNone && e.bi.isSome then b
  else
    let lent := if c.u8 1 = 1 then some (c.u8 2, c.u64 8, c.u64 16) else none
    reply (updIo b h fun i => { i with ep := { i.ep with lent := lent } }) m thOk 0 0 []

end Sys2Proof.Machine
end

