-- ==== Sys2Proof/Machine/Complete.lean ====
section
/-! DEFINITION. The end of a command: its response, its condition of completion, and its TIMEOUT (R49, R55, R58, R63). -/

namespace Sys2Proof.Machine

/-- Try to end the work of a command that waits, by its code. -/
def tryCommand (x : Block × Dram) (m : Nat) : Block × Dram :=
  let b := x.1
  match pageCode b m with
  | 0x103 => resetTry x m
  | 0x104 => (clockTry b m, x.2)
  | 0x302 => (destroyTry 1 b m, x.2)
  | 0x303 => (freezeTry b m, x.2)
  | 0x305 => (dirtyTry b m, x.2)
  | 0x402 => (ringDestroyTry b m, x.2)
  | 0x503 => (destroyTry 3 b m, x.2)
  | 0x504 => (lendTry b m, x.2)
  | 0x603 => (waveTry b, x.2)
  | 0x703 => releaseTry x m
  | 0x704 => (retrainTry b m, x.2)
  | 0x802 => (linkTrainTry b m, x.2)
  | 0x901 => (regionCreateTry b m, x.2)
  | 0x902 => (regionDestroyTry b m, x.2)
  | 0xA01 => (scLockTry b m, x.2)
  | 0xA02 => (scMaintTry b m, x.2)
  | _ => x

/-- Write the response of a command whose result is known; a package reset that it asked for then follows (R399). -/
def endResult (b : Block) (m : Nat) : Block :=
  match (getMbx b m).result with
  | none => b
  | some (st, det, hdl, pay) =>
    let c := callOf b m
    let b := finish b m st det hdl pay
    if c.code = codeReset ∧ st = thOk ∧ c.dry = false then resetAfter b c else b

/-- COMMAND_COMPLETE: a repeated request is answered from the stored response, an undefined code with BAD_COMMAND, and any other
command when its condition holds. In recovery the ROM serves page 17 alone (R49). -/
def commandComplete (x : Block × Dram) (m : Nat) : Block × Dram :=
  let b := x.1
  let recovery := (getTh b .n).recovery && m == 17
  if mbxBusy b m = false ∨ (recovery || thServes b (pageServer b m)) = false then x
  else if (getMbx b m).result.isNone && isReplay b m && !(getMbx b m).admitted then (replay b m, x.2)
  else if (getMbx b m).result.isNone && (!commandCodes.contains (pageCode b m) || (recovery && pageCode b m != 0x001)) then
    (finish b m 1 0 0 [], x.2)
  else
    let y := if (getMbx b m).waiting ∧ (getMbx b m).result = none then tryCommand x m else x
    (endResult y.1 m, y.2)

def execCommandComplete (page : Fin 20) (s : State) : Host.Outcome State Fault Refusal :=
  nextMem s (commandComplete (s.blk, s.dram) page.val)

/-- Progress code of a command, for DETAIL (R63). -/
def progressCode (b : Block) (m : Nat) : Nat :=
  match pageCode b m with
  | 0x103 => resetStep b m
  | 0x802 => linkState b (namedEnd (callOf b m))
  | _ => 0

/-- What a TIMEOUT changes beyond the response: a system-cache command's lines and a ring's end go on without it. -/
def dropCommand (b : Block) (m : Nat) : Block :=
  match pageCode b m with
  | 0x402 => ringGone (getMbx b m).waitA b
  | 0xA01 => orphanLines b m
  | 0xA02 => orphanLines b m
  | _ => b

/-- COMMAND_TIMEOUT (R63): of a command that acts and has not completed. -/
def commandTimeout (b : Block) (m : Nat) : Block :=
  if mbxBusy b m = false ∨ thServes b (pageServer b m) = false ∨ (getMbx b m).waiting = false ∨
      (getMbx b m).result.isSome = true then b
  else
    let pay := if pageCode b m = codeLinkTrain then linkTrainPay b (namedEnd (callOf b m)) else []
    finish (dropCommand b m) m thTimeout (progressCode b m) 0 pay

def execCommandTimeout (page : Fin 20) (s : State) : Host.Outcome State Fault Refusal :=
  nextBlk s (commandTimeout s.blk page.val)

end Sys2Proof.Machine
end

