-- ==== Sys2Proof/Machine/RegSpace.lean ====
section
/-! DEFINITION. Reads and writes of the registers of the package control space and of CSRs (R11 to R14, R30, R35, R37, R38,
R119, R121, R324, R458, R471, R513, R524). -/

namespace Sys2Proof.Machine

/-! ## Finding a register (R11) -/

/-- The register that an access touches, with the byte at which the access begins: a 32-bit register takes one 4-byte access, a
64-bit register one 8-byte access or two of 4 bytes. -/
def regOf (off size : Nat) : Option (Nat × Nat × RegRow) :=
  match rowAt off with
  | some r => if off % size = 0 ∧ ((size = 4) ∨ (size = 8 ∧ r.width = 64)) then some (off, 0, r) else none
  | none =>
    if size = 4 ∧ off % 8 = 4 then
      match rowAt (off - 4) with
      | some r => if r.width = 64 then some (off - 4, 4, r) else none
      | none => none
    else none

/-- Offset of a register within its block, with the block. -/
def relOf (reg : Nat) : Place × Nat :=
  match placeOf reg with
  | some (p, base) => (p, reg - base)
  | none => (.page, 0)

/-- Offset of a register, without its strides. -/
def rowKey (reg : Nat) (r : RegRow) : Place × Nat := ((relOf reg).1, r.off)

/-- Is the lock bit of a register's block set (R37)? -/
def regLocked (b : Block) (reg : Nat) : Bool :=
  if reg < 0x2000_0000 then fon b (HUB_LOCK (hubOf (reg / 0x1000_0000))) HUB_LOCK_LOCK
  else if reg < 0x20C0_0000 then fon b (FCD_LOCK ((reg - 0x2000_0000) / 0x10_0000)) FCD_LOCK_LOCK
  else false

/-! ## IOMMU register sets (R324) -/

/-- The set and byte that an offset of a hub's block lies in: sets 0 to 3 of the partitions, 4 of the secure world. -/
def iommuAt (off : Nat) : Option (Hub × Nat × Nat) :=
  let rel := off % 0x1000_0000
  if off < 0x2000_0000 ∧ 0x10_0000 ≤ rel ∧ rel < 0x15_0000 then
    some (hubOf (off / 0x1000_0000), (rel - 0x10_0000) / 0x1_0000, rel % 0x1_0000)
  else none

/-- The capabilities that R324 states, and the bits of the register that it states; the other bits are free. -/
def iommuCaps : Nat :=
  let stated := [9, 10, 11, 17, 18, 19, 21, 22, 23, 24, 25, 26, 31]
  let ones := [9, 10, 11, 17, 18, 19, 22, 24, 31]
  let bits (xs : List Nat) : Nat := (xs.map (2 ^ ·)).foldl (· + ·) 0
  ((Config.iommuCaps.toNat &&& (2 ^ 56 - 256)) &&& (2 ^ 64 - 1 - bits stated)) ||| bits ones ||| 0x10

/-- Word of a set. -/
def iommuWord (b : Block) (h : Hub) (set w : Nat) : Nat :=
  if w = 0 then iommuCaps else ((getIo b h).iommu.get 0 (set * 8192 + w)).toNat

/-- Write within a set: capabilities are read-only, the other words are kept as written (log entry 7). -/
def iommuWrite (b : Block) (x : Hub × Nat × Nat) (size v : Nat) : Block :=
  let w := x.2.2 / 8
  let new := mergeBytes (iommuWord b x.1 x.2.1 w) (x.2.2 % 8) size v
  if w = 0 then b
  else updIo b x.1 fun i => { i with iommu := i.iommu.set 0 (x.2.1 * 8192 + w) (BitVec.ofNat 64 new) }

/-! ## Reads -/

/-- A read of the control space by a caller: the value, or none where R11, R28, R31 or R550 refuses it. -/
def regRead (b : Block) (c : Caller) (off size : Nat) : Option Nat :=
  if accepts b c off false = false then none
  else if 0x4000_0000 ≤ off then pageRead b ((off - 0x4000_0000) / 0x1_0000) (off % 0x1_0000) size
  else match iommuAt off with
  | some (h, set, o) => if wordAccess o size then some (iommuWord b h set (o / 8) >>> (8 * (o % 8)) % 2 ^ (8 * size)) else none
  | none =>
    match regOf off size with
    | none => none
    | some (reg, lo, _) =>
      let rel := reg % 0x1000_0000
      let absent := decide (reg < 0x2000_0000 ∧ 0x7_0000 ≤ rel ∧ rel < 0x7_4000) &&
        !fon b (evrSet (.ring (hubOf (reg / 0x1000_0000)) (Fin.ofNat 64 ((rel - 0x7_0000) / 0x100)))) HUB_EVR_STATUS_CREATED
      some (if absent then 0 else regView b reg >>> (8 * lo) % 2 ^ (8 * size))

/-! ## Writes, field by field (R12) -/

/-- Progress of a write over the fields of a register. -/
structure FldWrite where
  value : Nat
  /-- Bits of RW1C fields to clear, and of WO fields that act. -/
  clears : List Nat := []
  acts : List Nat := []
  /-- A field's write was ignored for its suffix -S or its lock. -/
  ignored : Bool := false
deriving DecidableEq, Repr

/-- Bits of a range that are 1 in a value. -/
def onesIn (v hi lo : Nat) : List Nat := ((List.range (hi + 1 - lo)).map (lo + ·)).filter fun i => bitOf v i

/-- Write one field: `new` is the register with the written bytes in place, from bit `first` to bit `last`. -/
def writeFld (c : Caller) (locked : Bool) (new first last : Nat) (w : FldWrite) (f : FldDef) : FldWrite :=
  let hi := min f.hi last
  let lo := max f.lo first
  if hi < lo then w
  else
    let allowed := (!f.sec || c.world) && !(f.acc == .rwl && locked)
    match f.acc with
    | .ro => w
    | .rw => if allowed then { w with value := putBits w.value hi lo (bitsOf new hi lo) } else { w with ignored := true }
    | .rwl => if allowed then { w with value := putBits w.value hi lo (bitsOf new hi lo) } else { w with ignored := true }
    | .rw1c => { w with clears := w.clears ++ onesIn new hi lo }
    | .wo =>
      let ones := onesIn new hi lo
      if ones.isEmpty then w
      else if allowed then { w with acts := w.acts ++ ones } else { w with ignored := true }

/-- Clear the counters that a CNT_CLEAR bit of a register clears (R121 and the cards of the counters). -/
def clearCounters (b : Block) (reg : Nat) (r : RegRow) (bit : Nat) : Block :=
  let k := rowKey reg r
  let b := match cntClearTable.find? fun x => x.1 == k.1 && x.2.1 == k.2 && x.2.2.1 == bit with
    | some (_, _, _, d, n) => forEach (List.range n) (fun i b => wr b (reg + d + 4 * i) 0) b
    | none => b
  match clearFields.find? fun x => x.1 == k.1 && x.2.1 == k.2 && x.2.2.1 == bit with
  | some (_, _, _, fs) => forEach fs (fun f b => fset b reg f 0) b
  | none => b

/-- The link end whose LINK_CTRL a register is. -/
def ctrlEnd (reg : Nat) : Option LinkId :=
  let rel := (relOf reg).2
  match (relOf reg).1 with
  | .fcd => if rel = 0x400 then some (.die (Fin.ofNat 12 ((reg - 0x2000_0000) / 0x10_0000))) else none
  | .page => none
  | _ =>
    if 0x1_0000 ≤ rel ∧ rel < 0x1_0800 ∧ rel % 0x100 = 0 then
      some (.hub (hubOf (reg / 0x1000_0000)) (Fin.ofNat 8 ((rel - 0x1_0000) / 0x100)))
    else if 0x5_0000 ≤ rel ∧ rel < 0x5_0200 ∧ rel % 0x100 = 0 then
      some (.hwy (hubOf (reg / 0x1000_0000)) (Fin.ofNat 2 ((rel - 0x5_0000) / 0x100)))
    else none

/-- The WO fields of LINK_CTRL (R119): CNT_CLEAR besides, TAKE_DOWN alone, then RESTART, RETRAIN, START. -/
def linkActions (b : Block) (e : LinkId) (acts : List Nat) : Block :=
  if acts.contains 26 then linkDo b e 3
  else if acts.contains 28 then linkDo b e 2
  else if acts.contains 25 then linkDo b e 1
  else if acts.contains 24 then linkDo b e 0
  else b

/-- Report a register that was written with a value that cannot match (R35, R458). -/
def reportValue (b : Block) (reg cls : Nat) : Block :=
  raise b (agIo (hubOf (reg / 0x1000_0000))) 20 cls 4 sevInfo 0 (place reg 43 8) (rd b reg)

/-- QMASK values of R35. -/
def qmaskValid (q : Nat) : Bool := [1, 2, 4, 8, 3, 12, 5, 6, 9, 10, 15].contains q

/-- What follows a write of a home group or a host-port window: the report of one that matches no address (R35, R458). -/
def afterMap (b : Block) (reg : Nat) : Block :=
  let rel := reg % 0x1000_0000
  let h := hubOf (reg / 0x1000_0000)
  if 0x1000 ≤ rel ∧ rel < 0x1100 then
    let v := rd b reg
    if bitsOf v 15 0 ≠ 0 ∧ qmaskValid (bitsOf v 55 52) = false then reportValue b reg 0 else b
  else if 0x3000 ≤ rel ∧ rel < 0x3400 then
    let w := (rel - 0x3000) / 16
    let v := rd b (HUB_HPW_BASE h w)
    if bitOf v 63 ∧ (portExists b h (bitsOf v 55 52) && portQuarter h (bitsOf v 55 52) == winQuarter h w) = false then
      reportValue b (HUB_HPW_BASE h w) 7
    else b
  else b

/-- RESET of a guest site changes (R236, R238, R382). -/
def guestSet (b : Block) (h : Hub) (hold : Bool) : Block :=
  if hold then guestHold b h
  else if fon b (SPUR_GUEST_CTRL h) SPUR_GUEST_CTRL_RESET = false then b
  else
    let b := guestFree b h
    if fon b (SPUR_GUEST_CTRL h) SPUR_GUEST_CTRL_RESET then b else linkStart b (.hub h 6)

/-- What the fields of a write do beside their values. -/
def regActs (b : Block) (reg : Nat) (r : RegRow) (acts : List Nat) : Block :=
  let b := forEach acts (fun bit b => clearCounters b reg r bit) b
  let rel := (relOf reg).2
  let h := hubOf (reg / 0x1000_0000)
  match ctrlEnd reg with
  | some e => linkActions b e acts
  | none =>
    if 0x2000_0000 ≤ reg ∨ acts = [] then b
    else if 0x7_0000 ≤ rel ∧ rel < 0x7_4000 then takeRing b (.ring h (Fin.ofNat 64 ((rel - 0x7_0000) / 0x100)))
    else if 0x7_4000 ≤ rel ∧ rel < 0x7_4200 then takeRing b (.ao h (Fin.ofNat 2 ((rel - 0x7_4000) / 0x100)))
    else if 0x48_0000 ≤ rel ∧ rel < 0x48_0800 then commitWrite b h ((rel - 0x48_0000) / 8)
    else b

/-- Store the fields of a write, report what it ignored, and act. -/
def storeFields (b : Block) (c : Caller) (reg lo size new : Nat) (r : RegRow) : Block :=
  let start : FldWrite := { value := rd b reg }
  let w := r.flds.foldl (writeFld c (regLocked b reg) new (8 * lo) (8 * (lo + size) - 1)) start
  let b := wr b reg w.value
  let b := if w.ignored then reportAccess b c (reg + lo) (callerHdr b c (reg + lo) true) else b
  regActs (forEach w.clears (fun i b => clearStatus b reg i) b) reg r w.acts

/-- A write of LINK_CTRL: a refused WIDTH_CAP and SEGMENT stay as they are, and set CAP_INVALID (R119). -/
def linkCtrlWrite (b : Block) (c : Caller) (reg lo size v : Nat) (r : RegRow) (e : LinkId) : Block :=
  let old := rd b reg
  let new := mergeBytes old lo size v
  let width := bitsOf new 1 0
  let bad := c.world && (width == 3 || (width == 1 && decide (2 ≤ bitsOf new 3 2)))
  if bad then storeFields (setStatus b (LINK_ERR e) 8) c reg lo size (putBits new 3 0 (bitsOf old 3 0)) r
  else storeFields b c reg lo size new r

/-- HUB_WAKE_PINS: the fields of a pin of the secure world have the suffix -S (R321). -/
def wakePins (b : Block) (c : Caller) (reg lo size v : Nat) : Block :=
  let old := rd b reg
  let new := mergeBytes old lo size v
  let claimed := if c.world then 0 else rd b (HUB_PIN_WORLD (hubOf (reg / 0x1000_0000)))
  let keep := claimed * (2 ^ 32 + 1)
  let b := wr b reg ((new &&& (2 ^ 64 - 1 - keep)) ||| (old &&& keep))
  if claimed = 0 then b else reportAccess b c (reg + lo) (callerHdr b c (reg + lo) true)

/-- A write within a channel page: RING only in state created, the doorbell and CTRL as chapter 14 gives. -/
def channelWrite (b : Block) (c : Caller) (reg lo size v : Nat) (r : RegRow) : Block :=
  let h := hubOf (reg / 0x1000_0000)
  let n := (reg % 0x1000_0000 - 0x200_0000) / 0x1000
  match r.off % 0x1000 with
  | 0x00 => dmDoorbell b h n v
  | 0x08 => dmCtrl b h n v
  | 0x18 => dmRing b h n (mergeBytes (rd b reg) lo size v)
  | _ => storeFields b c reg lo size (mergeBytes (rd b reg) lo size v) r

/-- A write of a register that a row describes. -/
def rowWrite (b : Block) (c : Caller) (reg lo size v : Nat) (r : RegRow) : Block :=
  let rel := (relOf reg).2
  let hub := decide (reg < 0x2000_0000)
  let h := hubOf (reg / 0x1000_0000)
  match ctrlEnd reg with
  | some e => linkCtrlWrite b c reg lo size v r e
  | none =>
    if rel = 0x20 then
      if c.th then (if bitOf v 0 ∧ lo = 0 then wr b reg 1 else b) else reportAccess b c reg (callerHdr b c reg true)
    else if hub && decide (0x200_0000 ≤ rel ∧ rel < 0x280_0000) then channelWrite b c reg lo size v r
    else if hub && decide (rel = 0x818) then wakePins b c reg lo size v
    else if hub && decide (0x40_0000 ≤ rel ∧ rel < 0x48_0000 ∧ rel % 0x800 < 0x400) then
      activeWrite b h ((rel - 0x40_0000) / 0x800) (rel % 0x800 / 16)
    else if hub && decide (rel = 0x400) then
      let new := mergeBytes (rd b reg) lo size v
      let was := fon b reg SPUR_GUEST_CTRL_RESET
      let b := storeFields b c reg lo size (putBits new 8 8 (b2n was)) r
      if c.world && decide (lo ≤ 1) && (bitOf new 8 != was) then guestSet b h (bitOf new 8) else b
    else
      let new := mergeBytes (rd b reg) lo size v
      let b := storeFields b c reg lo size new r
      if hub then afterMap b reg else b

/-- Write a register of the control space: refused by R11, R28, R31, R51 or R550, or performed by R12. -/
def regWrite (b : Block) (c : Caller) (off size v : Nat) : Block :=
  let refuse := refuseWrite b c off (callerHdr b c off true)
  let v := v % 2 ^ (8 * size)
  if accepts b c off true = false then refuse
  else if 0x4000_0000 ≤ off then (pageWrite b c ((off - 0x4000_0000) / 0x1_0000) (off % 0x1_0000) size v).getD refuse
  else match iommuAt off with
  | some x => if wordAccess x.2.2 size then iommuWrite b x size v else refuse
  | none =>
    match regOf off size with
    | some (reg, lo, r) => rowWrite b c reg lo size v r
    | none => refuse

/-! ## CSRs -/

/-- The S-level CSRs that a VS-mode access replaces by their VS copies (RISC-V privileged specification, log entry 6). -/
def vsCopies : List Nat := [0x100, 0x104, 0x105, 0x140, 0x141, 0x142, 0x143, 0x144, 0x180]

/-- Is a translation mode one of R296: Bare, or 39, 48 and 57 bits? -/
def modeKnown (v : Nat) : Bool := [0, 8, 9, 10].contains (bitsOf v 63 60)

/-- Bits of mstatus that sstatus shows and writes. -/
abbrev sstatusMask : Nat := 0xC_6762

/-- Store a CSR by its own rule; the custom ones by their fields. -/
def csrStore (b : Block) (i num v : Nat) : Block :=
  let masked (reg mask : Nat) : Block :=
    wrCsr b i reg ((rdCsr b i reg &&& (2 ^ 64 - 1 - mask)) ||| (v &&& mask))
  match csrRow num with
  | some r =>
    (r.flds.filter fun f => f.acc == .rw).foldl (fun b f => csrPut b i num f.hi f.lo (bitsOf v f.hi f.lo)) b
  | none =>
    if num = 0x100 then masked csrMstatus sstatusMask
    else if num = 0x104 then masked 0x304 (rdCsr b i csrMideleg)
    else if num = 0x144 then masked 0x344 (rdCsr b i csrMideleg &&& 2)
    else if num = 0x180 ∨ num = 0x280 ∨ num = 0x680 then (if modeKnown v then wrCsr b i num v else b)
    else if num = 0x141 ∨ num = 0x241 ∨ num = 0x341 then wrCsr b i num (v / 2 * 2)
    else wrCsr b i num v

/-- Rank of a mode for CSR access: VS ranks as S, VU as U. -/
def csrRank : Priv → Nat
  | .m => 3
  | .hs => 2
  | .vs => 1
  | .u => 0
  | .vu => 0

/-- Ranges of CSR numbers for custom use; the spec describes the ones that exist. -/
def customCsr (num : Nat) : Bool :=
  let hi := num / 64
  [0x5C0, 0x6C0, 0x7C0, 0x9C0, 0xAC0, 0xBC0, 0xCC0, 0xDC0, 0xEC0, 0xFC0].contains (hi * 64) || num / 256 == 8

/-- A CSR write of a hart: illegal where the CSR is read-only, absent or of a higher level (the CSRs' descriptions; RISC-V
privileged specification); FCD_WORLD, FCD_BINV and FCD_L2_SETWAY act by their own rows. -/
def csrWrite (b : Block) (i num : Nat) (value : Word) : Block :=
  let v := value.toNat
  if num = FCD_WORLD then runWorldWrite b i value
  else if num = FCD_BINV then runBinvWrite b i value
  else if num = FCD_L2_SETWAY ∧ (bitsOf v 37 36 = 1 ∨ bitsOf v 37 36 = 2) then
    runSetway b i (bitsOf v 26 16) (bitsOf v 35 32) (bitsOf v 37 36 == 2)
  else runInstr b i 0 fun b =>
    let p := (getHart b i).priv
    let need := num / 256 % 4
    if num / 1024 = 3 ∨ (customCsr num && (csrRow num).isNone) = true then exception b i excIllegal 0
    else if isVirt p && need != 0 && need != 3 && !(p == .vs && need == 1) then exception b i excVirtual 0
    else if csrRank p < need then exception b i excIllegal 0
    else if p == .hs && num == 0x180 && csrBit b i csrMstatus 20 then exception b i excIllegal 0
    else if p == .vs && num == 0x180 && csrBit b i csrHstatus 20 then exception b i excVirtual 0
    else
      let num := if p == .vs && vsCopies.contains num then num + 0x100 else num
      let b := csrStore b i num v
      if num = csrMinstret then popInstr b i else retire b i

/-! ## The rows -/

/-- REGISTER_WRITE; a CSR is written by its own hart alone. -/
def execRegisterWrite (src : Source) (target : RegTarget) (size : Nat) (value : Word) (s : State) :
    Host.Outcome State Fault Refusal :=
  nextBlk s (match target with
    | .space off => regWrite s.blk (callerOf s.blk src) off size value.toNat
    | .csr h num => if src = .hart h then csrWrite s.blk h.val num.val value else s.blk)

/-- STATUS_BIT_CLEAR: a software clear of an RW1C bit, which a hardware set in the same cycle wins (R12, R513). -/
def statusClear (b : Block) (src : Source) (off bit : Nat) (meets : Bool) : Block :=
  match rowAt off with
  | none => refuseWrite b (callerOf b src) off (callerHdr b (callerOf b src) off true)
  | some r =>
    if r.flds.any fun f => f.acc == .rw1c && decide (f.lo ≤ bit ∧ bit ≤ f.hi) then
      regAction b src off fun _ =>
        let b := if meets then setStatusRace b off bit else clearStatus b off bit
        if off = TH_MBX_STATE 18 then epIntx b .n else if off = TH_MBX_STATE 19 then epIntx b .s else b
    else regAction b src off fun _ => b

def execStatusBitClear (src : Source) (off : Nat) (bit : Fin 64) (setMeets : Bool) (s : State) :
    Host.Outcome State Fault Refusal := nextBlk s (statusClear s.blk src off bit.val setMeets)

/-- CNT_CLEAR. -/
def cntClear (b : Block) (src : Source) (off : Nat) : Block :=
  match rowAt off with
  | none => refuseWrite b (callerOf b src) off (callerHdr b (callerOf b src) off true)
  | some r => secAction b src off fun _ => forEach (List.range 64) (fun bit b => clearCounters b off r bit) b

def execCntClear (src : Source) (off : Nat) (s : State) : Host.Outcome State Fault Refusal := nextBlk s (cntClear s.blk src off)

/-- HOME_GROUP_WRITE (R35, R37, R38). -/
def execHomeGroupWrite (src : Source) (hub : Hub) (g : Fin 32) (value : Word) (s : State) : Host.Outcome State Fault Refusal :=
  nextBlk s (regWrite s.blk (callerOf s.blk src) (HUB_HOME_GROUP hub g.val) 8 value.toNat)

/-- HPW_WRITE (R457, R458). -/
def execHpwWrite (src : Source) (hub : Hub) (w : Fin 64) (sizeHalf : Bool) (value : Word) (s : State) :
    Host.Outcome State Fault Refusal :=
  let reg := if sizeHalf then HUB_HPW_SIZE hub w.val else HUB_HPW_BASE hub w.val
  nextBlk s (regWrite s.blk (callerOf s.blk src) reg 8 value.toNat)

/-- LINK_CAP_WRITE (R119). -/
def execLinkCapWrite (src : Source) (link : LinkId) (width segment : Fin 4) (s : State) : Host.Outcome State Fault Refusal :=
  nextBlk s (secAction s.blk src (LINK_CTRL link) fun _ => linkCap s.blk link width.val segment.val)

/-- LINK_START (R99, R119). -/
def execLinkStart (src : Source) (link : LinkId) (s : State) : Host.Outcome State Fault Refusal :=
  nextBlk s (secAction s.blk src (LINK_CTRL link) fun _ => linkDo s.blk link 0)

/-- LINK_RETRAIN (R109, R119). -/
def execLinkRetrain (src : Source) (link : LinkId) (s : State) : Host.Outcome State Fault Refusal :=
  nextBlk s (secAction s.blk src (LINK_CTRL link) fun _ => linkDo s.blk link 1)

/-- LINK_RESTART (R109, R119). -/
def execLinkRestart (src : Source) (link : LinkId) (s : State) : Host.Outcome State Fault Refusal :=
  nextBlk s (secAction s.blk src (LINK_CTRL link) fun _ => linkDo s.blk link 2)

/-- LINK_TAKE_DOWN (R119). -/
def execLinkTakeDown (src : Source) (link : LinkId) (s : State) : Host.Outcome State Fault Refusal :=
  nextBlk s (secAction s.blk src (LINK_CTRL link) fun _ => linkDo s.blk link 3)

/-- GUEST_RESET (R238, R533). -/
def execGuestReset (src : Source) (hub : Hub) (hold : Bool) (s : State) : Host.Outcome State Fault Refusal :=
  nextBlk s (secAction s.blk src (SPUR_GUEST_CTRL hub) fun _ => guestSet s.blk hub hold)

end Sys2Proof.Machine
end

