-- ==== Sys2Proof/Machine/Pio.lean ====
section
/-! DEFINITION. I/O messages at their destinations (R30, R191, R257 to R259, R316, R317, R453, R456, R459, R462, R551): at home
slices, at the I/O agents for the control space and the host-port windows, and at agents that serve none. -/

namespace Sys2Proof.Machine

/-! ## The performer of a control-space access -/

/-- The caller that an I/O message makes at the I/O agent of hub `h` (R551). -/
def pioCaller (b : Block) (h : Hub) (m : Hdr) : Caller :=
  let n := hSrc m
  let a := nodeAgent n
  let own := nodePkg n == pkgNo b
  let part := if own && decide (a < 12) then diePart b a
    else if own && decide (a < 14) then sitePart b (hubOf (a % 2))
    else if own then some (msgPart b h m (pioPa m)) else joinedPart b
  { hub := h, part := part, world := hWorld m, node := n, th := own && a / 2 == 11 }

/-- Bytes of an I/O message. -/
def pioBytes (m : Hdr) : Nat := pioLen m + 1
def pioBe (m : Hdr) : Word := beOf (pioPa m % 64) (pioBytes m)

/-- A message that a world region, or a claimed port, refuses at the I/O agent (R316, R317, R462). -/
def deniedPio (b : Block) (h : Hub) (unit : Nat) (m : Hdr) : Block := homeRefuse (countDenied b h (agIo h) unit (pioPa m) m) h m

/-- An IoWr to the control space: a poisoned one is not performed (R30). -/
def ctlWrite (b : Block) (h : Hub) (off : Nat) (m : Msg) : Block :=
  let c := pioCaller b h m.hdr
  if pioPoison m.hdr &&& beWords (pioBe m.hdr) ≠ 0 then refuseWrite b c off (m.hdr.toNat % 2 ^ 64)
  else regWrite b c off (pioBytes m.hdr) (lineBytes m.data (pioPa m.hdr % 64) (pioBytes m.hdr))

/-- An IoRd of the control space: answered with the value, or refused with a record. -/
def ctlRead (b : Block) (h : Hub) (off : Nat) (m : Hdr) : Block :=
  match regRead b (pioCaller b h m) off (pioBytes m) with
  | some v =>
    hubPut b h { hdr := mkDat opCompData (hWorld m) (hSrc m) (hDst m) (hTag m) stI stsOk 0 (pioBe m) 0
                 data := lineOf (pioPa m % 64) (pioBytes m) v }
  | none => homeRefuse (reportPio b h m) h m

/-! ## Host-port windows (R459) -/

/-- Record an outstanding transaction of a port and its tag. -/
def addPcie (b : Block) (h : Hub) (port : Fin 16) (m : Hdr) (write : Bool) (w : Nat) : Nat × Block :=
  let t := (getIo b h).nextPcie
  (t, updIo b h fun i => { i with
    nextPcie := t + 1, pcie := i.pcie ++ [{ port := some port, tag := t, hdr := m, write := write, window := w }] })

/-- A request for a port that is not DL_Active: an error, or a lost write (R456). -/
def deadPort (b : Block) (h : Hub) (port : Fin 16) (m : Hdr) : Block :=
  homeRefuse (raise b (agIo h) port.val 7 7 sevDefer (4 * b2n (hWorld m)) (pioPa m) (m.toNat % 2 ^ 64)) h m

/-- A KIND 0 window: MRd and MWr at the address. -/
def memWindow (b : Block) (h : Hub) (w : Nat) (port : Fin 16) (m : Msg) : Block :=
  let pa := pioPa m.hdr
  if portReady b h port.val = false then deadPort b h port m.hdr
  else if hOp m.hdr = opIoWr then
    let src := hSrc m.hdr
    let add (l : List WinWrites) : List WinWrites :=
      match l.find? fun x => x.src == src && x.window == w with
      | some x => l.map fun y => if y = x then { y with count := y.count + 1, last := pa } else y
      | none => l ++ [{ src := src, window := w, count := 1, last := pa }]
    emit (updIo b h fun i => { i with wins := add i.wins }) (.mwr h (some port) pa m.data (pioBe m.hdr) (pioPoison m.hdr))
  else
    let (t, b) := addPcie b h port m.hdr false w
    emit b (.mrd h (some port) pa (pioBytes m.hdr) t)

/-- A KIND 2 window: configuration requests by ECAM. The port's own header is served whatever its milepost holds (R453); the
spec does not give what it holds, so a read of it is free (log entry 57). -/
def cfgWindow (b : Block) (h : Hub) (w : Nat) (port : Fin 16) (m : Msg) : Block :=
  let off := pioPa m.hdr - fget b (HUB_HPW_BASE h w) HUB_HPW_BASE_BASE * 4096
  let bdf := bitsOf off 27 12
  let reg := bitsOf off 11 0
  let write := hOp m.hdr == opIoWr
  if bdf = 0 then
    if write then b
    else
      let (v, b) := freeLine b
      hubPut b h { hdr := mkDat opCompData (hWorld m.hdr) (hSrc m.hdr) (hDst m.hdr) (hTag m.hdr) stI stsOk 0 (pioBe m.hdr) 0
                   data := v &&& beMask (pioBe m.hdr) }
  else if portReady b h port.val = false then deadPort b h port m.hdr
  else
    let (t, b) := addPcie b h port m.hdr write w
    emit b (if write then .cfgWr h port bdf reg m.data (pioBe m.hdr) t else .cfgRd h port bdf reg t)

/-- Serve a message at the I/O agent of hub `h`. -/
def ioServe (b : Block) (h : Hub) (m : Msg) : Block :=
  let c := pioCaller b h m.hdr
  let part := c.part.getD (msgPart b h m.hdr (pioPa m.hdr))
  let write := hOp m.hdr == opIoWr
  let claimed (p : Nat) : Bool := (getPort b h p).claimed && !hWorld m.hdr
  if !hWorld m.hdr && inRegion b h part (pioPa m.hdr) then deniedPio b h 20 m.hdr
  else match decodePa b h part (pioPa m.hdr) with
  | .ctl off =>
    if (guestSpace off).isSome then homeRefuse (reportPio b h m.hdr) h m.hdr
    else if write then ctlWrite b h off m else ctlRead b h off m.hdr
  | .win wh w kind port =>
    if wh = h ∧ kind ≠ 1 then
      if claimed port then deniedPio b h port m.hdr
      else if kind = 0 then memWindow b h w (Fin.ofNat 16 port) m else cfgWindow b h w (Fin.ofNat 16 port) m
    else homeRefuse (reportPio b h m.hdr) h m.hdr
  | _ => homeRefuse (reportPio b h m.hdr) h m.hdr

/-- Has the port that a message is for accepted a power request, so that it takes nothing (R405)? -/
def portHolds (b : Block) (h : Hub) (m : Hdr) : Bool :=
  match decodePa b h (msgPart b h m (pioPa m)) (pioPa m) with
  | .win wh _ kind port => wh == h && kind != 1 && hasAccepted b (1024 + h.idx * 16 + port)
  | _ => false

/-- The oldest I/O message of an agent's box, where it has the opcode. -/
def popPio (b : Block) (key op : Nat) : Option (Msg × Block) :=
  if boxHeadIs b key vcPio op then popBox b key vcPio else none

/-- IO_WR and IO_RD at a destination: a slice, an I/O agent, or an agent that serves no I/O request and refuses it (R150). -/
def ioArrive (b : Block) (t : IoTarget) (op : Nat) : Block :=
  match t with
  | .slice h s => serveReq b h s.val vcPio op .io
  | .io h =>
    match popPio b (boxIo h) op with
    | some (m, b') => if portHolds b h m.hdr then b else ioServe b' h m
    | none => b
  | .dm h =>
    match popPio b (boxDm h) op with
    | some (m, b) => homeRefuse (reportPio b h m.hdr) h m.hdr
    | none => b
  | .th h =>
    match popPio b (boxTh h) op with
    | some (m, b) => homeRefuse (reportPio b h m.hdr) h m.hdr
    | none => b

/-- IO_WR (R191, R257). -/
def execIoWr (target : IoTarget) (s : State) : Host.Outcome State Fault Refusal := nextBlk s (ioArrive s.blk target opIoWr)

/-- IO_RD (R191). -/
def execIoRd (target : IoTarget) (s : State) : Host.Outcome State Fault Refusal := nextBlk s (ioArrive s.blk target opIoRd)

/-! ## MsFlush (R257 to R259) -/

/-- Answer an MsFlush with the writes from its source that were discarded since the previous answer. -/
def flushAnswer (b : Block) (h : Hub) (m : Hdr) : Block :=
  let n := lostOf b 0 (hSrc m) (hDst m)
  let b := clearLost b 0 (hSrc m) (hDst m)
  hubPut b h { hdr := mkComp (hWorld m) (hSrc m) (hDst m) (hTag m) stI (if n = 0 then stsOk else stsLost) (lostField n) }

/-- Has a source an IoWr at the slices of a hub whose merge has not finished? -/
def slicesOwe (b : Block) (h : Hub) (src : Nat) : Bool :=
  (List.range 32).any fun s =>
    ((getBox b (boxSlice h s) vcPio).any fun m => hOp m.hdr == opIoWr && hSrc m.hdr == src) ||
      (getSlice b h s).trackers.any fun t => t.kind == .io && hOp t.hdr == opIoWr && hSrc t.hdr == src

/-- The flush reads of an MsFlush: one to each window that its source has written, where the port is up (R258). -/
def flushWins (h : Hub) : List WinWrites → FlushWait → Block → FlushWait × Block
  | [], f, b => (f, b)
  | x :: rest, f, b =>
    let port := fget b (HUB_HPW_BASE h x.window) HUB_HPW_BASE_PORT
    if portReady b h port then
      let t := (getIo b h).nextPcie
      let b := updIo b h fun i => { i with nextPcie := t + 1 }
      flushWins h rest { f with windows := f.windows ++ [(x.window, x.count)] } (emit b (.mrd h (some (Fin.ofNat 16 port)) x.last 0 t))
    else flushWins h rest { f with lost := f.lost + x.count } b

/-- An MsFlush at an I/O agent: it waits for its flush reads and for its source's configuration writes. -/
def ioFlush (b : Block) (h : Hub) (m : Hdr) : Block :=
  let mine (x : WinWrites) : Bool := x.src == hSrc m
  let wins := (getIo b h).wins.filter mine
  let cfgs := ((getIo b h).pcie.filter fun r => r.write && r.mem.isNone && hSrc r.hdr == hSrc m).map (·.tag)
  let b := updIo b h fun i => { i with wins := i.wins.filter fun x => !mine x }
  let (f, b) := flushWins h wins { hdr := m, windows := [], cfgs := cfgs, lost := 0 } b
  settleFlushes (updIo b h fun i => { i with flushes := i.flushes ++ [f] }) h

/-- MS_FLUSH at a destination. -/
def flushArrive (b : Block) (t : FlushTarget) : Block :=
  match t with
  | .home h =>
    match popPio b (boxHome h) opMsFlush with
    | some (m, b') => if slicesOwe b h (hSrc m.hdr) then b else flushAnswer b' h m.hdr
    | none => b
  | .io h =>
    match popPio b (boxIo h) opMsFlush with
    | some (m, b) => ioFlush b h m.hdr
    | none => b
  | .dm h =>
    match popPio b (boxDm h) opMsFlush with
    | some (m, b) => flushAnswer b h m.hdr
    | none => b
  | .th h =>
    match popPio b (boxTh h) opMsFlush with
    | some (m, b) => flushAnswer b h m.hdr
    | none => b

def execMsFlush (target : FlushTarget) (s : State) : Host.Outcome State Fault Refusal := nextBlk s (flushArrive s.blk target)

end Sys2Proof.Machine
end

