-- ==== Sys2Proof/Machine/Spur.lean ====
section
/-! DEFINITION. The spur: sideband messages of the guest and the timer of what the guest is asked (R233 to R236, R241). -/

namespace Sys2Proof.Machine

/-- Reserved payload bits of a sideband message, by SB_OP (R234). -/
def sbReserved (p : Word) : Bool :=
  let n := p.toNat
  match n % 16 with
  | 1 => n / 2 ^ 23 != 0
  | 2 => bitOf n 7 || n / 2 ^ 32 != 0
  | 3 => n / 2 ^ 12 != 0
  | 4 => n / 2 ^ 16 != 0
  | 5 => n / 2 ^ 24 != 0
  | 6 => n / 16 != 0
  | _ => true

/-- Ignore a sideband message: SB_FAULT, and a violation (R234, R243). -/
def sbFault (b : Block) (h : Hub) : Block := violate (bumpErr b (CNT_SPUR h 2) (agHome h) 38 2 sevDefer) h

/-- Is the class permitted (R235)? -/
def classAllowed (b : Block) (h : Hub) (cClass : Bool) : Bool :=
  match fget b (SPUR_GUEST_CTRL h) SPUR_GUEST_CTRL_CLASS_ALLOW with
  | 1 => !cClass
  | 2 => true
  | _ => false

/-- Conditions of R235 on the OFFER itself. -/
def offerOk (b : Block) (h : Hub) (n : Nat) : Bool :=
  bitsOf n 14 10 == agGuest h && bitsOf n 9 8 == 2 && offerValid (bitsOf n 5 4) (bitsOf n 7 6) &&
    bitsOf n 19 16 == 1 && classAllowed b h (bitOf n 15)

/-- The guest's OFFER (R235): recorded while the end is in OFFER. -/
def sbOffer (b : Block) (h : Hub) (p : Word) : Block :=
  if linkState b (.hub h 6) ≠ 2 then b
  else
    let n := p.toNat
    let r := SPUR_BRINGUP h
    let b := updSpur b h fun s => { s with offer := some p, allots := [] }
    let b := fset b r SPUR_BRINGUP_REVISION (bitsOf n 19 16)
    let b := fset b r SPUR_BRINGUP_CLASS (b2n (bitOf n 15))
    let b := fset b r SPUR_BRINGUP_OFFER_SEEN 1
    fset b r SPUR_BRINGUP_OFFER_FAULT (b2n (!offerOk b h n))

/-- Does an allotment meet R144 for a class? -/
def allotOk (cClass : Bool) (c hdr data : Nat) : Bool :=
  match c with
  | 0 => data == 0
  | 1 => data == 0 && (!cClass || hdr != 0)
  | 2 => data == 0 && hdr != 0
  | _ => data != 0 && hdr != 0

/-- A guest's ALLOT (R144, R235): the next channel in order; a fault is recorded with its channel. -/
def sbAllot (b : Block) (h : Hub) (p : Word) : Block :=
  let s := getSpur b h
  match s.offer with
  | none => b
  | some o =>
    if linkState b (.hub h 6) ≠ 2 ∨ 6 ≤ s.allots.length then b
    else
      let n := p.toNat
      let c := bitsOf n 6 4
      let hdr := bitsOf n 19 8
      let data := bitsOf n 31 20
      let r := SPUR_BRINGUP h
      let good := c == s.allots.length && allotOk (bitOf o.toNat 15) c hdr data
      let b := updSpur b h fun s => { s with allots := s.allots ++ [(hdr, data)] }
      if good || fon b r SPUR_BRINGUP_OFFER_FAULT then b
      else fset (fset b r SPUR_BRINGUP_OFFER_FAULT 1) r SPUR_BRINGUP_FAULT_VC s.allots.length

/-- The guest's RESULT (R236 step 5). -/
def sbResult (b : Block) (h : Hub) (p : Word) : Block :=
  if linkState b (.hub h 6) ≠ 3 then b
  else
    let r := LINK_LANE_TEST (.hub h 6)
    let b := updSpur b h fun s => { s with result := true }
    fset (fset b r LINK_LANE_TEST_PARTNER_QTESTED (bitsOf p.toNat 7 4)) r LINK_LANE_TEST_PARTNER_QFAIL (bitsOf p.toNat 11 8)

/-- The guest's PWR_RSP (R241): it counts where its SEQ is that of the request. -/
def sbPower (b : Block) (h : Hub) (p : Word) : Block :=
  let n := p.toNat
  updSpur b h fun s => match s.pwrReq with
    | some (_, seq) =>
      if bitsOf n 15 8 = seq then { s with pwrReq := none, pwrAns := some (bitsOf n 7 4, bitsOf n 23 16) } else s
    | none => s

/-- A vendor-defined sideband message of the guest (R234). -/
def sbTake (b : Block) (h : Hub) (p : Word) : Block :=
  if sbReserved p then sbFault b h
  else match p.toNat % 16 with
  | 1 => sbOffer b h p
  | 2 => sbAllot b h p
  | 3 => sbResult b h p
  | 5 => sbPower b h p
  | _ => b

def execOffer (hub : Hub) (payload : Word) (s : State) : Host.Outcome State Fault Refusal :=
  nextBlk s (if payload.toNat % 16 = 1 then sbTake s.blk hub payload else s.blk)
def execAllot (hub : Hub) (payload : Word) (s : State) : Host.Outcome State Fault Refusal :=
  nextBlk s (if payload.toNat % 16 = 2 then sbTake s.blk hub payload else s.blk)
def execResult (hub : Hub) (payload : Word) (s : State) : Host.Outcome State Fault Refusal :=
  nextBlk s (if payload.toNat % 16 = 3 then sbTake s.blk hub payload else s.blk)
def execPwrRsp (hub : Hub) (payload : Word) (s : State) : Host.Outcome State Fault Refusal :=
  nextBlk s (if payload.toNat % 16 = 5 then sbTake s.blk hub payload else s.blk)

/-- SB_FAULT (R234): another identifier, a reserved SB_OP or reserved payload bits. -/
def execSbFault (hub : Hub) (payload : Word) (vendorOk : Bool) (s : State) : Host.Outcome State Fault Refusal :=
  nextBlk s (if vendorOk && !sbReserved payload then s.blk else sbFault s.blk hub)

/-- PWR_RSP_TIMEOUT (R241): PWR_NO_ANSWER, a violation, and REFUSE with REASON 0xFF. -/
def pwrTimeout (b : Block) (h : Hub) : Block :=
  match (getSpur b h).pwrReq with
  | none => b
  | some _ =>
    let b := updSpur b h fun s => { s with pwrReq := none, pwrAns := some (2, 0xFF) }
    violate (bumpErr b (CNT_SPUR h 5) (agHome h) 38 2 sevDefer) h

def execPwrRspTimeout (hub : Hub) (s : State) : Host.Outcome State Fault Refusal := nextBlk s (pwrTimeout s.blk hub)

/-- The guest has not answered an IoRd or MsFlush in time (R233). -/
def pioTimeout (b : Block) (h : Hub) (src tag : Nat) : Block :=
  match takeFirst (fun m => hSrc m == src && hTag m == tag) (getSpur b h).pio with
  | none => b
  | some (m, rest) =>
    let b := updSpur b h fun s => { s with pio := rest }
    let b := hubPut b h { hdr := mkComp (hWorld m) (hSrc m) (hDst m) (hTag m) stI stsError 0 }
    let b := violate (bumpErr b (CNT_SPUR h 4) (agHome h) 38 2 sevDefer (m.toNat % 2 ^ 64)) h
    addOrphan b h (.pio src tag)

def execPioTimeout (hub : Hub) (srcNode : BitVec 8) (tag : BitVec 12) (s : State) : Host.Outcome State Fault Refusal :=
  nextBlk s (pioTimeout s.blk hub srcNode.toNat tag.toNat)

end Sys2Proof.Machine
end

