-- ==== Sys2Proof/Machine/Dispatch.lean ====
section
/-! DEFINITION. The meaning of each command: one arm per row of spec/opcode_table.json, in its order. -/

namespace Sys2Proof.Machine

/-- The effect of a command on everything but the queue. -/
def exec (i : Instr) (s : State) : Host.Outcome State Fault Refusal :=
  match i with
  | .registerWrite src target size value => Sys2Proof.Machine.execRegisterWrite src target size value s
  | .statusBitClear src off bit setMeets => Sys2Proof.Machine.execStatusBitClear src off bit setMeets s
  | .cntClear src off => Sys2Proof.Machine.execCntClear src off s
  | .homeGroupWrite src hub g value => Sys2Proof.Machine.execHomeGroupWrite src hub g value s
  | .hpwWrite src hub w sizeHalf value => Sys2Proof.Machine.execHpwWrite src hub w sizeHalf value s
  | .linkCapWrite src link width segment => Sys2Proof.Machine.execLinkCapWrite src link width segment s
  | .linkStart src link => Sys2Proof.Machine.execLinkStart src link s
  | .linkRetrain src link => Sys2Proof.Machine.execLinkRetrain src link s
  | .linkRestart src link => Sys2Proof.Machine.execLinkRestart src link s
  | .linkTakeDown src link => Sys2Proof.Machine.execLinkTakeDown src link s
  | .tollhouseBoot slotA slotB => Sys2Proof.Machine.execTollhouseBoot slotA slotB s
  | .hubSImageReceived image => Sys2Proof.Machine.execHubSImageReceived image s
  | .lockstepMismatch hub => Sys2Proof.Machine.execLockstepMismatch hub s
  | .ring src page => Sys2Proof.Machine.execRing src page s
  | .abort src page => Sys2Proof.Machine.execAbort src page s
  | .mbxHeaderWrite src page off size value => Sys2Proof.Machine.execMbxHeaderWrite src page off size value s
  | .commandComplete page => Sys2Proof.Machine.execCommandComplete page s
  | .commandTimeout page => Sys2Proof.Machine.execCommandTimeout page s
  | .i3cTransfer op => Sys2Proof.Machine.execI3cTransfer op s
  | .i3cAddressMatch port mode addressed => Sys2Proof.Machine.execI3cAddressMatch port mode addressed s
  | .thIdentityGet page => Sys2Proof.Machine.execThIdentityGet page s
  | .thEchoPayload page => Sys2Proof.Machine.execThEchoPayload page s
  | .thPoolQuery page => Sys2Proof.Machine.execThPoolQuery page s
  | .thHandleQuery page => Sys2Proof.Machine.execThHandleQuery page s
  | .thLinkStatusGet page => Sys2Proof.Machine.execThLinkStatusGet page s
  | .thLinkTrain page => Sys2Proof.Machine.execThLinkTrain page s
  | .thScLock page => Sys2Proof.Machine.execThScLock page s
  | .thScMaint page => Sys2Proof.Machine.execThScMaint page s
  | .thWorldRegionCreate page => Sys2Proof.Machine.execThWorldRegionCreate page s
  | .thWorldRegionDestroy page => Sys2Proof.Machine.execThWorldRegionDestroy page s
  | .thWorldClaim page => Sys2Proof.Machine.execThWorldClaim page s
  | .thMcRetainSet page => Sys2Proof.Machine.execThMcRetainSet page s
  | .thMcFreezeDump page => Sys2Proof.Machine.execThMcFreezeDump page s
  | .thMcRelease page => Sys2Proof.Machine.execThMcRelease page s
  | .thMcRetrain page => Sys2Proof.Machine.execThMcRetrain page s
  | .thPartitionPlanSet page => Sys2Proof.Machine.execThPartitionPlanSet page s
  | .thPartitionPlanGet page => Sys2Proof.Machine.execThPartitionPlanGet page s
  | .thReset page => Sys2Proof.Machine.execThReset page s
  | .thClockSourceSet page => Sys2Proof.Machine.execThClockSourceSet page s
  | .thSplitEnd page => Sys2Proof.Machine.execThSplitEnd page s
  | .thPkgStateSet page => Sys2Proof.Machine.execThPkgStateSet page s
  | .thPowerLimitSet page => Sys2Proof.Machine.execThPowerLimitSet page s
  | .thChannelCreate page => Sys2Proof.Machine.execThChannelCreate page s
  | .thChannelDestroy page => Sys2Proof.Machine.execThChannelDestroy page s
  | .thChannelDirtyLog page => Sys2Proof.Machine.execThChannelDirtyLog page s
  | .thChannelFreeze page => Sys2Proof.Machine.execThChannelFreeze page s
  | .thChannelRestore page => Sys2Proof.Machine.execThChannelRestore page s
  | .thPortConfigSet page => Sys2Proof.Machine.execThPortConfigSet page s
  | .thEpFunctionCreate page => Sys2Proof.Machine.execThEpFunctionCreate page s
  | .thEpFunctionDestroy page => Sys2Proof.Machine.execThEpFunctionDestroy page s
  | .thEpLendSet page => Sys2Proof.Machine.execThEpLendSet page s
  | .thFabricPlanSet page => Sys2Proof.Machine.execThFabricPlanSet page s
  | .thFabricRouteSelect page => Sys2Proof.Machine.execThFabricRouteSelect page s
  | .thWaveRun page => Sys2Proof.Machine.execThWaveRun page s
  | .thEventRingCreate page => Sys2Proof.Machine.execThEventRingCreate page s
  | .thEventRingDestroy page => Sys2Proof.Machine.execThEventRingDestroy page s
  | .thEventAoRead page => Sys2Proof.Machine.execThEventAoRead page s
  | .flitSend link => Sys2Proof.Machine.execFlitSend link s
  | .flitReceived link arrival => Sys2Proof.Machine.execFlitReceived link arrival s
  | .retryTimerExpiry link => Sys2Proof.Machine.execRetryTimerExpiry link s
  | .tollReturnTimeout link => Sys2Proof.Machine.execTollReturnTimeout link s
  | .crcWindow link => Sys2Proof.Machine.execCrcWindow link s
  | .lockDone link => Sys2Proof.Machine.execLockDone link s
  | .offerAccepted link ext => Sys2Proof.Machine.execOfferAccepted link ext s
  | .laneTestDone link failing partnerFail => Sys2Proof.Machine.execLaneTestDone link failing partnerFail s
  | .trainTimeout link => Sys2Proof.Machine.execTrainTimeout link s
  | .partnerLockSeen link => Sys2Proof.Machine.execPartnerLockSeen link s
  | .activeStable link => Sys2Proof.Machine.execActiveStable link s
  | .parkRequest link => Sys2Proof.Machine.execParkRequest link s
  | .parkRetry link => Sys2Proof.Machine.execParkRetry link s
  | .parkExit link => Sys2Proof.Machine.execParkExit link s
  | .offer hub payload => Sys2Proof.Machine.execOffer hub payload s
  | .allot hub payload => Sys2Proof.Machine.execAllot hub payload s
  | .result hub payload => Sys2Proof.Machine.execResult hub payload s
  | .pwrRsp hub payload => Sys2Proof.Machine.execPwrRsp hub payload s
  | .sbFault hub payload vendorOk => Sys2Proof.Machine.execSbFault hub payload vendorOk s
  | .pwrRspTimeout hub => Sys2Proof.Machine.execPwrRspTimeout hub s
  | .messageForward link vc => Sys2Proof.Machine.execMessageForward link vc s
  | .load hart dest va size parity err => Sys2Proof.Machine.execLoad hart dest va size parity err s
  | .store hart va size value => Sys2Proof.Machine.execStore hart va size value s
  | .storeBufferDrain hart => Sys2Proof.Machine.execStoreBufferDrain hart s
  | .amo hart op rd va wide value => Sys2Proof.Machine.execAmo hart op rd va wide value s
  | .lr hart rd va wide => Sys2Proof.Machine.execLr hart rd va wide s
  | .sc hart rd va wide value => Sys2Proof.Machine.execSc hart rd va wide value s
  | .fence hart pred succ => Sys2Proof.Machine.execFence hart pred succ s
  | .fenceTso hart => Sys2Proof.Machine.execFenceTso hart s
  | .fenceI hart => Sys2Proof.Machine.execFenceI hart s
  | .milestone hart rd rs1 rs2 => Sys2Proof.Machine.execMilestone hart rd rs1 rs2 s
  | .milestoneTimeout hart => Sys2Proof.Machine.execMilestoneTimeout hart s
  | .interruptTaken hart cause => Sys2Proof.Machine.execInterruptTaken hart cause s
  | .cboClean hart va => Sys2Proof.Machine.execCboClean hart va s
  | .cboFlush hart va => Sys2Proof.Machine.execCboFlush hart va s
  | .cboInval hart va => Sys2Proof.Machine.execCboInval hart va s
  | .cboZero hart va => Sys2Proof.Machine.execCboZero hart va s
  | .prefetchR hart va => Sys2Proof.Machine.execPrefetchR hart va s
  | .prefetchW hart va => Sys2Proof.Machine.execPrefetchW hart va s
  | .prefetchI hart va => Sys2Proof.Machine.execPrefetchI hart va s
  | .sfenceVma hart addr ident => Sys2Proof.Machine.execSfenceVma hart addr ident s
  | .sinvalVma hart addr ident => Sys2Proof.Machine.execSinvalVma hart addr ident s
  | .hfenceVvma hart addr ident => Sys2Proof.Machine.execHfenceVvma hart addr ident s
  | .hinvalVvma hart addr ident => Sys2Proof.Machine.execHinvalVvma hart addr ident s
  | .hfenceGvma hart addr ident => Sys2Proof.Machine.execHfenceGvma hart addr ident s
  | .hinvalGvma hart addr ident => Sys2Proof.Machine.execHinvalGvma hart addr ident s
  | .sfenceWInval hart => Sys2Proof.Machine.execSfenceWInval hart s
  | .sfenceInvalIr hart => Sys2Proof.Machine.execSfenceInvalIr hart s
  | .wfi hart => Sys2Proof.Machine.execWfi hart s
  | .c3Entry hart => Sys2Proof.Machine.execC3Entry hart s
  | .coreWake hart => Sys2Proof.Machine.execCoreWake hart s
  | .worldWrite hart value => Sys2Proof.Machine.execWorldWrite hart value s
  | .broadcastInvalidationWrite hart value => Sys2Proof.Machine.execBroadcastInvalidationWrite hart value s
  | .l2SetwayClean hart set way => Sys2Proof.Machine.execL2SetwayClean hart set way s
  | .l2SetwayEvict hart set way => Sys2Proof.Machine.execL2SetwayEvict hart set way s
  | .l2MissResume hart => Sys2Proof.Machine.execL2MissResume hart s
  | .streamPrefetch hart => Sys2Proof.Machine.execStreamPrefetch hart s
  | .rdShared hub slice err => Sys2Proof.Machine.execRdShared hub slice err s
  | .rdUnique hub slice => Sys2Proof.Machine.execRdUnique hub slice s
  | .rdOnce hub slice => Sys2Proof.Machine.execRdOnce hub slice s
  | .cleanUnique hub slice => Sys2Proof.Machine.execCleanUnique hub slice s
  | .wrUnique hub slice => Sys2Proof.Machine.execWrUnique hub slice s
  | .wrBack hub slice => Sys2Proof.Machine.execWrBack hub slice s
  | .cmoClean hub slice => Sys2Proof.Machine.execCmoClean hub slice s
  | .cmoInval hub slice => Sys2Proof.Machine.execCmoInval hub slice s
  | .cmoCleanInval hub slice => Sys2Proof.Machine.execCmoCleanInval hub slice s
  | .atomAdd hub slice => Sys2Proof.Machine.execAtomAdd hub slice s
  | .atomSwap hub slice => Sys2Proof.Machine.execAtomSwap hub slice s
  | .atomCas hub slice => Sys2Proof.Machine.execAtomCas hub slice s
  | .atomMinMax hub slice => Sys2Proof.Machine.execAtomMinMax hub slice s
  | .wayAvailable hub slice => Sys2Proof.Machine.execWayAvailable hub slice s
  | .deliveryReport hub slice => Sys2Proof.Machine.execDeliveryReport hub slice s
  | .snpResp hub slice => Sys2Proof.Machine.execSnpResp hub slice s
  | .snpRespData hub slice => Sys2Proof.Machine.execSnpRespData hub slice s
  | .wrData hub slice => Sys2Proof.Machine.execWrData hub slice s
  | .memoryReadDone hub slice => Sys2Proof.Machine.execMemoryReadDone hub slice s
  | .nextLineFetch hub slice => Sys2Proof.Machine.execNextLineFetch hub slice s
  | .snpShared hart err => Sys2Proof.Machine.execSnpShared hart err s
  | .snpUnique hart => Sys2Proof.Machine.execSnpUnique hart s
  | .snpInval hart => Sys2Proof.Machine.execSnpInval hart s
  | .snpClean hart => Sys2Proof.Machine.execSnpClean hart s
  | .snpBack hart => Sys2Proof.Machine.execSnpBack hart s
  | .snoopDispatch die => Sys2Proof.Machine.execSnoopDispatch die s
  | .snoopPartAnswer hart => Sys2Proof.Machine.execSnoopPartAnswer hart s
  | .comp agent => Sys2Proof.Machine.execComp agent s
  | .compData agent => Sys2Proof.Machine.execCompData agent s
  | .dataFwd agent => Sys2Proof.Machine.execDataFwd agent s
  | .wbGrant agent => Sys2Proof.Machine.execWbGrant agent s
  | .wbAck agent => Sys2Proof.Machine.execWbAck agent s
  | .fwdWaitExpiry die tag => Sys2Proof.Machine.execFwdWaitExpiry die tag s
  | .reqLimitExpiry die tag => Sys2Proof.Machine.execReqLimitExpiry die tag s
  | .answerTimeout hub slice tracker node => Sys2Proof.Machine.execAnswerTimeout hub slice tracker node s
  | .pioTimeout hub srcNode tag => Sys2Proof.Machine.execPioTimeout hub srcNode tag s
  | .lostDrainDone hub target => Sys2Proof.Machine.execLostDrainDone hub target s
  | .scrubDone hub target => Sys2Proof.Machine.execScrubDone hub target s
  | .agentRejoin agent => Sys2Proof.Machine.execAgentRejoin agent s
  | .ioWr target => Sys2Proof.Machine.execIoWr target s
  | .ioRd target => Sys2Proof.Machine.execIoRd target s
  | .msFlush target => Sys2Proof.Machine.execMsFlush target s
  | .flushReadDone hub w result => Sys2Proof.Machine.execFlushReadDone hub w result s
  | .mgtMsg hub => Sys2Proof.Machine.execMgtMsg hub s
  | .bcastInval hub => Sys2Proof.Machine.execBcastInval hub s
  | .bcastInvalCopy die => Sys2Proof.Machine.execBcastInvalCopy die s
  | .hartInvalAck hart => Sys2Proof.Machine.execHartInvalAck hart s
  | .relayTimeout hub op target => Sys2Proof.Machine.execRelayTimeout hub op target s
  | .mcRead hub chan => Sys2Proof.Machine.execMcRead hub chan s
  | .mcWrite hub chan => Sys2Proof.Machine.execMcWrite hub chan s
  | .mcWriteAccept hub slice => Sys2Proof.Machine.execMcWriteAccept hub slice s
  | .mcCommandChoice hub chan allowed => Sys2Proof.Machine.execMcCommandChoice hub chan allowed s
  | .mcReadData hub chan ecc syndrome => Sys2Proof.Machine.execMcReadData hub chan ecc syndrome s
  | .urgencyRaise hub chan entry => Sys2Proof.Machine.execUrgencyRaise hub chan entry s
  | .openTimerExpiry hub chan bank => Sys2Proof.Machine.execOpenTimerExpiry hub chan bank s
  | .refreshDue hub chan rank => Sys2Proof.Machine.execRefreshDue hub chan rank s
  | .mr4Poll hub chan doubled => Sys2Proof.Machine.execMr4Poll hub chan doubled s
  | .retrainingPause hub chan drift duration => Sys2Proof.Machine.execRetrainingPause hub chan drift duration s
  | .patrolScrub hub chan line ecc syndrome => Sys2Proof.Machine.execPatrolScrub hub chan line ecc syndrome s
  | .alertN hub chan => Sys2Proof.Machine.execAlertN hub chan s
  | .channelFillDone hub chan => Sys2Proof.Machine.execChannelFillDone hub chan s
  | .refLost unit => Sys2Proof.Machine.execRefLost unit s
  | .referenceSwitch => Sys2Proof.Machine.execReferenceSwitch s
  | .holdoverExpired unit => Sys2Proof.Machine.execHoldoverExpired unit s
  | .primaryOkTimer unit => Sys2Proof.Machine.execPrimaryOkTimer unit s
  | .pllUnlock unit link => Sys2Proof.Machine.execPllUnlock unit link s
  | .aoPwrgood => Sys2Proof.Machine.execAoPwrgood s
  | .pwrgood => Sys2Proof.Machine.execPwrgood s
  | .pwrgoodTimeout => Sys2Proof.Machine.execPwrgoodTimeout s
  | .pwrgoodFall => Sys2Proof.Machine.execPwrgoodFall s
  | .coldResetRelease => Sys2Proof.Machine.execColdResetRelease s
  | .coldRstN level lowMicros => Sys2Proof.Machine.execColdRstN level lowMicros s
  | .warmRstN lowMicros => Sys2Proof.Machine.execWarmRstN lowMicros s
  | .packageColdReset board => Sys2Proof.Machine.execPackageColdReset board s
  | .packageWarmReset => Sys2Proof.Machine.execPackageWarmReset s
  | .evacuationDone die => Sys2Proof.Machine.execEvacuationDone die s
  | .evacuationTimeout die => Sys2Proof.Machine.execEvacuationTimeout die s
  | .resetHoldExpiry agent => Sys2Proof.Machine.execResetHoldExpiry agent s
  | .coreDrainTimeout hart lastDrain => Sys2Proof.Machine.execCoreDrainTimeout hart lastDrain s
  | .partitionRelease part => Sys2Proof.Machine.execPartitionRelease part s
  | .guestReset src hub hold => Sys2Proof.Machine.execGuestReset src hub hold s
  | .gstPgFall hub => Sys2Proof.Machine.execGstPgFall hub s
  | .pk1Entry => Sys2Proof.Machine.execPk1Entry s
  | .pk1Exit => Sys2Proof.Machine.execPk1Exit s
  | .powerAttemptStart => Sys2Proof.Machine.execPowerAttemptStart s
  | .blockAnswer block answer => Sys2Proof.Machine.execBlockAnswer block answer s
  | .guestDelayExpiry hub => Sys2Proof.Machine.execGuestDelayExpiry hub s
  | .entryLimitExpiry => Sys2Proof.Machine.execEntryLimitExpiry s
  | .retryIntervalExpiry => Sys2Proof.Machine.execRetryIntervalExpiry s
  | .wakeWindowEnd levels => Sys2Proof.Machine.execWakeWindowEnd levels s
  | .wakeEvent source => Sys2Proof.Machine.execWakeEvent source s
  | .pwrEnMainOff => Sys2Proof.Machine.execPwrEnMainOff s
  | .highwayExitRepeat hub k => Sys2Proof.Machine.execHighwayExitRepeat hub k s
  | .grantEvaluation measure => Sys2Proof.Machine.execGrantEvaluation measure s
  | .thermalSample unit celsius => Sys2Proof.Machine.execThermalSample unit celsius s
  | .doorbell src hub chan tail => Sys2Proof.Machine.execDoorbell src hub chan tail s
  | .stop src hub chan => Sys2Proof.Machine.execStop src hub chan s
  | .run src hub chan => Sys2Proof.Machine.execRun src hub chan s
  | .restart src hub chan => Sys2Proof.Machine.execRestart src hub chan s
  | .skip src hub chan => Sys2Proof.Machine.execSkip src hub chan s
  | .dmRingWrite src hub chan value => Sys2Proof.Machine.execDmRingWrite src hub chan value s
  | .channelStopped hub chan => Sys2Proof.Machine.execChannelStopped hub chan s
  | .stretch hub chan xl => Sys2Proof.Machine.execStretch hub chan xl s
  | .bulkPortGrant hub requesting => Sys2Proof.Machine.execBulkPortGrant hub requesting s
  | .descriptorComplete hub chan xl => Sys2Proof.Machine.execDescriptorComplete hub chan xl s
  | .engineDown hub engine => Sys2Proof.Machine.execEngineDown hub engine s
  | .deviceRequest hub port req => Sys2Proof.Machine.execDeviceRequest hub port req s
  | .dlActive hub port => Sys2Proof.Machine.execDlActive hub port s
  | .dlDown hub port => Sys2Proof.Machine.execDlDown hub port s
  | .biSnoop hub port op pa => Sys2Proof.Machine.execBiSnoop hub port op pa s
  | .cxlCacheRequest hub port pa write => Sys2Proof.Machine.execCxlCacheRequest hub port pa write s
  | .cxlMemRequest hub dpa write => Sys2Proof.Machine.execCxlMemRequest hub dpa write s
  | .bar2Tlp hub fn off len write => Sys2Proof.Machine.execBar2Tlp hub fn off len write s
  | .commit src hub fn => Sys2Proof.Machine.execCommit src hub fn s
  | .commitDone hub fn => Sys2Proof.Machine.execCommitDone hub fn s
  | .activeEntryWrite src hub fn entry => Sys2Proof.Machine.execActiveEntryWrite src hub fn entry s
  | .vfFlr hub fn => Sys2Proof.Machine.execVfFlr hub fn s
  | .pfReset hub linkDown => Sys2Proof.Machine.execPfReset hub linkDown s
  | .rollCall found => Sys2Proof.Machine.execRollCall found s
  | .rollCallTimeout => Sys2Proof.Machine.execRollCallTimeout s
  | .routeDrainDone => Sys2Proof.Machine.execRouteDrainDone s
  | .routeDrainTimeout => Sys2Proof.Machine.execRouteDrainTimeout s
  | .proxyRequest hub => Sys2Proof.Machine.execProxyRequest hub s
  | .proxySnoop hub => Sys2Proof.Machine.execProxySnoop hub s
  | .waymark link => Sys2Proof.Machine.execWaymark link s
  | .waveLimitExpiry => Sys2Proof.Machine.execWaveLimitExpiry s
  | .eventRecord hub => Sys2Proof.Machine.execEventRecord hub s
  | .take src ring => Sys2Proof.Machine.execTake src ring s
  | .laybySpill hub r writeOk => Sys2Proof.Machine.execLaybySpill hub r writeOk s
  | .laybyReturn hub r readOk => Sys2Proof.Machine.execLaybyReturn hub r readOk s
  | .instructionFetch hart va parity err => Sys2Proof.Machine.execInstructionFetch hart va parity err s
  | .pcieCompletion hub port tag status data => Sys2Proof.Machine.execPcieCompletion hub port tag status data s
  | .completionTimeout hub port tag => Sys2Proof.Machine.execCompletionTimeout hub port tag s
  | .hostConfigWrite hub item => Sys2Proof.Machine.execHostConfigWrite hub item s
  | .endpointLinkUp hub => Sys2Proof.Machine.execEndpointLinkUp hub s
  | .gpioPinChange hub input level => Sys2Proof.Machine.execGpioPinChange hub input level s
  | .aoPwrgoodFall => Sys2Proof.Machine.execAoPwrgoodFall s
  | .undirectedDieReset die => Sys2Proof.Machine.execUndirectedDieReset die s

end Sys2Proof.Machine
end

