-- ==== Sys2Proof/Safety.lean ====
section
/-! DEFINITION. The terms in which the statements speak of a run: a memory in its canonical form, a command that completes, a
command without effect, and registers that keep their values. -/

namespace Sys2Proof.Safety

open Sys2Proof.Machine

/-- The memory of the machine is in its canonical form. -/
def memoryWf (s : State) : Prop := s.dram.wf = true

/-- The command completes: `exec` answers a next state that keeps the queue and the DRAM of `s`, and whose block is as `P`
says. -/
def Gives (i : Instr) (s : State) (P : Block → Prop) : Prop := ∃ b, exec i s = .next { s with blk := b } ∧ P b

/-- The command completes and keeps the queue of `s`; `P` says what becomes of the block and of the DRAM. -/
def GivesMem (i : Instr) (s : State) (P : Block → Dram → Prop) : Prop :=
  ∃ b d, exec i s = .next { s with blk := b, dram := d } ∧ P b d

/-- The command completes and changes nothing. -/
def NoEffect (i : Instr) (s : State) : Prop := exec i s = .next s

/-- Every register but those listed keeps its value. -/
def RegsKeep (a b : Block) (but : List Nat) : Prop := ∀ o, o ∉ but → rd b o = rd a o

/-- A source may write a register whose fields have the suffix -S: the register accepts it, and it acts in the secure world
(R12, R31, R550). -/
def MayWriteS (s : State) (src : Source) (off : Nat) : Prop :=
  accepts s.blk (callerOf s.blk src) off true = true ∧ (callerOf s.blk src).world = true

/-- A page's command passes its checks and is not a dry run, so that it acts (R55, R59, R60). -/
def Passes (s : State) (m : Nat) (k : Card) (check : Block → Call → Option (Nat × Nat)) : Prop :=
  mayBegin s.blk m k.code = true ∧ cardFault s.blk (callOf s.blk m) k = none ∧ check s.blk (callOf s.blk m) = none ∧
    (callOf s.blk m).dry = false

/-- The Tollhouse has the answer of a page's command ready: status, DETAIL, handle and payload; nothing else has changed but
what `b` shows. -/
def Answered (b : Block) (m status detail handle : Nat) (pay : List Byte) : Prop :=
  (getMbx b m).result = some (status, detail, handle, pay) ∧ (getMbx b m).waiting = false

/-- A card without checks of its own. -/
def noCheck (_ : Block) (_ : Call) : Option (Nat × Nat) := none

/-- How the checks of a command decide (R59, R60): nothing happens where the command may not begin; the first check that fails
gives the status; a dry run that passes answers OK. In none of these cases does anything change but the page's answer. -/
def Checked (i : Instr) (s : State) (m : Nat) (k : Card) (check : Block → Call → Option (Nat × Nat)) : Prop :=
  let c := callOf s.blk m
  (mayBegin s.blk m k.code = false → NoEffect i s) ∧
    (mayBegin s.blk m k.code = true →
      (∀ st, cardFault s.blk c k = some st → Gives i s fun b => b = reply s.blk m st 0 0 []) ∧
      (∀ st det, cardFault s.blk c k = none → check s.blk c = some (st, det) →
        Gives i s fun b => b = reply s.blk m st det 0 []) ∧
      (cardFault s.blk c k = none → check s.blk c = none → c.dry = true →
        Gives i s fun b => b = reply s.blk m thOk 0 0 []))

/-- A hart can begin an instruction whose accesses have these classes, and its bytes were not poisoned (R249, R512). -/
def Begins (s : State) (i cls : Nat) : Prop := canBegin s.blk i cls = true ∧ fetchPoisoned s.blk i = false

/-- Nothing else of a hart waits to go on: no milestone, no reset of its core, no evacuation of its die (R254, R268, R379). -/
def Quiet (b : Block) (i : Nat) : Prop :=
  (getHart b i).ms = none ∧ (getDie b (hartDie i)).flushing.contains (hartCore i) = false ∧
    (getDie b (hartDie i)).leaving = false ∧ (getDie b (hartDie i)).evacuating = false

/-- A register of a hart holds a value; x0 holds 0. -/
def HoldsX (b : Block) (i r : Nat) (v : Word) : Prop := getX b i r = if r = 0 then 0 else v

/-- An L2 holds a line in M with these bytes. -/
def HoldsM (b : Block) (i line : Nat) (d : LineData) : Prop :=
  ∃ l, l2Line (getHart b i) line = some l ∧ l.st = Machine.stM ∧ l.data = d

/-! ## Frames: what a kind of command may change -/

/-- The parts of the block. -/
inductive Piece
  | regs | csrs | coal | time | freeIx | harts | dies | links | slices
  | chans | io | spurs | movers | tolls | inbox | reports | mbx | objs
  | evSeq | evPath | rings | lostWrites | pkg | power | wave | outbox
deriving DecidableEq, Repr

/-- A part is the same in two blocks. -/
def Piece.kept : Piece → Block → Block → Prop
  | .regs, a, b => b.regs = a.regs
  | .csrs, a, b => b.csrs = a.csrs
  | .coal, a, b => b.coal = a.coal
  | .time, a, b => b.time = a.time
  | .freeIx, a, b => b.freeIx = a.freeIx
  | .harts, a, b => b.harts = a.harts
  | .dies, a, b => b.dies = a.dies
  | .links, a, b => b.links = a.links
  | .slices, a, b => b.slices = a.slices
  | .chans, a, b => b.chans = a.chans
  | .io, a, b => b.io = a.io
  | .spurs, a, b => b.spurs = a.spurs
  | .movers, a, b => b.movers = a.movers
  | .tolls, a, b => b.tolls = a.tolls
  | .inbox, a, b => b.inbox = a.inbox
  | .reports, a, b => b.reports = a.reports
  | .mbx, a, b => b.mbx = a.mbx
  | .objs, a, b => b.objs = a.objs
  | .evSeq, a, b => b.evSeq = a.evSeq
  | .evPath, a, b => b.evPath = a.evPath
  | .rings, a, b => b.rings = a.rings
  | .lostWrites, a, b => b.lostWrites = a.lostWrites
  | .pkg, a, b => b.pkg = a.pkg
  | .power, a, b => b.power = a.power
  | .wave, a, b => b.wave = a.wave
  | .outbox, a, b => b.outbox = a.outbox

/-- Every part but those listed is the same. -/
def KeepsAllBut (ps : List Piece) (a b : Block) : Prop := ∀ p, p ∉ ps → p.kept a b

/-- Is this a command of a hart or of the dies' own waits? -/
def hartCommand : Instr → Bool
  | .load .. | .store .. | .storeBufferDrain .. | .amo .. | .lr .. | .sc ..
  | .fence .. | .fenceTso .. | .fenceI .. | .milestone .. | .milestoneTimeout .. | .interruptTaken ..
  | .cboClean .. | .cboFlush .. | .cboInval .. | .cboZero .. | .prefetchR .. | .prefetchW ..
  | .prefetchI .. | .sfenceVma .. | .sinvalVma .. | .hfenceVvma .. | .hinvalVvma .. | .hfenceGvma ..
  | .hinvalGvma .. | .sfenceWInval .. | .sfenceInvalIr .. | .wfi .. | .c3Entry .. | .coreWake ..
  | .worldWrite .. | .broadcastInvalidationWrite .. | .l2SetwayClean .. | .l2SetwayEvict .. | .l2MissResume .. | .streamPrefetch ..
  | .instructionFetch .. | .snoopDispatch .. | .snoopPartAnswer .. | .bcastInvalCopy .. | .hartInvalAck .. => true
  | _ => false

/-- What it may change. -/
def hartParts : List Piece := [.csrs, .freeIx, .harts, .dies, .links, .inbox, .evSeq, .evPath, .power]

/-- Is this a command of the home slices or of the memory channels? -/
def homeCommand : Instr → Bool
  | .thScLock .. | .thScMaint .. | .rdShared .. | .rdUnique .. | .rdOnce .. | .cleanUnique ..
  | .wrUnique .. | .wrBack .. | .cmoClean .. | .cmoInval .. | .cmoCleanInval .. | .atomAdd ..
  | .atomSwap .. | .atomCas .. | .atomMinMax .. | .wayAvailable .. | .snpResp .. | .snpRespData ..
  | .wrData .. | .memoryReadDone .. | .nextLineFetch .. | .scrubDone .. | .mcRead .. | .mcWrite ..
  | .mcWriteAccept .. | .mcCommandChoice .. | .mcReadData .. | .urgencyRaise .. | .openTimerExpiry .. | .refreshDue ..
  | .retrainingPause .. | .patrolScrub .. | .alertN .. | .channelFillDone .. => true
  | _ => false

/-- What it may change. -/
def homeParts : List Piece := [.regs, .coal, .freeIx, .links, .slices, .chans, .io, .inbox, .mbx, .evSeq, .evPath, .lostWrites, .pkg, .outbox]

/-- Is this a command of a link end, of its timers, of a spur or of a relay? -/
def linkCommand : Instr → Bool
  | .linkStart .. | .linkRetrain .. | .linkRestart .. | .linkTakeDown .. | .flitSend .. | .retryTimerExpiry ..
  | .tollReturnTimeout .. | .crcWindow .. | .lockDone .. | .offerAccepted .. | .laneTestDone .. | .trainTimeout ..
  | .partnerLockSeen .. | .activeStable .. | .parkRequest .. | .parkRetry .. | .parkExit .. | .offer ..
  | .allot .. | .result .. | .pwrRsp .. | .sbFault .. | .pwrRspTimeout .. | .pioTimeout ..
  | .messageForward .. | .mgtMsg .. | .bcastInval .. | .relayTimeout .. | .guestReset .. | .gstPgFall .. => true
  | _ => false

/-- What it may change. -/
def linkParts : List Piece := [.regs, .coal, .freeIx, .links, .spurs, .tolls, .inbox, .evSeq, .evPath, .lostWrites, .pkg, .wave, .outbox]

/-- Is this a command of the data movers, the host ports, the endpoints or the proxies? -/
def deviceCommand : Instr → Bool
  | .doorbell .. | .stop .. | .run .. | .restart .. | .skip .. | .dmRingWrite ..
  | .channelStopped .. | .stretch .. | .bulkPortGrant .. | .descriptorComplete .. | .engineDown .. | .deviceRequest ..
  | .dlActive .. | .dlDown .. | .biSnoop .. | .cxlCacheRequest .. | .cxlMemRequest .. | .bar2Tlp ..
  | .commit .. | .commitDone .. | .activeEntryWrite .. | .vfFlr .. | .pfReset .. | .proxyRequest ..
  | .proxySnoop .. | .pcieCompletion .. | .completionTimeout .. | .hostConfigWrite .. | .endpointLinkUp .. | .gpioPinChange ..
  | .msFlush .. | .flushReadDone .. => true
  | _ => false

/-- What it may change. -/
def deviceParts : List Piece := [.regs, .coal, .freeIx, .links, .slices, .io, .movers, .inbox, .objs, .evSeq, .evPath, .lostWrites, .pkg, .outbox]

/-- Is this a command of the Tollhouse interface that leaves harts, caches and dies alone? -/
def pageCommand : Instr → Bool
  | .ring .. | .abort .. | .mbxHeaderWrite .. | .thIdentityGet .. | .thEchoPayload .. | .thPoolQuery ..
  | .thHandleQuery .. | .thLinkStatusGet .. | .thLinkTrain .. | .thWorldRegionCreate .. | .thWorldRegionDestroy .. | .thWorldClaim ..
  | .thMcRetainSet .. | .thMcFreezeDump .. | .thMcRelease .. | .thMcRetrain .. | .thPartitionPlanGet .. | .thPkgStateSet ..
  | .thPowerLimitSet .. | .thChannelCreate .. | .thChannelDestroy .. | .thChannelDirtyLog .. | .thChannelFreeze .. | .thChannelRestore ..
  | .thPortConfigSet .. | .thEpFunctionCreate .. | .thEpFunctionDestroy .. | .thFabricPlanSet .. | .thFabricRouteSelect .. | .thWaveRun ..
  | .thEventRingCreate .. | .thEventRingDestroy .. | .thEventAoRead .. | .take .. | .laybySpill .. | .laybyReturn ..
  | .eventRecord .. => true
  | _ => false

/-- What it may change. -/
def pageParts : List Piece := [.regs, .coal, .freeIx, .movers, .io, .chans, .links, .spurs, .wave, .mbx, .objs, .rings, .evSeq, .evPath, .lostWrites, .pkg, .power, .outbox]

end Sys2Proof.Safety
end

