-- ==== Sys2Proof/Certificates/Slice0/Obligations.lean ====
section
/-! DEFINITION. The statements for the provers. -/

open Sys2Proof Sys2Proof.Machine Sys2Proof.Safety

/-- R529 to R531, R534: the power-good signals of a package that starts, fails to start, or loses its rails. R534, R535: the
reset lands COLD_RST_N and WARM_RST_N request a package reset after 10 µs. Where no rule says what a command does, that it has
no effect is the model's choice (log entry 2). -/
def Obligations.PowerUpAndResetLands : Prop :=
  (∀ s : State, let p := s.blk.power
    (p.aoGood = false → Gives .aoPwrgood s fun b => b = { s.blk with power := { p with aoGood := true, enMain := true } }) ∧
    (p.aoGood = true → NoEffect .aoPwrgood s) ∧
    (p.enMain = true → p.mainOffDue = false → Gives .pwrgood s fun b =>
      b = { s.blk with power := { p with mainGood := true, enCore := true } }) ∧
    (p.enMain = false → NoEffect .pwrgood s) ∧
    (p.enMain = true → p.mainGood = false → p.mainOffDue = false → Gives .pwrgoodTimeout s fun b =>
      b.power = { p with enMain := false, needPulse := true } ∧ b.regs = s.blk.regs ∧
        ∃ r, b.evPath.get [] 0 = s.blk.evPath.get [] 0 ++ [r] ∧ r.aoOnly = true) ∧
    (p.enMain = true → p.mainGood = true → Gives .pwrgoodFall s fun b =>
      b.power = { p with mainGood := false, clocksStopped := true, enCore := false, mainOffDue := true, coldHeld := true,
                         pk := 0 } ∧ b.regs = s.blk.regs ∧
        ∃ r, b.evPath.get [] 0 = s.blk.evPath.get [] 0 ++ [r] ∧ r.aoOnly = true) ∧
    (p.mainOffDue = true → p.pk ≠ 5 → Gives .pwrEnMainOff s fun b =>
      b = { s.blk with power := { p with enMain := true, mainGood := false, mainOffDue := false } }) ∧
    (p.mainOffDue = false → NoEffect .pwrEnMainOff s) ∧
    (p.enCore = true → p.mainGood = true → p.coldHigh = true → p.coldHeld = true → p.pk ≠ 5 →
      Gives .coldResetRelease s fun b =>
        b = { s.blk with power := { p with coldHeld := false }, pkg := { s.blk.pkg with resetDue := 1 } }) ∧
    (p.coldHeld = false → NoEffect .coldResetRelease s) ∧
    Gives .aoPwrgoodFall s fun b => b = { freeIx := s.blk.freeIx, outbox := s.blk.outbox }) ∧
  (∀ (low : Nat) (s : State), let p := s.blk.power
    (Gives (.coldRstN false low) s fun b => b = { s.blk with power := { p with coldHigh := false, spiOff := true } }) ∧
    (low < 10 → Gives (.coldRstN true low) s fun b => b = { s.blk with power := { p with coldHigh := true, spiOff := false } }) ∧
    (10 ≤ low → p.aoGood = true → p.enMain = true → p.coldHeld = false → Gives (.coldRstN true low) s fun b =>
      b = { s.blk with power := { p with coldHigh := true, spiOff := false }, pkg := { s.blk.pkg with resetDue := 1 } }) ∧
    (low < 10 → NoEffect (.warmRstN low) s) ∧
    (10 ≤ low → p.aoGood = true → p.coldHigh = true → s.blk.pkg.resetDue ≠ 1 → p.coldHeld = false → p.pk ≠ 3 → p.pk ≠ 5 →
      p.attempt = none → Gives (.warmRstN low) s fun b => b.pkg.resetDue = 2 ∧ b.harts = s.blk.harts ∧
        ∀ k, k < 12 → (getDie s.blk k).inReset = false → agentLost s.blk (dieHub k) k = false →
          ∀ i ∈ dieHarts k, drains b i = true))

/-- R375, R376: PACKAGE_COLD_RESET and PACKAGE_WARM_RESET, once requested and possible, leave the cores, slices, mailboxes and
dies in their reset state, keep the stored partition plan, and start the causeway; a cold reset loses the DRAM. Where no rule
says what a command does, that it has no effect is the model's choice (log entry 2). -/
def Obligations.PackageResetsClearTheBlock : Prop :=
  ∀ (board : Board) (s : State), let p := s.blk.power
    let up (b : Block) : Prop := ∀ h, homeReady b h = true ∧ linkState b (.hub h 7) = 1
    (s.blk.pkg.resetDue = 1 → p.aoGood = true → p.mainGood = true → p.enCore = true → p.coldHigh = true →
      p.coldHeld = false → GivesMem (.packageColdReset board) s fun b d =>
        d = {} ∧ b.harts = {} ∧ b.csrs = {} ∧ b.dies = {} ∧ b.slices = {} ∧ b.mbx = {} ∧ b.objs = {} ∧
          b.pkg.plan = s.blk.pkg.plan ∧ b.pkg.resetDue = 0 ∧ up b) ∧
    (s.blk.pkg.resetDue ≠ 1 → NoEffect (.packageColdReset board) s) ∧
    (s.blk.pkg.resetDue = 2 → (∀ i, i < 240 → drains s.blk i = false) → GivesMem .packageWarmReset s fun b _ =>
      b.harts = {} ∧ b.csrs = {} ∧ b.dies = {} ∧ b.slices = {} ∧ b.mbx = {} ∧ b.inbox = {} ∧
        b.pkg.plan = s.blk.pkg.plan ∧ b.pkg.resetDue = 0 ∧ up b ∧
        ∀ k, k < 12 → fget b (FCD_RESET_STATUS k) FCD_RESET_STATUS_LAST_SCOPE = 1) ∧
    (s.blk.pkg.resetDue ≠ 2 → NoEffect .packageWarmReset s)

/-- R44, R46 to R49: the boot of the two Tollhouses from the accepted image, recovery without one, and the stop at a lockstep
mismatch. Where no rule says what a command does, that it has no effect is the model's choice (log entry 2). -/
def Obligations.TollhousesBoot : Prop :=
  ∀ (a b2 : ImageSlot) (s : State), let p := s.blk.power; let t := getTh s.blk .n
    (p.coldHeld = false → p.mainGood = true → s.blk.pkg.resetDue = 0 → t.running = false → t.recovery = false →
      (imageOk a = true → Gives (.tollhouseBoot a b2) s fun b =>
        (getTh b .n).running = true ∧ (getTh b .n).slotB = false ∧ (getTh b .n).build = a.build ∧
          bitOf (rd b (HUB_MILEPOST_TH .n)) 0 = true ∧ getTh b .s = getTh s.blk .s) ∧
      (imageOk a = false → imageOk b2 = true → Gives (.tollhouseBoot a b2) s fun b =>
        (getTh b .n).running = true ∧ (getTh b .n).slotB = true ∧ (getTh b .n).build = b2.build) ∧
      (imageOk a = false → imageOk b2 = false → Gives (.tollhouseBoot a b2) s fun b =>
        (getTh b .n).recovery = true ∧ b.regs = s.blk.regs)) ∧
    (t.running = true → NoEffect (.tollhouseBoot a b2) s) ∧
    (t.running = true → (getTh s.blk .s).running = false → endMilepost s.blk .s 7 = true → imageOk a = true →
      Gives (.hubSImageReceived a) s fun b =>
        (getTh b .s).running = true ∧ (getTh b .s).slotB = t.slotB ∧ bitOf (rd b (HUB_MILEPOST_TH .s)) 0 = true) ∧
    (imageOk a = false → NoEffect (.hubSImageReceived a) s) ∧
    (∀ h, Gives (.lockstepMismatch h) s fun b =>
      (getTh b h).stopped = true ∧ (∀ n, n < 12 → bitOf (rd b (HUB_MILEPOST_TH h)) n = false) ∧
        RegsKeep s.blk b [HUB_MILEPOST_TH h])

/-- R367 to R371: loss of the reference and hold-over, the switch to the fallback, and a PLL that loses lock. That a link
whose PLL fails is DOWN at once is the model's reading of R371 (log entry 32). Where no rule says what a command does, that it
has no effect is the model's choice (log entry 2). -/
def Obligations.ClockMonitorsAndSwitch : Prop :=
  ∀ (u : ClockUnit) (s : State), let r := clkReg u
    (Gives (.refLost u) s fun b => fget b r HUB_CLK_STATUS_SOURCE = 2 ∧ fget b r HUB_CLK_STATUS_PRIMARY_OK = 0 ∧
      bitOf (rd b r) 0 = true ∧ RegsKeep s.blk b [r]) ∧
    (fget s.blk r HUB_CLK_STATUS_SOURCE = 2 → Gives (.holdoverExpired u) s fun b =>
      bitOf (rd b r) 3 = true ∧ fget b r HUB_CLK_STATUS_SOURCE = 2 ∧ RegsKeep s.blk b [r]) ∧
    (fget s.blk r HUB_CLK_STATUS_SOURCE ≠ 2 → NoEffect (.holdoverExpired u) s) ∧
    (Gives (.primaryOkTimer u) s fun b => b = fset s.blk r HUB_CLK_STATUS_PRIMARY_OK 1) ∧
    (maySwitch s.blk = true → isSplit s.blk = false → Gives .referenceSwitch s fun b =>
      fget b r HUB_CLK_STATUS_SOURCE = 1 ∧ (fget s.blk r HUB_CLK_STATUS_SOURCE ≠ 1 → bitOf (rd b r) 2 = true) ∧
        ∀ e, linkState s.blk e = 5 ∨ linkState s.blk e = 6 →
          linkState b e = 1 ∧ fget b (LINK_STATUS e) LINK_STATUS_LAST_RETRAIN_CAUSE = 6) ∧
    (maySwitch s.blk = false → NoEffect .referenceSwitch s) ∧
    (∀ h, u = .hub h → Gives (.pllUnlock u none) s fun b => bitOf (rd b r) 1 = true ∧ RegsKeep s.blk b [r]) ∧
    (∀ e, endOn u e = true → linkState s.blk e ≠ 0 → linkState s.blk e ≠ 7 → Gives (.pllUnlock u (some e)) s fun b =>
      bitOf (rd b r) 1 = true ∧ linkState b e = 7 ∧ fget b (LINK_STATUS e) LINK_STATUS_DOWN_REASON = 2)

/-- R268, R270, R379 to R382: the ends of a core's drain and of an evacuation, the 10 µs hold, and a reset without direction.
R383, R390: PARTITION_RELEASE starts the cores of the joined dies in M-mode and the secure world at RESET_VECTOR, and
AGENT_REJOIN ends an agent's loss at the hubs that it concerns. Where no rule says what a command does, that it has no effect
is the model's choice (log entry 2). -/
def Obligations.CoreDieAndPartitionResets : Prop :=
  (∀ (k : Die) (s : State),
    (∀ (i : Hart) (n : Fin 401), hartDie i.val = k.val → (getDie s.blk k.val).draining.contains (hartCore i.val) = true →
      Gives (.coreDrainTimeout i n) s fun b =>
        (getHart b i.val).sb = [] ∧ (getDie b k.val).draining.contains (hartCore i.val) = false ∧
          fget b (FCD_CORE_DRAIN k.val (hartCore i.val)) FCD_CORE_DRAIN_LAST_DRAIN = n.val) ∧
    (∀ (i : Hart) (n : Fin 401), hartDie i.val = k.val → (getDie s.blk k.val).draining.contains (hartCore i.val) = false →
      NoEffect (.coreDrainTimeout i n) s) ∧
    (evacuated s.blk k.val = true → linkState s.blk (hubEnd k.val) ≠ 0 → Gives (.evacuationDone k) s fun b =>
      getDie b k.val = {} ∧ (∀ i ∈ dieHarts k.val, getHart b i = {}) ∧ linkState b (hubEnd k.val) = 7 ∧
        fget b (FCD_RESET_STATUS k.val) FCD_RESET_STATUS_EVACUATED = 1 ∧
        fget b (FCD_RESET_STATUS k.val) FCD_RESET_STATUS_LAST_SCOPE = 3) ∧
    (evacuated s.blk k.val = false → NoEffect (.evacuationDone k) s) ∧
    ((getDie s.blk k.val).evacuating = true → Gives (.evacuationTimeout k) s fun b =>
      (getDie b k.val).evacuating = false ∧ getRun b k.val = 8 ∧ b.regs = s.blk.regs ∧ b.harts = s.blk.harts) ∧
    ((getDie s.blk k.val).evacuating = false → NoEffect (.evacuationTimeout k) s) ∧
    (∀ a : Fin 14, a.val = k.val → getRun s.blk a.val / 2 = 2 → (getDie s.blk k.val).inReset = true →
      Gives (.resetHoldExpiry a) s fun b =>
        (getDie b k.val).inReset = false ∧ b.pkg.admitted.contains k.val = true ∧ linkState b (.die k) = 1) ∧
    (∀ a : Fin 14, getRun s.blk a.val / 2 ≠ 2 → NoEffect (.resetHoldExpiry a) s) ∧
    ((getDie s.blk k.val).inReset = false → Gives (.undirectedDieReset k) s fun b =>
      (getDie b k.val).inReset = false ∧ (∀ i ∈ dieHarts k.val, getHart b i = {}) ∧ linkState b (.die k) = 1 ∧
        fget b (FCD_RESET_STATUS k.val) FCD_RESET_STATUS_CORE_HELD = 0xFFFFF ∧
        fget b (FCD_RESET_STATUS k.val) FCD_RESET_STATUS_LAST_SCOPE = 3) ∧
    ((getDie s.blk k.val).inReset = true → NoEffect (.undirectedDieReset k) s)) ∧
  (∀ s : State,
    (∀ p : Fin 4, s.blk.pkg.releaseDue.contains p.val = true → releaseReady s.blk p.val = true →
      s.blk.pkg.resumePk5 = false → GivesMem (.partitionRelease p) s fun b _ =>
        partState b .n p.val = 2 ∧ partState b .s p.val = 2 ∧ b.pkg.releaseDue.contains p.val = false ∧
          ∀ i : Hart, let k := hartDie i.val
            diePart s.blk k = some p.val → endMilepost s.blk (dieHub k) (k % 6) = true →
            bitOf (rd s.blk (FCD_MILEPOST k)) (hartCore i.val) = true → (getDie s.blk k).inReset = false →
            (getHart b i.val).pc = BitVec.ofNat 64 (partVector s.blk p.val) ∧ (getHart b i.val).priv = .m ∧
              (getHart b i.val).core = .c0 ∧ hartWorld b i.val = true ∧
              bitOf (fget b (FCD_RESET_STATUS k) FCD_RESET_STATUS_CORE_HELD) (hartCore i.val) = false) ∧
    (∀ p : Fin 4, (s.blk.pkg.releaseDue.contains p.val = false ∨ releaseReady s.blk p.val = false) →
      NoEffect (.partitionRelease p) s) ∧
    (∀ a : Fin 14, mayRejoin s.blk a.val = true → Gives (.agentRejoin a) s fun b =>
      (∀ h ∈ lostHubs s.blk a.val, bitOf (fget b (HUB_JCT_LOST h) HUB_JCT_LOST_LOST) a.val = false) ∧
        endMilepost b (agentHub a.val) (if a.val < 12 then a.val % 6 else 6) = true ∧
        b.pkg.admitted.contains a.val = false ∧ getRun b a.val = 0) ∧
    (∀ a : Fin 14, mayRejoin s.blk a.val = false → NoEffect (.agentRejoin a) s))

/-- R238, R382, R533: a guest site's reset land, as a register write, after the 10 µs hold, and at a fall of GST_x_PG. Where
no rule says what a command does, that it has no effect is the model's choice (log entry 2). -/
def Obligations.GuestSiteResets : Prop :=
  ∀ (h : Hub) (s : State), let r := SPUR_GUEST_CTRL h; let held := fon s.blk r SPUR_GUEST_CTRL_RESET
    (∀ src, MayWriteS s src r →
      (held = false → Gives (.guestReset src h true) s fun b =>
        b = fset s.blk r SPUR_GUEST_CTRL_RESET 1) ∧
      (held = true → NoEffect (.guestReset src h true) s) ∧
      (held = true → (getSpur s.blk h).powerGood = true → (linkState s.blk (.hub h 6) = 0 ∨ linkState s.blk (.hub h 6) = 7) →
        Gives (.guestReset src h false) s fun b =>
          fget b r SPUR_GUEST_CTRL_RESET = 0 ∧ (getSpur b h).fresh = true ∧ linkState b (.hub h 6) = 1) ∧
      (held = false → NoEffect (.guestReset src h false) s)) ∧
    (∀ a : Fin 14, a.val = agGuest h → getRun s.blk a.val = 4 → (getSpur s.blk h).powerGood = true →
      Gives (.resetHoldExpiry a) s fun b =>
        fget b r SPUR_GUEST_CTRL_RESET = 0 ∧ b.pkg.admitted.contains a.val = true ∧ getRun b a.val = 6) ∧
    Gives (.gstPgFall h) s fun b =>
      (getSpur b h).powerGood = false ∧ fget b r SPUR_GUEST_CTRL_RESET = 1 ∧ RegsKeep s.blk b [r]

/-- R119: LINK_CAP_WRITE, LINK_START, LINK_RETRAIN, LINK_RESTART and LINK_TAKE_DOWN, where they act, where they do nothing,
and what they leave alone. Where no rule says what a command does, that it has no effect is the model's choice (log entry 2).
-/
def Obligations.LinkControlCommandsAct : Prop :=
  ∀ (src : Source) (e : LinkId) (s : State), MayWriteS s src (LINK_CTRL e) →
    (∀ w g : Fin 4, ¬ (w = 3 ∨ (w = 1 ∧ 2 ≤ g)) → Gives (.linkCapWrite src e w g) s fun b =>
      fget b (LINK_CTRL e) LINK_CTRL_WIDTH_CAP = w.val ∧ fget b (LINK_CTRL e) LINK_CTRL_SEGMENT = g.val ∧
        RegsKeep s.blk b [LINK_CTRL e] ∧ b.links = s.blk.links) ∧
    (∀ w g : Fin 4, (w = 3 ∨ (w = 1 ∧ 2 ≤ g)) → Gives (.linkCapWrite src e w g) s fun b =>
      bitOf (rd b (LINK_ERR e)) 8 = true ∧ RegsKeep s.blk b [LINK_ERR e] ∧ b.links = s.blk.links) ∧
    ((linkState s.blk e = 0 ∨ linkState s.blk e = 7) → (∀ k, e ≠ .die k) → Gives (.linkStart src e) s fun b =>
      linkState b e = 1 ∧ fget b (LINK_STATUS e) LINK_STATUS_FAILED_ATTEMPTS = 0 ∧
        rd b (CNT_ATTEMPTS e) = min 0xFFFF_FFFF (rd s.blk (CNT_ATTEMPTS e) + 1) ∧ (getLink b e).att.resume = false ∧
        RegsKeep s.blk b [LINK_STATUS e, CNT_ATTEMPTS e, SPUR_BRINGUP (endHub e)]) ∧
    (¬ (linkState s.blk e = 0 ∨ linkState s.blk e = 7) → NoEffect (.linkStart src e) s) ∧
    ((linkState s.blk e = 5 ∨ linkState s.blk e = 6) → Gives (.linkRetrain src e) s fun b =>
      linkState b e = 1 ∧ fget b (LINK_STATUS e) LINK_STATUS_LAST_RETRAIN_CAUSE = 5 ∧
        (getLink b e).att.resume = (getLink s.blk e).survives ∧
        RegsKeep s.blk b [LINK_STATUS e, CNT_ATTEMPTS e, SPUR_BRINGUP (endHub e)]) ∧
    ((linkState s.blk e = 5 ∨ linkState s.blk e = 6) → Gives (.linkRestart src e) s fun b =>
      linkState b e = 1 ∧ fget b (LINK_STATUS e) LINK_STATUS_LAST_RETRAIN_CAUSE = 5 ∧ (getLink b e).att.resume = false ∧
        RegsKeep s.blk b [LINK_STATUS e, CNT_ATTEMPTS e, SPUR_BRINGUP (endHub e)]) ∧
    (¬ (linkState s.blk e = 5 ∨ linkState s.blk e = 6) →
      NoEffect (.linkRetrain src e) s ∧ NoEffect (.linkRestart src e) s) ∧
    (¬ (linkState s.blk e = 0 ∨ linkState s.blk e = 7) → Gives (.linkTakeDown src e) s fun b =>
      linkState b e = 7 ∧ fget b (LINK_STATUS e) LINK_STATUS_DOWN_REASON = 1 ∧ bitOf (rd b (LINK_ERR e)) 5 = true) ∧
    ((linkState s.blk e = 0 ∨ linkState s.blk e = 7) → NoEffect (.linkTakeDown src e) s)

/-- R80, R84, R90, R112: what FLIT_SEND puts on the wire of an ACTIVE end that is not about to park, and that an end which is
not in INIT or ACTIVE sends nothing. R133, R146: MESSAGE_FORWARD moves the oldest message of a channel on, to the die's feeder
stop or into the queue of the next link, and only there once the next link holds its tolls. Where no rule says what a command
does, that it has no effect is the model's choice (log entry 2). -/
def Obligations.MessagesMoveInFlits : Prop :=
  (∀ (e : LinkId) (s : State), let l := getLink s.blk e
    (linkState s.blk e ≠ 4 → linkState s.blk e ≠ 5 → NoEffect (.flitSend e) s) ∧
    (linkState s.blk e = 5 → l.parking = true → Gives (.flitSend e) s fun b =>
      linkState b e = 6 ∧ (getLink b e).wire = l.wire ∧ RegsKeep s.blk b [LINK_STATUS e]) ∧
    (linkState s.blk e = 5 → l.parking = false → (∀ c r, l.ctl = c :: r → Gives (.flitSend e) s fun b =>
      (getLink b e).wire = l.wire ++ [mkFlit l.nextFsn (ackOf l) (linkWidth s.blk e) 2 0 [] [c]] ∧
        (getLink b e).ctl = r ∧ (getLink b e).nextFsn = l.nextFsn ∧ (getLink b e).replay = l.replay ∧
        RegsKeep s.blk b [CNT_RETRY_REQ_SENT e])) ∧
    (linkState s.blk e = 5 → l.parking = false → l.ctl = [] → l.replayAt = none → l.replay.length < 512 →
      nothingToSend s.blk e = true → Gives (.flitSend e) s fun b =>
        (getLink b e).wire = l.wire ++ [mkFlit l.nextFsn (ackOf l) (linkWidth s.blk e) 1 0 [] []] ∧
          (getLink b e).nextFsn = l.nextFsn ∧ (getLink b e).replay = l.replay ∧ b.regs = s.blk.regs) ∧
    (linkState s.blk e = 5 → l.parking = false → l.ctl = [] → l.replayAt = none → l.replay.length < 512 →
      l.way = none → 7 ≤ l.txSlots.length → Gives (.flitSend e) s fun b =>
        (getLink b e).nextFsn = (l.nextFsn + 1) % 4096 ∧ (getLink b e).replay.length = l.replay.length + 1 ∧
          (getLink b e).wire.length = l.wire.length + 1 ∧ (getLink b e).txSlots = l.txSlots.drop 7)) ∧
  (∀ (e : LinkId) (vc : Fin 6) (m : Msg) (r : List Msg) (s : State), (getLink s.blk e).rxq.get [] vc = m :: r →
    ¬ (vc.val = vcMgt ∧ hOp m.hdr = opWaymark) →
    (∀ k, e = .die k → Gives (.messageForward e vc) s fun b =>
      getBox b (boxDie k.val) (hVc m.hdr) = getBox s.blk (boxDie k.val) (hVc m.hdr) ++ [m] ∧
        (getLink b e).rxq.get [] vc = r) ∧
    (∀ e2, (∀ k, e ≠ .die k) → e2 ≠ e → hubHop s.blk (endHub e) (hDst m.hdr) = .link e2 →
      (vc.val = vcReq ∨ vc.val = vcPio → reachable s.blk (endHub e) (hDst m.hdr) = true) →
      ¬ (nodePkg (hDst m.hdr) = pkgNo s.blk ∧ nodeAgent (hDst m.hdr) < 14 ∧
        agentLost s.blk (endHub e) (nodeAgent (hDst m.hdr)) = true) →
      (e2 = .hub (endHub e) 6 → spurGate s.blk (endHub e) m.hdr = true) → onHighway e2 = false →
      (nextHolds s.blk e2 vc m = true → Gives (.messageForward e vc) s fun b =>
        (getLink b e2).txq.get [] (hVc m.hdr) = (getLink s.blk e2).txq.get [] (hVc m.hdr) ++ [m] ∧
          (getLink b e).rxq.get [] vc = r) ∧
      (nextHolds s.blk e2 vc m = false → NoEffect (.messageForward e vc) s)))

/-- R91 to R93, R97: at an ACTIVE end FLIT_RECEIVED counts a damaged flit and asks for it again, applies the ACK of an idle
flit to the replay buffer, and takes a message flit in its turn; RETRY_TIMER_EXPIRY asks again. -/
def Obligations.FlitReceivedFollowsTheSequence : Prop :=
  ∀ (e p : LinkId) (f : FlitBits) (r : List FlitBits) (s : State), let l := getLink s.blk e
    partner e = some p → (getLink s.blk p).wire = f :: r → linkState s.blk e = 5 →
    (flitGood f = false → l.retryWait = false → l.retryCount < fget s.blk (LINK_CTRL e) LINK_CTRL_RETRY_LIMIT →
      Gives (.flitReceived e .intact) s fun b =>
        (getLink b p).wire = r ∧ rd b (CNT_CRC_ERR e) = min 0xFFFF_FFFF (rd s.blk (CNT_CRC_ERR e) + 1) ∧
          (getLink b e).ctl = l.ctl ++ [mkCtl ctlRetryReq l.expect 0 0 0 false] ∧ (getLink b e).retryWait = true ∧
          (getLink b e).expect = l.expect ∧ (getLink b e).rxq = l.rxq) ∧
    (flitGood f = true → flitWidth f = linkWidth s.blk e → flitKind f = 1 → flitUses f = 0 →
      (∀ i, i < 4 → flitRet f i = 0) → l.replay.length ≤ l.nextFsn → l.nextFsn < 4096 →
      flitAck f + 1 ≤ l.nextFsn → l.nextFsn ≤ flitAck f + 1 + l.replay.length → Gives (.flitReceived e .intact) s fun b =>
        (getLink b p).wire = r ∧ (getLink b e).replay = l.replay.drop (l.replay.length - (l.nextFsn - (flitAck f + 1))) ∧
          (getLink b e).expect = l.expect ∧ b.regs = s.blk.regs) ∧
    (flitGood f = true → flitWidth f = linkWidth s.blk e → flitKind f = 0 → flitUses f = 0 →
      (∀ i, i < 4 → flitRet f i = 0) → l.replay = [] → l.nextFsn < 4096 → flitAck f = (l.nextFsn + 4095) % 4096 →
      flitFsn f = l.expect → Gives (.flitReceived e .intact) s fun b =>
        (getLink b p).wire = r ∧ (getLink b e).expect = (l.expect + 1) % 4096 ∧ (getLink b e).retryWait = false ∧
          (getLink b e).retryCount = 0 ∧ b.regs = s.blk.regs)

/-- R87, R93, R97: RETRY_TIMER_EXPIRY, TOLL_RETURN_TIMEOUT and CRC_WINDOW. R112, R113: PARK_REQUEST, PARK_RETRY and PARK_EXIT.
Where no rule says what a command does, that it has no effect is the model's choice (log entry 2). -/
def Obligations.LinkTimersAndParking : Prop :=
  (∀ (e : LinkId) (s : State), let l := getLink s.blk e
    (linkState s.blk e = 5 → l.retryWait = true →
      l.retryCount < fget s.blk (LINK_CTRL e) LINK_CTRL_RETRY_LIMIT → Gives (.retryTimerExpiry e) s fun b =>
        b = updLink s.blk e fun l => { l with
          ctl := l.ctl ++ [mkCtl ctlRetryReq l.expect 0 0 0 false], retryWait := true, retryCount := l.retryCount + 1 }) ∧
    (linkState s.blk e = 5 → l.retryWait = true → l.stable = true →
      max 1 (fget s.blk (LINK_CTRL e) LINK_CTRL_RETRY_LIMIT) ≤ l.retryCount → Gives (.retryTimerExpiry e) s fun b =>
        linkState b e = 1 ∧ fget b (LINK_STATUS e) LINK_STATUS_LAST_RETRAIN_CAUSE = 2 ∧
          bitOf (rd b (LINK_ERR e)) 1 = true) ∧
    (¬ (linkState s.blk e = 5 ∧ l.retryWait = true) → NoEffect (.retryTimerExpiry e) s) ∧
    (linkState s.blk e = 5 → l.parking = false → l.replay.length < 512 → l.txSlots = [] →
      (∃ x ∈ tollKinds, pendOf s.blk e x ≠ 0) → Gives (.tollReturnTimeout e) s fun b =>
        (getLink b e).nextFsn = (l.nextFsn + 1) % 4096 ∧ (getLink b e).replay.length = l.replay.length + 1 ∧
          (getLink b e).wire.length = l.wire.length + 1) ∧
    (linkState s.blk e ≠ 5 → NoEffect (.tollReturnTimeout e) s) ∧
    Gives (.crcWindow e) s fun b => b = updLink s.blk e fun l => { l with crcCount := 0, crcOver := false }) ∧
  (∀ (e : LinkId) (s : State),
    let asked := updLink s.blk e fun l => { l with ctl := l.ctl ++ [mkCtl ctlParkReq 0 0 0 0 false], parkReq := true }
    (linkState s.blk e = 5 → nothingToSend s.blk e = true → (getLink s.blk e).parking = false →
      (Gives (.parkRequest e) s fun b => b = asked) ∧
      ((getLink s.blk e).parkReq = true → Gives (.parkRetry e) s fun b => b = asked)) ∧
    (linkState s.blk e ≠ 5 ∨ nothingToSend s.blk e = false →
      NoEffect (.parkRequest e) s ∧ NoEffect (.parkRetry e) s) ∧
    (linkState s.blk e = 6 → Gives (.parkExit e) s fun b =>
      linkState b e = 1 ∧ fget b (LINK_STATUS e) LINK_STATUS_LAST_RETRAIN_CAUSE = 7 ∧
        fget b (LINK_STATUS e) LINK_STATUS_FAILED_ATTEMPTS =
          fget s.blk (LINK_STATUS e) LINK_STATUS_FAILED_ATTEMPTS) ∧
    (linkState s.blk e ≠ 6 → NoEffect (.parkExit e) s))

/-- R98 to R103: the steps of a training attempt, and the state in which each of them does nothing. R100, R109, R547:
TRAIN_TIMEOUT fails an attempt with the reason of its state, the third failure enters DOWN, and PARTNER_LOCK_SEEN enters LOCK.
Where no rule says what a command does, that it has no effect is the model's choice (log entry 2). -/
def Obligations.TrainingStepsAndFailures : Prop :=
  (∀ (e : LinkId) (s : State), let l := getLink s.blk e
    (linkState s.blk e = 1 → Gives (.lockDone e) s fun b => linkState b e = 2 ∧ RegsKeep s.blk b [LINK_STATUS e]) ∧
    (linkState s.blk e ≠ 1 → NoEffect (.lockDone e) s) ∧
    (∀ ext w g a, linkState s.blk e = 2 → partnerOffer s.blk e ext = some (w, g) → offerValid w g = true →
      minimumRule (fget s.blk (LINK_CTRL e) LINK_CTRL_WIDTH_CAP) (fget s.blk (LINK_CTRL e) LINK_CTRL_SEGMENT) w g = some a →
      Gives (.offerAccepted e ext) s fun b =>
        linkState b e = 3 ∧ (getLink b e).att.agreed = some a ∧ RegsKeep s.blk b [LINK_STATUS e, LINK_LANE_TEST e]) ∧
    (∀ ext w g, linkState s.blk e = 2 → partnerOffer s.blk e ext = some (w, g) → offerValid w g = true →
      minimumRule (fget s.blk (LINK_CTRL e) LINK_CTRL_WIDTH_CAP) (fget s.blk (LINK_CTRL e) LINK_CTRL_SEGMENT) w g = none →
      fget s.blk (LINK_STATUS e) LINK_STATUS_FAILED_ATTEMPTS < 2 → Gives (.offerAccepted e ext) s fun b =>
        linkState b e = 1 ∧ fget b (LINK_STATUS e) LINK_STATUS_LAST_TRAIN_FAIL = 3 ∧
          fget b (LINK_STATUS e) LINK_STATUS_FAILED_ATTEMPTS =
            fget s.blk (LINK_STATUS e) LINK_STATUS_FAILED_ATTEMPTS + 1) ∧
    (∀ ext, linkState s.blk e ≠ 2 ∨ partnerOffer s.blk e ext = none → NoEffect (.offerAccepted e ext) s) ∧
    (∀ w g, linkState s.blk e = 3 → l.att.agreed = some (w, g) → w ≤ 2 → g ≤ 3 → resultHere s.blk e = true →
      (isSpurEnd e ≠ none → fget s.blk (LINK_LANE_TEST e) LINK_LANE_TEST_PARTNER_QFAIL = 0) →
      Gives (.laneTestDone e [] 0) s fun b =>
        linkState b e = 4 ∧ linkWidth b e = w ∧ fget b (LINK_STATUS e) LINK_STATUS_SEGMENT = g ∧
          fget b (LINK_LANE_TEST e) LINK_LANE_TEST_QTESTED = quartersOf w g ∧
          RegsKeep s.blk b [LINK_STATUS e, LINK_LANE_TEST e]) ∧
    (∀ f p, linkState s.blk e ≠ 3 → NoEffect (.laneTestDone e f p) s) ∧
    (linkState s.blk e = 5 → Gives (.activeStable e) s fun b =>
      (getLink b e).stable = true ∧ fget b (LINK_STATUS e) LINK_STATUS_FAILED_ATTEMPTS = 0 ∧ linkState b e = 5 ∧
        RegsKeep s.blk b [LINK_STATUS e]) ∧
    (linkState s.blk e ≠ 5 → NoEffect (.activeStable e) s)) ∧
  (∀ (e : LinkId) (s : State), let n := fget s.blk (LINK_STATUS e) LINK_STATUS_FAILED_ATTEMPTS
    (∀ st why, (st, why) ∈ [(1, 1), (2, 2), (3, 8), (4, 5)] → linkState s.blk e = st →
      (n < 2 → Gives (.trainTimeout e) s fun b =>
        linkState b e = 1 ∧ fget b (LINK_STATUS e) LINK_STATUS_FAILED_ATTEMPTS = n + 1 ∧
          fget b (LINK_STATUS e) LINK_STATUS_LAST_TRAIN_FAIL = why ∧ bitOf (rd b (LINK_ERR e)) 4 = true ∧
          rd b (CNT_ATTEMPTS e) = min 0xFFFF_FFFF (rd s.blk (CNT_ATTEMPTS e) + 1)) ∧
      (2 ≤ n → Gives (.trainTimeout e) s fun b =>
        linkState b e = 7 ∧ fget b (LINK_STATUS e) LINK_STATUS_DOWN_REASON = 2 ∧
          fget b (LINK_STATUS e) LINK_STATUS_LAST_TRAIN_FAIL = why)) ∧
    ((linkState s.blk e = 0 ∨ 5 ≤ linkState s.blk e) → NoEffect (.trainTimeout e) s) ∧
    (partnerLocks s.blk e = true → 2 ≤ linkState s.blk e → linkState s.blk e ≤ 4 → Gives (.partnerLockSeen e) s fun b =>
      linkState b e = 1 ∧ (getLink b e).att.resume = (getLink s.blk e).att.resume ∧
        fget b (LINK_STATUS e) LINK_STATUS_FAILED_ATTEMPTS = n) ∧
    (partnerLocks s.blk e = true → (linkState s.blk e = 5 ∨ linkState s.blk e = 6) → (getLink s.blk e).stable = true →
      Gives (.partnerLockSeen e) s fun b =>
        linkState b e = 1 ∧ fget b (LINK_STATUS e) LINK_STATUS_LAST_RETRAIN_CAUSE = 4) ∧
    (partnerLocks s.blk e = false → NoEffect (.partnerLockSeen e) s))

/-- R234 to R236, R241, R243: the sideband messages of a guest. Where no rule says what a command does, that it has no effect
is the model's choice (log entry 2). -/
def Obligations.GuestSidebandMessages : Prop :=
  ∀ (h : Hub) (p : Word) (s : State), let n := p.toNat; let sp := getSpur s.blk h
    (sbReserved p = false → n % 16 = 1 → linkState s.blk (.hub h 6) = 2 → Gives (.offer h p) s fun b =>
      (getSpur b h).offer = some p ∧ (getSpur b h).allots = [] ∧
        fget b (SPUR_BRINGUP h) SPUR_BRINGUP_OFFER_SEEN = 1 ∧
        fget b (SPUR_BRINGUP h) SPUR_BRINGUP_REVISION = bitsOf n 19 16 ∧
        fget b (SPUR_BRINGUP h) SPUR_BRINGUP_CLASS = b2n (bitOf n 15) ∧
        fget b (SPUR_BRINGUP h) SPUR_BRINGUP_OFFER_FAULT = b2n (!offerOk s.blk h n) ∧
        RegsKeep s.blk b [SPUR_BRINGUP h]) ∧
    (∀ o, sbReserved p = false → n % 16 = 2 → linkState s.blk (.hub h 6) = 2 → sp.offer = some o →
      sp.allots.length < 6 → Gives (.allot h p) s fun b =>
        (getSpur b h).allots = sp.allots ++ [(bitsOf n 19 8, bitsOf n 31 20)] ∧
          (bitsOf n 6 4 = sp.allots.length → allotOk (bitOf o.toNat 15) (bitsOf n 6 4) (bitsOf n 19 8) (bitsOf n 31 20) = true →
            b.regs = s.blk.regs) ∧
          RegsKeep s.blk b [SPUR_BRINGUP h]) ∧
    (sbReserved p = false → n % 16 = 3 → linkState s.blk (.hub h 6) = 3 → Gives (.result h p) s fun b =>
      (getSpur b h).result = true ∧
        fget b (LINK_LANE_TEST (.hub h 6)) LINK_LANE_TEST_PARTNER_QTESTED = bitsOf n 7 4 ∧
        fget b (LINK_LANE_TEST (.hub h 6)) LINK_LANE_TEST_PARTNER_QFAIL = bitsOf n 11 8 ∧
        RegsKeep s.blk b [LINK_LANE_TEST (.hub h 6)]) ∧
    (∀ t, sbReserved p = false → n % 16 = 5 → sp.pwrReq = some (t, bitsOf n 15 8) → Gives (.pwrRsp h p) s fun b =>
      (getSpur b h).pwrReq = none ∧ (getSpur b h).pwrAns = some (bitsOf n 7 4, bitsOf n 23 16) ∧
        b.regs = s.blk.regs) ∧
    (∀ vendorOk, (vendorOk = false ∨ sbReserved p = true) → Gives (.sbFault h p vendorOk) s fun b =>
      rd b (CNT_SPUR h 2) = min 0xFFFF_FFFF (rd s.blk (CNT_SPUR h 2) + 1)) ∧
    (sbReserved p = false → NoEffect (.sbFault h p true) s) ∧
    (sp.pwrReq ≠ none → Gives (.pwrRspTimeout h) s fun b =>
      (getSpur b h).pwrAns = some (2, 0xFF) ∧ rd b (CNT_SPUR h 5) = min 0xFFFF_FFFF (rd s.blk (CNT_SPUR h 5) + 1)) ∧
    (sp.pwrReq = none → NoEffect (.pwrRspTimeout h) s)

/-- R55, R56, R62: an accepted RING takes the request and its payload and shows BUSY, or sets OVERRUN where the page is busy;
an accepted ABORT ends a command that may still be aborted with ABORTED, and otherwise does nothing. R51, R53, R54, R56:
accepted writes of a page's headers, window and MSI register; while the page is BUSY a write of a request header or of the
window sets OVERRUN and writes nothing. Where no rule says what a command does, that it has no effect is the model's choice
(log entry 2). -/
def Obligations.PageWritesAct : Prop :=
  (∀ (src : Source) (m : Fin 20) (s : State), let c := callerOf s.blk src; let x := getMbx s.blk m
    accepts s.blk c (TH_MBX_DOORBELL m) true = true →
    (mbxBusy s.blk m = false → Gives (.ring src m) s fun b => mbxState b m = 1 ∧
      (getMbx b m).req0.toNat = rd s.blk (TH_MBX_REQ_HDR0 m) ∧ (getMbx b m).req1.toNat = rd s.blk (TH_MBX_REQ_HDR1 m) ∧
        (getMbx b m).payload = winBytes x 0 (min 4096 (bitsOf (rd s.blk (TH_MBX_REQ_HDR0 m)) 47 32)) ∧
        (getMbx b m).world = c.world ∧ (getMbx b m).order = s.blk.pkg.rung + 1 ∧ b.pkg.rung = s.blk.pkg.rung + 1 ∧
        (getMbx b m).result = none ∧ (getMbx b m).waiting = false ∧ RegsKeep s.blk b [TH_MBX_STATE m]) ∧
    (mbxBusy s.blk m = true → Gives (.ring src m) s fun b => bitOf (rd b (TH_MBX_STATE m)) 2 = true ∧
      b.mbx = s.blk.mbx ∧ RegsKeep s.blk b [TH_MBX_STATE m]) ∧
    (mbxBusy s.blk m = true → thServes s.blk (pageServer s.blk m) = true → x.result = none → x.changed = false →
      notAbortable.contains (pageCode s.blk m) = false → commandCodes.contains (pageCode s.blk m) = true →
      isReplay s.blk m = false → Gives (.abort src m) s fun b =>
        Answered b m 0xB 0 0 [] ∧ b = { s.blk with mbx := b.mbx }) ∧
    ((mbxBusy s.blk m = false ∨ x.changed = true ∨ x.result.isSome = true ∨ notAbortable.contains (pageCode s.blk m) = true) →
      NoEffect (.abort src m) s)) ∧
  (∀ (src : Source) (m : Fin 20) (v : Word) (s : State), let c := callerOf s.blk src
    let at_ (off : Nat) : Prop := accepts s.blk c (TH_MBX_DOORBELL m + off) true = true
    (at_ 0x20 → mbxBusy s.blk m = false → Gives (.mbxHeaderWrite src m 0x20 8 v) s fun b =>
      rd b (TH_MBX_REQ_HDR0 m) = v.toNat ∧ b.mbx = s.blk.mbx ∧ RegsKeep s.blk b [TH_MBX_REQ_HDR0 m]) ∧
    (at_ 0x28 → mbxBusy s.blk m = false → Gives (.mbxHeaderWrite src m 0x28 8 v) s fun b =>
      rd b (TH_MBX_REQ_HDR1 m) = v.toNat % 2 ^ 32 ∧ b.mbx = s.blk.mbx ∧ RegsKeep s.blk b [TH_MBX_REQ_HDR1 m]) ∧
    (at_ 0x40 → m.val < 17 → Gives (.mbxHeaderWrite src m 0x40 8 v) s fun b =>
      fget b (TH_MBX_MSI m) TH_MBX_MSI_ADDR = bitsOf v.toNat 39 0 ∧ fget b (TH_MBX_MSI m) TH_MBX_MSI_DATA = bitsOf v.toNat 55 44 ∧
        RegsKeep s.blk b [TH_MBX_MSI m]) ∧
    (∀ k : Fin 512, at_ (0x1000 + 8 * k) → mbxBusy s.blk m = false →
      Gives (.mbxHeaderWrite src m (0x1000 + 8 * k) 8 v) s fun b => b.regs = s.blk.regs ∧
        (∀ j, j < 8 → winByte (getMbx b m) (8 * k + j) = BitVec.ofNat 8 (v.toNat >>> (8 * j))) ∧
        ∀ i, i < 8 * k ∨ 8 * k + 8 ≤ i → winByte (getMbx b m) i = winByte (getMbx s.blk m) i) ∧
    (∀ off, off = 0x20 ∨ off = 0x28 ∨ (0x1000 ≤ off ∧ off < 0x2000 ∧ off % 8 = 0) → at_ off → mbxBusy s.blk m = true →
      Gives (.mbxHeaderWrite src m off 8 v) s fun b => bitOf (rd b (TH_MBX_STATE m)) 2 = true ∧ b.mbx = s.blk.mbx ∧
        RegsKeep s.blk b [TH_MBX_STATE m]))

/-- R55, R57, R58: COMMAND_COMPLETE of a command whose answer is known writes the response headers and shows DONE with
LAST_SEQ; a repeated request gets the stored response with REPLAYED; an undefined code gets BAD_COMMAND. R63: COMMAND_TIMEOUT
of a command that acts and has not completed ends it with TIMEOUT; of any other it does nothing. Where no rule says what a
command does, that it has no effect is the model's choice (log entry 2). -/
def Obligations.CommandsEndAtThePage : Prop :=
  (∀ (m : Fin 20) (s : State), let x := getMbx s.blk m; let seq := pageSeq s.blk m
    let done (b : Block) : Prop := mbxState b m = 2 ∧ fget b (TH_MBX_STATE m) TH_MBX_STATE_LAST_SEQ = seq ∧
      fget b (TH_MBX_STATE m) TH_MBX_STATE_HAVE_LAST = 1 ∧ (bitOf x.req0.toNat 48 = true → bitOf (rd b (TH_MBX_STATE m)) 3 = true)
    mbxBusy s.blk m = true → thServes s.blk (pageServer s.blk m) = true →
    (∀ st det hdl pay, x.result = some (st, det, hdl, pay) → (pageCode s.blk m ≠ codeReset ∨ st ≠ thOk ∨ pageDry s.blk m = true) →
      GivesMem (.commandComplete m) s fun b d => d = s.dram ∧ done b ∧ (getMbx b m).result = none ∧
        bitsOf (rd b (TH_MBX_RSP_HDR0 m)) 15 0 = st % 2 ^ 16 ∧ bitsOf (rd b (TH_MBX_RSP_HDR0 m)) 31 16 = seq ∧
        bitsOf (rd b (TH_MBX_RSP_HDR0 m)) 61 48 = det % 2 ^ 14 ∧ bitOf (rd b (TH_MBX_RSP_HDR0 m)) 63 = false ∧
        rd b (TH_MBX_RSP_HDR1 m) = (if pageDry s.blk m then 0 else hdl % 2 ^ 32) ∧
        (getMbx b m).storedPayload = if pageDry s.blk m then [] else pay) ∧
    (x.result = none → isReplay s.blk m = true → x.admitted = false → GivesMem (.commandComplete m) s fun b d =>
      d = s.dram ∧ done b ∧ bitOf (rd b (TH_MBX_RSP_HDR0 m)) 63 = true ∧
        bitsOf (rd b (TH_MBX_RSP_HDR0 m)) 62 0 = bitsOf x.stored0.toNat 62 0 ∧ rd b (TH_MBX_RSP_HDR1 m) = x.stored1.toNat) ∧
    (x.result = none → isReplay s.blk m = false → commandCodes.contains (pageCode s.blk m) = false →
      GivesMem (.commandComplete m) s fun b d => d = s.dram ∧ done b ∧ bitsOf (rd b (TH_MBX_RSP_HDR0 m)) 15 0 = 1)) ∧
  (∀ (m : Fin 20) (s : State), let x := getMbx s.blk m
    (mbxBusy s.blk m = true → thServes s.blk (pageServer s.blk m) = true → x.waiting = true → x.result = none →
      Gives (.commandTimeout m) s fun b => mbxState b m = 2 ∧ bitsOf (rd b (TH_MBX_RSP_HDR0 m)) 15 0 = thTimeout ∧
        bitsOf (rd b (TH_MBX_RSP_HDR0 m)) 31 16 = pageSeq s.blk m ∧ (getMbx b m).waiting = false ∧
        fget b (TH_MBX_STATE m) TH_MBX_STATE_LAST_SEQ = pageSeq s.blk m) ∧
    ((mbxBusy s.blk m = false ∨ thServes s.blk (pageServer s.blk m) = false ∨ x.waiting = false ∨ x.result.isSome = true) →
      NoEffect (.commandTimeout m) s))

/-- R52, R413: transfers of the baseboard controller's port act on page 17, and a matching address header wakes the package or
is acknowledged. Where no rule says what a command does, that it has no effect is the model's choice (log entry 2). -/
def Obligations.BaseboardTransfers : Prop :=
  ∀ (s : State), let x := getMbx s.blk 17
    (mbxBusy s.blk 17 = false → ∀ a0 a1 a2 a3 : Byte, Gives (.i3cTransfer (.write [0x20, 0, a0, a1, a2, a3])) s fun b =>
      bitsOf (rd b (TH_MBX_REQ_HDR0 17)) 31 0 = bytesToNat [a0, a1, a2, a3] ∧
        bitsOf (rd b (TH_MBX_REQ_HDR0 17)) 63 32 = bitsOf (rd s.blk (TH_MBX_REQ_HDR0 17)) 63 32 ∧ (getMbx b 17).pointer = 0x24 ∧
        RegsKeep s.blk b [TH_MBX_REQ_HDR0 17]) ∧
    (x.pointer = 8 → Gives (.i3cTransfer (.read 4)) s fun b =>
      b.outbox = s.blk.outbox ++ [.i3cBytes (natToBytes 4 (rd s.blk (TH_MBX_STATE 17)))] ∧ (getMbx b 17).pointer = 12 ∧
        b.regs = s.blk.regs) ∧
    (∀ lo hi d : Byte, Gives (.i3cTransfer (.write [lo, hi, d])) s fun b => b.regs = s.blk.regs ∧ b.mbx = s.blk.mbx ∧
      (b.evPath.get [] 0).length = (s.blk.evPath.get [] 0).length + 1) ∧
    (∀ p mode, NoEffect (.i3cAddressMatch p mode false) s) ∧
    (∀ p mode, s.blk.power.pk = 0 → s.blk.power.attempt = none → Gives (.i3cAddressMatch p mode true) s fun b =>
      b = { s.blk with outbox := s.blk.outbox ++ [.i3cAck p true] }) ∧
    (∀ mode, s.blk.power.pk ≠ 0 → s.blk.power.window = true → s.blk.power.attempt = none →
      Gives (.i3cAddressMatch .bmc mode true) s fun b =>
        b.power.matchBmc = true ∧ b.outbox = s.blk.outbox ++ [.i3cAck .bmc (mode == .smbus)])

/-- R59, R60: the checks of each of the 37 commands of the Tollhouses decide its status before it acts, and a dry run never
acts. -/
def Obligations.ChecksDecideTheStatus : Prop :=
  ∀ (m : Fin 20) (s : State),
    ((getTh s.blk .n).recovery = false → Checked (.thIdentityGet m) s m identityCard noCheck) ∧
    Checked (.thEchoPayload m) s m (echoCard (callOf s.blk m).len) noCheck ∧
    Checked (.thPoolQuery m) s m poolCard poolCheck ∧ Checked (.thHandleQuery m) s m handleCard handleCheck ∧
    Checked (.thLinkStatusGet m) s m linkStatusCard linkStatusCheck ∧ Checked (.thLinkTrain m) s m linkTrainCard linkTrainCheck ∧
    Checked (.thScLock m) s m scLockCard scLockCheck ∧ Checked (.thScMaint m) s m scMaintCard scMaintCheck ∧
    Checked (.thWorldRegionCreate m) s m regionCreateCard regionCreateCheck ∧
    Checked (.thWorldRegionDestroy m) s m regionDestroyCard noCheck ∧ Checked (.thWorldClaim m) s m claimCard noCheck ∧
    Checked (.thMcRetainSet m) s m retainCard retainCheck ∧
    Checked (.thMcFreezeDump m) s m dumpCard (fun b c => need (chanAllowed b c) thDenied none) ∧
    Checked (.thMcRelease m) s m releaseCard releaseCheck ∧ Checked (.thMcRetrain m) s m retrainCard retrainCheck ∧
    Checked (.thPartitionPlanSet m) s m planSetCard planSetCheck ∧ Checked (.thPartitionPlanGet m) s m planGetCard noCheck ∧
    Checked (.thReset m) s m resetCard resetCheck ∧ Checked (.thClockSourceSet m) s m clockCard clockCheck ∧
    Checked (.thSplitEnd m) s m splitEndCard splitEndCheck ∧ Checked (.thPkgStateSet m) s m pkgStateCard pkgStateCheck ∧
    Checked (.thPowerLimitSet m) s m powerLimitCard noCheck ∧ Checked (.thPortConfigSet m) s m portConfigCard noCheck ∧
    Checked (.thEventRingCreate m) s m ringCreateCard ringCreateCheck ∧ Checked (.thEventAoRead m) s m aoReadCard noCheck ∧
    Checked (.thChannelCreate m) s m chanCreateCard chanCreateCheck ∧ Checked (.thChannelDirtyLog m) s m dirtyCard dirtyCheck ∧
    Checked (.thChannelFreeze m) s m freezeCard freezeCheck ∧ Checked (.thChannelRestore m) s m (dmCard 0x304 256) restoreCheck ∧
    Checked (.thChannelDestroy m) s m (dmCard codeChanDestroy 0)
      (fun b c => dmCheck b c (need (dmNamed b c).fn.isNone thBusy none)) ∧
    Checked (.thEventRingDestroy m) s m ringDestroyCard (fun b c => need (!objEnds b c 2) thStale none) ∧
    Checked (.thEpFunctionCreate m) s m fnCreateCard fnCreateCheck ∧
    Checked (.thEpFunctionDestroy m) s m fnDestroyCard fnDestroyCheck ∧ Checked (.thEpLendSet m) s m lendCard lendCheck ∧
    Checked (.thFabricPlanSet m) s m fabricPlanCard fabricPlanCheck ∧
    Checked (.thFabricRouteSelect m) s m routeSelectCard routeSelectCheck ∧ Checked (.thWaveRun m) s m waveRunCard waveRunCheck

/-- R65, R71, R122, R359, R387, R553, R554: the commands that only ask answer with the payload of their card and change
nothing else. R123, R288, R292, R318 to R321, R439: the commands of links, system cache and worlds act, and wait where their
card waits. Where no rule says what a command does, that it has no effect is the model's choice (log entry 2). -/
def Obligations.QueryLinkCacheAndWorldCommandsAct : Prop :=
  (∀ (m : Fin 20) (s : State), let c := callOf s.blk m
    let answers (i : Instr) (hdl : Nat) (pay : List Byte) : Prop := Gives i s fun b =>
      Answered b m thOk 0 hdl pay ∧ b = { s.blk with mbx := b.mbx }
    ((getTh s.blk .n).recovery = false → Passes s m identityCard noCheck →
      answers (.thIdentityGet m) 0 (identityPay s.blk c)) ∧
    ((getTh s.blk .n).recovery = true → m.val ≠ 17 → NoEffect (.thIdentityGet m) s) ∧
    (Passes s m (echoCard c.len) noCheck → answers (.thEchoPayload m) 0 c.pay) ∧
    (Passes s m poolCard poolCheck → answers (.thPoolQuery m) 0 (poolPay s.blk (c.u8 0))) ∧
    (Passes s m handleCard handleCheck → answers (.thHandleQuery m) c.handle (handlePay s.blk c)) ∧
    (Passes s m linkStatusCard linkStatusCheck → answers (.thLinkStatusGet m) 0 (linkStatusPay s.blk c)) ∧
    (Passes s m planGetCard noCheck → answers (.thPartitionPlanGet m) 0 (planBytes s.blk.pkg.plan)) ∧
    (Passes s m dumpCard (fun b c => need (chanAllowed b c) thDenied none) →
      answers (.thMcFreezeDump m) 0 (dumpPay s.blk c))) ∧
  (∀ (m : Fin 20) (s : State), let c := callOf s.blk m; let waits (b : Block) : Prop := (getMbx b m).waiting = true
    (Passes s m linkTrainCard linkTrainCheck → Gives (.thLinkTrain m) s fun b => waits b ∧
      linkState b (namedEnd c) = if c.u8 2 = 3 then 7 else 1) ∧
    (Passes s m scLockCard scLockCheck → partSlices s.blk (c.u8 0) ≠ [] → Gives (.thScLock m) s fun b => waits b ∧
      ∀ q ∈ partQuarters s.blk (c.u8 0), fget b (HUB_SC_LOCK (quarterHub q))
        (if q % 2 = 0 then HUB_SC_LOCK_WAYS_LO else HUB_SC_LOCK_WAYS_HI) = c.u8 1) ∧
    (Passes s m scMaintCard scMaintCheck → Gives (.thScMaint m) s fun b => waits b ∧ b.harts = s.blk.harts ∧ b.objs = s.blk.objs) ∧
    (Passes s m regionCreateCard regionCreateCheck → ∀ ix, regionIndex s.blk c = some ix →
      Gives (.thWorldRegionCreate m) s fun b => waits b ∧ (b.objs.get {} (objKey 5 ix)).live = true ∧
        fget b (HUB_WORLD_REGION_SIZE (hubOf (c.u8 0)) (ix % 64)) HUB_WORLD_REGION_SIZE_PAGES = c.u64 16 / 4096 ∧
        (∀ p pa, p < 4 → c.u64 8 ≤ pa → pa < c.u64 8 + c.u64 16 → bitOf (c.u8 1) p = true →
          inRegion b (hubOf (c.u8 0)) p pa = true)) ∧
    (Passes s m regionDestroyCard noCheck → let ix := bitsOf c.handle 15 0
      Gives (.thWorldRegionDestroy m) s fun b => waits b ∧ rd b (HUB_WORLD_REGION_BASE (hubOf (ix / 64)) (ix % 64)) = 0 ∧
        (b.objs.get {} (objKey 5 ix)).destroying = true) ∧
    (Passes s m claimCard noCheck → let h := hubOf (c.u8 1); let ix := c.u16 2; let v := c.u8 4 == 1
      Gives (.thWorldClaim m) s fun b => Answered b m thOk 0 0 [] ∧
        (c.u8 0 = 0 → bitOf (rd b (HUB_PIN_WORLD h)) ix = v) ∧
        (c.u8 0 = 1 → (getIo b h).aplicSecure.get false ix = v) ∧ (c.u8 0 = 2 → (getChan b (8 * h.idx + ix)).claimed = v) ∧
        (c.u8 0 = 3 → fon b (DM_ENG_STATUS h ix) DM_ENG_STATUS_CLAIMED = v) ∧ (c.u8 0 = 4 → (getPort b h ix).claimed = v) ∧
        (c.u8 0 = 5 → (getSpur b h).claimed = v)))

/-- R354, R360, R361: TH_MC_RETAIN_SET, TH_MC_RELEASE and TH_MC_RETRAIN. R388, R399, R373, R397, R403, R420: the commands of
partitions, resets, clocks, the split and power act. -/
def Obligations.MemoryPartitionAndPowerCommandsAct : Prop :=
  (∀ (m : Fin 20) (s : State), let c := callOf s.blk m; let pc := namedChan c
    (Passes s m retainCard retainCheck → Gives (.thMcRetainSet m) s fun b => Answered b m thOk 0 0 [] ∧ b.regs = s.blk.regs ∧
      ∀ k ∈ maskChans (bitsOf (namedGroup s.blk c) 55 52), (getChan b k).retain = c.u16 2) ∧
    (Passes s m releaseCard releaseCheck → Gives (.thMcRelease m) s fun b => (getMbx b m).waiting = true ∧
      (getChan b pc).training = true ∧ (getChan b pc).selfRefresh = false ∧ (getChan b pc).writes = (getChan s.blk pc).writes ∧
        b.regs = s.blk.regs) ∧
    (Passes s m retrainCard retrainCheck → Gives (.thMcRetrain m) s fun b => (getMbx b m).waiting = true ∧
      (getChan b pc).training = true ∧ (getChan b pc).rows = {} ∧ (getChan b pc).writes = (getChan s.blk pc).writes ∧
        b.regs = s.blk.regs)) ∧
  (∀ (m : Fin 20) (s : State), let c := callOf s.blk m; let a := rsTarget c
    (Passes s m planSetCard planSetCheck → Gives (.thPartitionPlanSet m) s fun b => Answered b m thOk 0 0 [] ∧
      b.pkg.plan = payPlan c ∧ (c.u8 1 = 1 → b.pkg.running = payPlan c) ∧
        (c.u8 1 = 0 → b.regs = s.blk.regs ∧ b.pkg.running = s.blk.pkg.running)) ∧
    (Passes s m resetCard resetCheck → Gives (.thReset m) s fun b =>
      (rsScope c < 2 → Answered b m thOk 0 0 (natToBytes 8 0) ∧ b.regs = s.blk.regs ∧ b.pkg = s.blk.pkg) ∧
        (rsScope c = 2 → rsAction c = 2 → b.pkg.releaseDue.contains a = true ∧ b.regs = s.blk.regs) ∧
        (rsScope c = 2 → rsAction c ≠ 2 → partState b .n a = 3 ∧ partState b .s a = 3) ∧
        (rsScope c = 3 → a < 12 → rsAction c ≠ 2 → rsUnplanned c = true → agentLost b (dieHub a) a = true ∧
          (getDie b a).inReset = false ∧ getRun b a = 6 + rsAction c) ∧
        (rsScope c = 4 → rsAction c ≠ 2 → coreIsHeld b (rsHart c) = true ∧ drains b (rsHart c) = true ∧
          fget b (FCD_RESET_STATUS a) FCD_RESET_STATUS_LAST_SCOPE = 4)) ∧
    (Passes s m clockCard clockCheck → Gives (.thClockSourceSet m) s fun b =>
      (fget s.blk (HUB_CLK_STATUS .n) HUB_CLK_STATUS_SOURCE = c.u8 0 → Answered b m thOk 0 0 []) ∧
        (fget s.blk (HUB_CLK_STATUS .n) HUB_CLK_STATUS_SOURCE ≠ c.u8 0 → (getMbx b m).waiting = true ∧
          ∀ u ∈ clockUnits, fget b (clkReg u) HUB_CLK_STATUS_SOURCE = c.u8 0)) ∧
    (Passes s m splitEndCard splitEndCheck → Gives (.thSplitEnd m) s fun b => Answered b m thOk 0 0 [] ∧ isSplit b = false ∧
      endMilepost b .n 7 = true ∧ endMilepost b .s 7 = true) ∧
    (Passes s m pkgStateCard pkgStateCheck → Gives (.thPkgStateSet m) s fun b => Answered b m thOk 0 0 [] ∧
      (let ceil : Ceiling := { deepest := c.u8 1, secure := c.world, resume := c.u64 8 }
       if c.u8 0 = 0xFF then b.power.pkgCeil = ceil else b.power.partCeil.get {} (c.u8 0) = ceil) ∧ b.regs = s.blk.regs) ∧
    (Passes s m powerLimitCard noCheck → Gives (.thPowerLimitSet m) s fun b => b.power.sustained = c.u16 0 ∧
      b.power.fast = c.u16 2 ∧ b.power.windowMs = c.u16 4 ∧ (getMbx b m).result.isSome = true ∧ b.regs = s.blk.regs))

/-- R444 to R449: the commands of data-mover channels act. -/
def Obligations.ChannelCommandsAct : Prop :=
  ∀ (m : Fin 20) (s : State), let c := callOf s.blk m; let h := dmHub c; let n := dmIx c
    (Passes s m chanCreateCard chanCreateCheck → ∀ ix e, chanCreatePick s.blk c = some (ix, e) →
      Gives (.thChannelCreate m) s fun b => (∃ pay, Answered b m thOk 0 (handleOf b 1 ix) pay) ∧
        (b.objs.get {} (objKey 1 ix)).live = true ∧ (getChanDm b (chanCreateHub c) (ix % 2048)).live = true ∧
          (getChanDm b (chanCreateHub c) (ix % 2048)).engine = e ∧
          (getChanDm b (chanCreateHub c) (ix % 2048)).part = some (c.u8 0) ∧ b.regs = s.blk.regs) ∧
    (Passes s m (dmCard codeChanDestroy 0) (fun b c => dmCheck b c (need (dmNamed b c).fn.isNone thBusy none)) →
      Gives (.thChannelDestroy m) s fun b => (getMbx b m).waiting = true ∧
        (if (dmNamed s.blk c).parts = [] then (getChanDm b h n).live = false ∧
            (b.objs.get {} (objKey 1 (h.idx * 2048 + n))).live = false
         else chanState b h n = 5 ∧ (b.objs.get {} (objKey 1 (h.idx * 2048 + n))).destroying = true)) ∧
    (Passes s m dirtyCard dirtyCheck → c.u8 0 = 1 → Gives (.thChannelDirtyLog m) s fun b =>
      (getChanDm b h n).log = some (c.u64 16, c.u32 24, c.u64 8) ∧ (getChanDm b h n).newBits = 0 ∧
        Answered b m thOk 0 0 (natToBytes 4 (dmNamed s.blk c).newBits ++ natToBytes 4 (dmNamed s.blk c).outside)) ∧
    (Passes s m freezeCard freezeCheck → Gives (.thChannelFreeze m) s fun b =>
      (c.u8 0 = 1 → Answered b m thOk 0 0 [] ∧ chanState b h n = (dmNamed s.blk c).before % 16) ∧
        (c.u8 0 = 0 → chanState s.blk h n = 3 → (getMbx b m).result.isSome = true ∧ b.regs = s.blk.regs) ∧
        (c.u8 0 = 0 → chanState s.blk h n ≠ 3 → (getMbx b m).waiting = true)) ∧
    (Passes s m (dmCard 0x304 256) restoreCheck → Gives (.thChannelRestore m) s fun b => Answered b m thOk 0 0 [] ∧
      chanState b h n = (if c.u8 1 = 4 then 4 else 2) ∧ fget b (DM_CH_STATUS h n) DM_CH_STATUS_HEAD = c.u32 8 ∧
        fget b (DM_CH_DOORBELL h n) DM_CH_DOORBELL_TAIL = c.u32 12 ∧ (getChanDm b h n).prog = savedProgress c)

/-- R451, R465, R467, R472, R475, R523: the commands of event rings, ports and endpoint functions act. -/
def Obligations.RingPortAndEndpointCommandsAct : Prop :=
  ∀ (m : Fin 20) (s : State), let c := callOf s.blk m; let h := fnHub c
    (Passes s m ringCreateCard ringCreateCheck → ∀ ix, ringPick s.blk c = some ix →
      let r : RingId := .ring (hubOf (ix / 64)) (Fin.ofNat 64 ix)
      Gives (.thEventRingCreate m) s fun b => Answered b m thOk 0 (handleOf b 2 ix) [] ∧
        (b.objs.get {} (objKey 2 ix)).live = true ∧ fon b (HUB_EVR_STATUS r) HUB_EVR_STATUS_CREATED = true ∧
        fget b (HUB_EVR_STATUS r) HUB_EVR_STATUS_CAP_LOG2 = c.u8 3 ∧ (getRing b ix).classMask = c.u16 4 ∧
          (getRing b ix).held = []) ∧
    (Passes s m ringDestroyCard (fun b c => need (!objEnds b c 2) thStale none) → let ix := bitsOf c.handle 15 0
      Gives (.thEventRingDestroy m) s fun b => (getMbx b m).waiting = true ∧
        (b.objs.get {} (objKey 2 ix)).destroying = true ∧ b.regs = s.blk.regs ∧ b.rings = s.blk.rings) ∧
    (Passes s m aoReadCard noCheck → let r : RingId := .ao (hubOf (c.u8 0)) (Fin.ofNat 2 (c.u8 1))
      Gives (.thEventAoRead m) s fun b => (∃ pay, Answered b m thOk 0 0 pay) ∧
        ((getRing s.blk (ringKey r)).lay = [] → (getRing s.blk (ringKey r)).tail = [] →
          (getRing b (ringKey r)).held = (getRing s.blk (ringKey r)).held.drop (c.u8 2))) ∧
    (Passes s m portConfigCard noCheck → Gives (.thPortConfigSet m) s fun b => Answered b m thOk 0 0 [] ∧
      b.pkg.portModes = (List.range 8).map c.u8 ∧ b.pkg.modesNow = s.blk.pkg.modesNow ∧ b.regs = s.blk.regs) ∧
    (Passes s m fnCreateCard fnCreateCheck → Gives (.thEpFunctionCreate m) s fun b => (getMbx b m).result.isSome = true ∧
      (getFn b h (c.u8 1)).live = true ∧ (getFn b h (c.u8 1)).vectors = c.u16 6 ∧
        (getFn b h (c.u8 1)).channels.length = c.u8 2 ∧ fnExists b h (c.u8 1) = true ∧ b.regs = s.blk.regs) ∧
    (Passes s m fnDestroyCard fnDestroyCheck → let ix := bitsOf c.handle 15 0
      Gives (.thEpFunctionDestroy m) s fun b => (getMbx b m).waiting = true ∧ (getFn b (objHub 3 ix) (ix % 256)).live = false) ∧
    (Passes s m lendCard lendCheck → c.u8 1 = 0 → (getIo s.blk h).ep.lent = none → Gives (.thEpLendSet m) s fun b =>
      (getMbx b m).waiting = true ∧ b.regs = s.blk.regs ∧ b.io = s.blk.io) ∧
    (Passes s m lendCard lendCheck → c.u8 1 = 1 → Gives (.thEpLendSet m) s fun b => (getMbx b m).waiting = true ∧
      (getIo b h).ep.lent = (getIo s.blk h).ep.lent)

/-- R487, R498, R505: the commands of the fabric act; a plan without APPLY_NOW is only stored. -/
def Obligations.FabricCommandsAct : Prop :=
  ∀ (m : Fin 20) (s : State), let c := callOf s.blk m
    (Passes s m fabricPlanCard fabricPlanCheck → Gives (.thFabricPlanSet m) s fun b => b.pkg.fabricPlan = planOf c ∧
      (c.u8 1 = 0 → Answered b m thOk 0 0 [] ∧ b.regs = s.blk.regs ∧ b.pkg.rolling = s.blk.pkg.rolling) ∧
        (c.u8 1 = 1 → (getMbx b m).waiting = true ∧ b.pkg.rolling = 2 ∧ b.pkg.fabricOld = s.blk.pkg.fabricPlan)) ∧
    (Passes s m routeSelectCard routeSelectCheck → Gives (.thFabricRouteSelect m) s fun b => b.regs = s.blk.regs ∧
      (fget s.blk (HWY_FABRIC_STATUS .n) HWY_FABRIC_STATUS_ALT = c.u8 0 → Answered b m thOk 0 0 [] ∧ b.pkg = s.blk.pkg) ∧
        (fget s.blk (HWY_FABRIC_STATUS .n) HWY_FABRIC_STATUS_ALT ≠ c.u8 0 →
          (getMbx b m).waiting = true ∧ b.pkg.draining = some (c.u8 0))) ∧
    (Passes s m waveRunCard waveRunCheck → Gives (.thWaveRun m) s fun b => (getMbx b m).waiting = true ∧
      b.wave.running = true ∧ b.wave.number = (s.blk.wave.number + 1) % 65536 ∧ b.wave.fabric = (c.u8 0 == 1) ∧
        (∀ h, fget b (HWY_WAVE_STATUS h) HWY_WAVE_STATUS_STATE = 1 ∧
          fget b (HWY_WAVE_STATUS h) HWY_WAVE_STATUS_WAVE = b.wave.number) ∧
        ∀ e ∈ linkEnds, endOwner e = 16 ∨ endOwner e = 17 → inWave b e = true → (getLink b e).way.isSome = true)

/-- R11, R12, R37: a write changes the RW fields that it covers and nothing else: a field with the suffix -S only for a secure
world caller, a locked field not at all; a read-only register keeps its value; a 64-bit register takes a write of its upper
half; an access of a wrong size is not performed. -/
def Obligations.RegisterWritesFollowTheFields : Prop :=
  ∀ (src : Source) (h : Hub) (v : Word) (s : State), let c := callerOf s.blk src
    let ok (off : Nat) : Prop := accepts s.blk c off true = true
    let reports (b : Block) : Prop := (b.evPath.get [] c.hub.idx).length = (s.blk.evPath.get [] c.hub.idx).length + 1
    (ok (HUB_COH_CTRL h) → c.world = true → Gives (.registerWrite src (.space (HUB_COH_CTRL h)) 4 v) s fun b =>
      bitsOf (rd b (HUB_COH_CTRL h)) 1 0 = bitsOf v.toNat 1 0 ∧
        bitsOf (rd b (HUB_COH_CTRL h)) 63 2 = bitsOf (rd s.blk (HUB_COH_CTRL h)) 63 2 ∧ RegsKeep s.blk b [HUB_COH_CTRL h]) ∧
    (ok (HUB_COH_CTRL h) → c.world = false → Gives (.registerWrite src (.space (HUB_COH_CTRL h)) 4 v) s fun b =>
      RegsKeep s.blk b [] ∧ reports b) ∧
    (ok (HUB_MILEPOST_DIES h) → Gives (.registerWrite src (.space (HUB_MILEPOST_DIES h)) 4 v) s fun b => RegsKeep s.blk b []) ∧
    (ok (HUB_WAKE_TIMER h + 4) → c.world = true → Gives (.registerWrite src (.space (HUB_WAKE_TIMER h + 4)) 4 v) s fun b =>
      bitsOf (rd b (HUB_WAKE_TIMER h)) 63 32 = v.toNat % 2 ^ 32 ∧
        bitsOf (rd b (HUB_WAKE_TIMER h)) 31 0 = bitsOf (rd s.blk (HUB_WAKE_TIMER h)) 31 0 ∧ RegsKeep s.blk b [HUB_WAKE_TIMER h]) ∧
    (∀ size, size = 1 ∨ size = 2 ∨ size = 8 → ok (HUB_COH_CTRL h) → c.bmc = false →
      Gives (.registerWrite src (.space (HUB_COH_CTRL h)) size v) s fun b => b.regs = s.blk.regs ∧ reports b) ∧
    (ok (HUB_LOCK h) → c.th = true → bitOf v.toNat 0 = true → Gives (.registerWrite src (.space (HUB_LOCK h)) 4 v) s fun b =>
      rd b (HUB_LOCK h) = 1 ∧ RegsKeep s.blk b [HUB_LOCK h])

/-- R12, R513: a software clear of a status bit of a link end clears the bit and its coalescing count; where a hardware set
meets it, the bit stays 1, the count advances and a record follows. CNT_CLEAR clears the counters of the end. Where no rule
says what a command does, that it has no effect is the model's choice (log entry 2). -/
def Obligations.StatusAndCounterClears : Prop :=
  ∀ (src : Source) (e : LinkId) (bit : Fin 64) (s : State), let c := callerOf s.blk src; let key := LINK_ERR e * 64 + bit
    (accepts s.blk c (LINK_ERR e) true = true → bit.val < 9 → Gives (.statusBitClear src (LINK_ERR e) bit false) s fun b =>
      bitOf (rd b (LINK_ERR e)) bit = false ∧ b.coal.get 0 key = 0 ∧
        (∀ n, n < 64 → n ≠ bit.val → bitOf (rd b (LINK_ERR e)) n = bitOf (rd s.blk (LINK_ERR e)) n) ∧
        RegsKeep s.blk b [LINK_ERR e] ∧ b.evPath = s.blk.evPath) ∧
    (accepts s.blk c (LINK_ERR e) true = true → bit.val < 9 → Gives (.statusBitClear src (LINK_ERR e) bit true) s fun b =>
      bitOf (rd b (LINK_ERR e)) bit = true ∧ b.coal.get 0 key = min 0xFFFF (s.blk.coal.get 0 key + 1) ∧
        RegsKeep s.blk b [LINK_ERR e] ∧ b.evPath ≠ s.blk.evPath) ∧
    (accepts s.blk c (LINK_ERR e) true = true → 9 ≤ bit.val → NoEffect (.statusBitClear src (LINK_ERR e) bit false) s) ∧
    (MayWriteS s src (LINK_CTRL e) → Gives (.cntClear src (LINK_CTRL e)) s fun b =>
      (∀ i, i < 9 → rd b (CNT_CRC_ERR e + 4 * i) = 0) ∧
        RegsKeep s.blk b ((List.range 9).map fun i => CNT_CRC_ERR e + 4 * i)) ∧
    (accepts s.blk c (LINK_CTRL e) true = true → c.world = false → Gives (.cntClear src (LINK_CTRL e)) s fun b =>
      b.regs = s.blk.regs)

/-- R35, R37, R458: HOME_GROUP_WRITE stores the fields of a home group unless its hub is locked, and reports a QMASK that R35
does not list; HPW_WRITE stores the fields of a window. R28, R50, R51, R550: a write that its block does not accept changes no
register; it is counted as lost against its source and destination where an I/O agent performs it, and reported. -/
def Obligations.MapWritesAndRefusedWrites : Prop :=
  (∀ (src : Source) (h : Hub) (g : Fin 32) (w : Fin 64) (v : Word) (s : State), let c := callerOf s.blk src
    let r := HUB_HOME_GROUP h g; let n := v.toNat
    (accepts s.blk c r true = true → fon s.blk (HUB_LOCK h) HUB_LOCK_LOCK = false → Gives (.homeGroupWrite src h g v) s fun b =>
      fget b r HUB_HOME_GROUP_PKG = bitsOf n 58 56 ∧ fget b r HUB_HOME_GROUP_QMASK = bitsOf n 55 52 ∧
        fget b r HUB_HOME_GROUP_BASE = bitsOf n 51 30 ∧ fget b r HUB_HOME_GROUP_PART = bitsOf n 17 16 ∧
        fget b r HUB_HOME_GROUP_SIZE_GIB = bitsOf n 15 0 ∧ RegsKeep s.blk b [r] ∧
        (bitsOf n 15 0 ≠ 0 → qmaskValid (bitsOf n 55 52) = false → b.evPath ≠ s.blk.evPath)) ∧
    (accepts s.blk c r true = true → fon s.blk (HUB_LOCK h) HUB_LOCK_LOCK = true → Gives (.homeGroupWrite src h g v) s fun b =>
      RegsKeep s.blk b [] ∧ b.evPath ≠ s.blk.evPath) ∧
    (accepts s.blk c (HUB_HPW_BASE h w) true = true → Gives (.hpwWrite src h w false v) s fun b =>
      let x := rd b (HUB_HPW_BASE h w)
      bitOf x 63 = bitOf n 63 ∧ bitsOf x 59 58 = bitsOf n 59 58 ∧ bitsOf x 55 52 = bitsOf n 55 52 ∧
        bitsOf x 51 12 = bitsOf n 51 12 ∧ RegsKeep s.blk b [HUB_HPW_BASE h w]) ∧
    (accepts s.blk c (HUB_HPW_SIZE h w) true = true → Gives (.hpwWrite src h w true v) s fun b =>
      fget b (HUB_HPW_SIZE h w) HUB_HPW_SIZE_PAGES = bitsOf n 39 0 ∧ RegsKeep s.blk b [HUB_HPW_SIZE h w])) ∧
  (∀ (src : Source) (off size : Nat) (v : Word) (bit : Fin 64) (race : Bool) (s : State), let c := callerOf s.blk src
    let lost (b : Block) : Prop := b.regs = s.blk.regs ∧ b.mbx = s.blk.mbx ∧ b.evPath ≠ s.blk.evPath ∧
      (c.plain = true → lostOf b 0 c.node (myNode s.blk (agIo c.hub)) = lostOf s.blk 0 c.node (myNode s.blk (agIo c.hub)) + 1) ∧
      (c.plain = false → b.lostWrites = s.blk.lostWrites)
    let refused (o : Nat) : Prop := accepts s.blk c o true = false
    (refused off → Gives (.registerWrite src (.space off) size v) s lost ∧ Gives (.statusBitClear src off bit race) s lost ∧
      Gives (.cntClear src off) s lost) ∧
    (∀ h g, refused (HUB_HOME_GROUP h g.val) → Gives (.homeGroupWrite src h g v) s lost) ∧
    (∀ h w, refused (HUB_HPW_SIZE h w.val) → Gives (.hpwWrite src h w true v) s lost) ∧
    (∀ m : Fin 20, refused (TH_MBX_DOORBELL m) → Gives (.ring src m) s lost ∧ Gives (.abort src m) s lost) ∧
    (∀ (m : Fin 20) o, refused (TH_MBX_DOORBELL m + o) → Gives (.mbxHeaderWrite src m o size v) s lost) ∧
    (∀ e, refused (LINK_CTRL e) → Gives (.linkStart src e) s lost ∧ Gives (.linkRetrain src e) s lost ∧
      Gives (.linkRestart src e) s lost ∧ Gives (.linkTakeDown src e) s lost) ∧
    (∀ r, refused (HUB_EVR_CTRL r) → Gives (.take src r) s lost))

/-- R514, R515, R518, R519: EVENT_RECORD moves the oldest record of a hub's path to its ring; TAKE moves the two oldest
records of a ring to its window. R517, R520: LAYBY_SPILL moves the two oldest records of a full tail to the lay-by, and
LAYBY_RETURN the oldest line of the lay-by to a head with room; a line that cannot be written or read is lost and counted.
Where no rule says what a command does, that it has no effect is the model's choice (log entry 2). -/
def Obligations.EventRingsMoveRecords : Prop :=
  (∀ (h : Hub) (s : State), let q := s.blk.evPath.get [] h.idx
    (q = [] → NoEffect (.eventRecord h) s) ∧
    (∀ x rest, q = x :: rest → x.aoOnly = true → (getRing s.blk (ringKey (.ao h 0))).held.length < 16 →
      Gives (.eventRecord h) s fun b => b.evPath.get [] h.idx = rest ∧
        (getRing b (ringKey (.ao h 0))).head = (getRing s.blk (ringKey (.ao h 0))).head ++ [x.ev] ∧
        rd b (CNT_EVR (.ao h 0) 0) = (rd s.blk (CNT_EVR (.ao h 0) 0) + 1) % 2 ^ 32 ∧
        rd b (CNT_EVR (.ao h 0) 2) = rd s.blk (CNT_EVR (.ao h 0) 2)) ∧
    (∀ x rest, q = x :: rest → x.aoOnly = true → 16 ≤ (getRing s.blk (ringKey (.ao h 0))).held.length →
      Gives (.eventRecord h) s fun b =>
        rd b (CNT_EVR (.ao h 0) 2) = (rd s.blk (CNT_EVR (.ao h 0) 2) + 1) % 2 ^ 32 ∧
        bitOf (rd b (HUB_EVR_STATUS (.ao h 0))) 5 = true) ∧
    (∀ x rest, q = x :: rest → x.aoOnly = false → bitsOf x.ev.w0.toNat 7 5 < 3 → allRings.find? (ringAdmits s.blk h x) = none →
      (getRing s.blk (ringKey (.ao h 1))).held.length < 16 → Gives (.eventRecord h) s fun b =>
        (getRing b (ringKey (.ao h 1))).head = (getRing s.blk (ringKey (.ao h 1))).head ++ [x.ev] ∧
          bitOf (rd b (HUB_ERR_STATUS h)) 1 = true) ∧
    (∀ (src : Source) (r : RingId) (e0 e1 : EvRec) (rest : List EvRec), accepts s.blk (callerOf s.blk src) (HUB_EVR_CTRL r) true = true →
      (callerOf s.blk src).world = true → (getRing s.blk (ringKey r)).held = e0 :: e1 :: rest → Gives (.take src r) s fun b =>
        (getRing b (ringKey r)).held = rest ∧ fget b (HUB_EVR_STATUS r) HUB_EVR_STATUS_WIN_VALID = 64 ∧
          rd b (HUB_EVR_WIN r 0) = e0.w0.toNat ∧ rd b (HUB_EVR_WIN r 7) = e1.w3.toNat ∧
          rd b (CNT_EVR r 1) = (rd s.blk (CNT_EVR r 1) + 2) % 2 ^ 32) ∧
    (∀ (src : Source) (r : RingId), accepts s.blk (callerOf s.blk src) (HUB_EVR_CTRL r) true = true →
      (callerOf s.blk src).world = true → (getRing s.blk (ringKey r)).held = [] → Gives (.take src r) s fun b =>
        fget b (HUB_EVR_STATUS r) HUB_EVR_STATUS_WIN_VALID = 0 ∧ rd b (CNT_EVR r 1) = rd s.blk (CNT_EVR r 1) % 2 ^ 32)) ∧
  (∀ (h : Hub) (n : Fin 64) (e0 e1 : EvRec) (s : State), let r : RingId := .ring h n; let x := getRing s.blk (ringKey r)
    (∀ rest, ringSpills s.blk r = true → x.tail = e0 :: e1 :: rest → 32 ≤ x.tail.length → x.lay.length < laybyLines s.blk r →
      (Gives (.laybySpill h n true) s fun b => (getRing b (ringKey r)).tail = rest ∧
        (getRing b (ringKey r)).lay = x.lay ++ [(e0, e1)] ∧ (getRing b (ringKey r)).head = x.head ∧ b.regs = s.blk.regs) ∧
      (Gives (.laybySpill h n false) s fun b => rd b (CNT_EVR r 2) = (rd s.blk (CNT_EVR r 2) + 2) % 2 ^ 32 ∧
        bitOf (rd b (HUB_EVR_STATUS r)) 6 = true ∧ (getRing b (ringKey r)).lay = x.lay)) ∧
    (x.tail.length < 32 → ∀ ok, NoEffect (.laybySpill h n ok) s) ∧
    (∀ rest, x.lay = (e0, e1) :: rest → x.head.length ≤ 30 →
      (Gives (.laybyReturn h n true) s fun b => (getRing b (ringKey r)).held = x.held ∧ (getRing b (ringKey r)).lay = rest ∧
        b.regs = s.blk.regs) ∧
      (Gives (.laybyReturn h n false) s fun b => rd b (CNT_EVR r 2) = (rd s.blk (CNT_EVR r 2) + 2) % 2 ^ 32 ∧
        bitOf (rd b (HUB_EVR_STATUS r)) 6 = true ∧ (getRing b (ringKey r)).lay = rest)) ∧
    ((x.lay = [] ∨ 30 < x.head.length) → ∀ ok, NoEffect (.laybyReturn h n ok) s))

/-- R521: whatever enters, is taken, spilled or lost, the count WRITTEN of a ring stays TAKEN + LOST + HELD: EVENT_RECORD,
TAKE, LAYBY_SPILL and LAYBY_RETURN keep it for every ring. -/
def Obligations.EventCountsStayBalanced : Prop :=
  ∀ (i : Instr) (s t : State),
    ((∃ h, i = .eventRecord h) ∨ (∃ src r, i = .take src r) ∨ (∃ h n ok, i = .laybySpill h n ok) ∨
      (∃ h n ok, i = .laybyReturn h n ok)) →
    exec i s = .next t → (∀ r, ringBalances s.blk r = true) → ∀ r, ringBalances t.blk r = true

/-- R339, R340, R357: a channel takes the oldest read and the oldest write at its input: into its queues, from or in place of
a queued write to the line, or refused while its milepost is clear. Where no rule says what a command does, that it has no
effect is the model's choice (log entry 2). -/
def Obligations.ChannelTakesRequests : Prop :=
  ∀ (h : Hub) (c : Fin 8) (s : State), let pc := pkgChan h c; let ch := getChan s.blk pc; let refusals := CNT_MC h c 8
    (mcNextRead ch.input [] = none → NoEffect (.mcRead h c) s) ∧
    (∀ r rest, mcNextRead ch.input [] = some (r, rest) →
      (chanReady s.blk h c = true → mcQueuedWrite ch r.ma = none → ch.reads.length < 256 → Gives (.mcRead h c) s fun b =>
        (getChan b pc).input = rest ∧ (getChan b pc).reads = ch.reads ++ [{ num := ch.nextNum, req := r }] ∧
          (getChan b pc).writes = ch.writes ∧ b.regs = s.blk.regs ∧ b.slices = s.blk.slices) ∧
      (chanReady s.blk h c = true → mcQueuedWrite ch r.ma = none → 256 ≤ ch.reads.length → NoEffect (.mcRead h c) s) ∧
      (chanReady s.blk h c = true → (mcQueuedWrite ch r.ma).isSome = true → Gives (.mcRead h c) s fun b =>
        (getChan b pc).reads = ch.reads ∧ (getChan b pc).writes = ch.writes) ∧
      (chanReady s.blk h c = false → Gives (.mcRead h c) s fun b => (getChan b pc).reads = ch.reads ∧
        rd b refusals = min 0xFFFF_FFFF (rd s.blk refusals + 1))) ∧
    (takeFirst (fun r : MemReq => r.write) ch.input = none → NoEffect (.mcWrite h c) s) ∧
    (∀ w rest, takeFirst (fun r : MemReq => r.write) ch.input = some (w, rest) →
      (chanReady s.blk h c = true → mcQueuedWrite ch w.ma = none → ch.writes.length < 128 → Gives (.mcWrite h c) s fun b =>
        (getChan b pc).writes = ch.writes ++ [{ num := ch.nextNum, req := w }] ∧ (getChan b pc).reads = ch.reads) ∧
      (chanReady s.blk h c = true → mcQueuedWrite ch w.ma = none → 128 ≤ ch.writes.length → NoEffect (.mcWrite h c) s) ∧
      (chanReady s.blk h c = true → (mcQueuedWrite ch w.ma).isSome = true → Gives (.mcWrite h c) s fun b =>
        (getChan b pc).writes.length = ch.writes.length ∧ (getChan b pc).reads = ch.reads) ∧
      (chanReady s.blk h c = false → Gives (.mcWrite h c) s fun b => (getChan b pc).writes = ch.writes ∧
        rd b refusals = min 0xFFFF_FFFF (rd s.blk refusals + 1)))

/-- R337, R341, R344, R345: MC_COMMAND_CHOICE issues the read that the rules choose, or performs the chosen write: its line of
DRAM then holds the write's data and marks, and every other byte is unchanged. Where no rule says what a command does, that it
has no effect is the model's choice (log entry 2). -/
def Obligations.CommandChoiceIssuesOneAccess : Prop :=
  ∀ (h : Hub) (c : Fin 8) (allowed : List Nat) (s : State), let pc := pkgChan h c; let b0 := mcDrain s.blk h c
    let ch := getChan b0 pc; let rs := (mcWaiting ch).filter fun e => allowed.contains e.num
    let ws := ch.writes.filter fun e => allowed.contains e.num
    (mcServes s.blk h c = false → NoEffect (.mcCommandChoice h c allowed) s) ∧
    (∀ e, mcServes s.blk h c = true → ch.drain = false → mcChooseRead b0 h c rs = some e →
      GivesMem (.mcCommandChoice h c allowed) s fun b d => d = s.dram ∧ (getChan b pc).writes = (getChan s.blk pc).writes ∧
        (getChan b pc).reads = ((getChan s.blk pc).reads.filter fun x => x.num != e.num) ++ [{ e with issued := true }]) ∧
    (∀ w, mcServes s.blk h c = true → ch.drain = true → (rs.find? fun e => e.urgency == 3) = none →
      (ws.find? (mcHits b0 h c)).or ws.head? = some w → GivesMem (.mcCommandChoice h c allowed) s fun b d =>
        (getChan b pc).writes = ((getChan s.blk pc).writes.filter fun x => x.num != w.num) ∧
          d.readLine pc w.req.ma = (w.req.data, w.req.poison) ∧ let la := dramAddr pc (w.req.ma / 64 * 64)
            ∀ a, a < la ∨ la + 64 ≤ a → d.byte a = s.dram.byte a)

/-- R335 to R338, R355, R356: the data of an issued read, a scrub read, and an alert: what is corrected counts, and what
cannot be corrected freezes the channel with its cause. R343, R346 to R350, R332, R353: the timers and the maintenance of a
channel. Where no rule says what a command does, that it has no effect is the model's choice (log entry 2). -/
def Obligations.ChannelErrorsAndMaintenance : Prop :=
  (∀ (h : Hub) (c : Fin 8) (syn : Hdr) (line : Nat) (s : State), let pc := pkgChan h c; let ch := getChan s.blk pc
    let isFrozen (b : Block) (cause : Nat) : Prop := fget b (MC_FREEZE_STATUS h c) MC_FREEZE_STATUS_FROZEN = 1 ∧
      fget b (MC_FREEZE_STATUS h c) MC_FREEZE_STATUS_CAUSE = cause ∧ chanReady b h c = false ∧ (getChan b pc).reads = [] ∧
        (getChan b pc).selfRefresh = true ∧ (getChan b pc).writes = ch.writes
    let free : Prop := fon s.blk (MC_FREEZE_STATUS h c) MC_FREEZE_STATUS_FROZEN = false
    let counts (i : Nat) (b : Block) : Prop := rd b (CNT_MC h c i) = min 0xFFFF_FFFF (rd s.blk (CNT_MC h c i) + 1)
    let scrubs : Prop := mcServes s.blk h c = true ∧ fget s.blk (MC_MAINT h c) MC_MAINT_SCRUB_HOURS ≠ 0
    (∀ ecc, takeFirst (fun e : McEnt => e.issued) ch.reads = none → NoEffect (.mcReadData h c ecc syn) s) ∧
    (∀ e rest, takeFirst (fun e : McEnt => e.issued) ch.reads = some (e, rest) →
      (Gives (.mcReadData h c .clean syn) s fun b => (getChan b pc).reads = rest ∧ (getChan b pc).writes = ch.writes ∧
        ((s.dram.readLine pc e.req.ma).2 ≠ 0 → counts 2 b)) ∧
      (Gives (.mcReadData h c .oneDevice syn) s fun b => (getChan b pc).reads = rest ∧ counts 0 b) ∧
      (free → Gives (.mcReadData h c .twoDevices syn) s fun b => isFrozen b 1)) ∧
    (scrubs → NoEffect (.patrolScrub h c line .clean syn) s) ∧
    (scrubs → Gives (.patrolScrub h c line .oneDevice syn) s fun b => counts 1 b ∧ b.chans = s.blk.chans) ∧
    (scrubs → free → Gives (.patrolScrub h c line .twoDevices syn) s fun b => isFrozen b 2) ∧
    (mcServes s.blk h c = false → ∀ ecc, NoEffect (.patrolScrub h c line ecc syn) s) ∧
    (fget s.blk (MC_CONFIG h c) MC_CONFIG_SPEED_MTS ≠ 0 → free → Gives (.alertN h c) s fun b => isFrozen b 3) ∧
    (fget s.blk (MC_CONFIG h c) MC_CONFIG_SPEED_MTS ≠ 0 → ¬ free → Gives (.alertN h c) s fun b =>
      fget b (MC_FREEZE_STATUS h c) MC_FREEZE_STATUS_MORE_ERRORS =
        min 0xFFFF (fget s.blk (MC_FREEZE_STATUS h c) MC_FREEZE_STATUS_MORE_ERRORS + 1) ∧ b.chans = s.blk.chans) ∧
    (fget s.blk (MC_CONFIG h c) MC_CONFIG_SPEED_MTS = 0 → NoEffect (.alertN h c) s)) ∧
  (∀ (h : Hub) (c : Fin 8) (s : State), let pc := pkgChan h c; let ch := getChan s.blk pc
    let serves : Prop := chanReady s.blk h c = true ∧ ch.selfRefresh = false
    let counts (i : Nat) (b : Block) : Prop := rd b (CNT_MC h c i) = min 0xFFFF_FFFF (rd s.blk (CNT_MC h c i) + 1)
    (∀ num e, ch.reads.find? (fun e => e.num == num) = some e → qosTarget s.blk h e.req.port ≠ 0 → e.urgency < 3 →
      Gives (.urgencyRaise h c num) s fun b =>
        (getChan b pc).reads.find? (fun e => e.num == num) = some { e with urgency := e.urgency + 1 } ∧
          (getChan b pc).reads.length = ch.reads.length ∧ (getChan b pc).writes = ch.writes) ∧
    (∀ num, ch.reads.find? (fun e => e.num == num) = none → NoEffect (.urgencyRaise h c num) s) ∧
    (∀ bank : BankId, let key := bank.rank.val * 64 + bank.sub.val * 32 + bank.group.val * 4 + bank.bank.val
      Gives (.openTimerExpiry h c bank) s fun b => (getChan b pc).rows.get 0 key = 0 ∧
        (∀ k, k ≠ key → (getChan b pc).rows.get 0 k = ch.rows.get 0 k) ∧ b.regs = s.blk.regs) ∧
    (∀ rank : Fin 16, serves → rank.val < mcPkgRanks s.blk h c → let n := ch.postponed.get 0 rank
      (mcRankBusy s.blk h c rank = true → n < mcRefreshLimit ch → Gives (.refreshDue h c rank) s fun b =>
        (getChan b pc).postponed.get 0 rank = n + 1) ∧
      (mcRankBusy s.blk h c rank = true → mcRefreshLimit ch ≤ n → Gives (.refreshDue h c rank) s fun b =>
        (getChan b pc).postponed.get 0 rank = n ∧ counts 6 b) ∧
      (mcRankBusy s.blk h c rank = false → Gives (.refreshDue h c rank) s fun b => (getChan b pc).postponed.get 0 rank = 0)) ∧
    (∀ rank : Fin 16, chanReady s.blk h c = false → NoEffect (.refreshDue h c rank) s) ∧
    (∀ d : Bool, Gives (.mr4Poll h c d) s fun b => fget b (MC_MAINT h c) MC_MAINT_RATE_2X = b2n d ∧
      RegsKeep s.blk b [MC_MAINT h c] ∧ b.chans = s.blk.chans) ∧
    (∀ (drift : Bool) (n : Fin 101), serves → ch.training = false → fget s.blk (MC_MAINT h c) MC_MAINT_INTERVAL ≠ 0 →
      Gives (.retrainingPause h c drift n) s fun b => counts 7 b ∧ fget b (MC_MAINT h c) MC_MAINT_LAST_PAUSE = n.val ∧
        (getChan b pc).rows = {} ∧ (drift = true → bitOf (rd b (MC_MAINT h c)) 40 = true)) ∧
    (∀ (drift : Bool) (n : Fin 101), ch.pauseDue = false → fget s.blk (MC_MAINT h c) MC_MAINT_INTERVAL = 0 →
      NoEffect (.retrainingPause h c drift n) s) ∧
    (ch.filling = true → fon s.blk (MC_FREEZE_STATUS h c) MC_FREEZE_STATUS_FROZEN = false →
      GivesMem (.channelFillDone h c) s fun b d => (getChan b pc).filling = false ∧ chanReady b h c = true ∧
        ∀ ma, ma < 2 ^ 40 → d.byte (dramAddr pc ma) =
          if bitOf ch.keep (mcRankOf s.blk h c ma) then s.dram.byte (dramAddr pc ma) else 0) ∧
    (ch.filling = false → NoEffect (.channelFillDone h c) s))

/-- R400, R403: PK1 is entered when the cores idle and no message is in flight, and left at PK1_EXIT. R404, R405, R408: an
attempt begins with its target; a block that accepts joins those that have; one that refuses ends the attempt as Refused; a
delay that lasts past ENTRY_LIMIT ends it as Timed out; RETRY_INTERVAL permits another. Where no rule says what a command
does, that it has no effect is the model's choice (log entry 2). -/
def Obligations.Pk1AndDeeperAttempts : Prop :=
  (∀ (s : State), let p := s.blk.power
    (p.coldHeld = false → p.pk = 0 → coresIdle s.blk = true → noMessages s.blk = true → Gives .pk1Entry s fun b =>
      b.power = { p with pk := 1 } ∧ fget b HUB_PWR_STATUS HUB_PWR_STATUS_STATE = 1 ∧ RegsKeep s.blk b [HUB_PWR_STATUS] ∧
        ∀ h ∈ guestSites s.blk, (getSpur b h).pwrReq = some (1, (getSpur s.blk h).pwrSeq)) ∧
    ((p.coldHeld = true ∨ p.pk ≠ 0 ∨ coresIdle s.blk = false ∨ noMessages s.blk = false) → NoEffect .pk1Entry s) ∧
    (p.pk = 1 → Gives .pk1Exit s fun b => b.power = { p with pk := 0 } ∧
      fget b HUB_PWR_STATUS HUB_PWR_STATUS_STATE = 0 ∧ RegsKeep s.blk b [HUB_PWR_STATUS]) ∧
    (p.pk ≠ 1 → NoEffect .pk1Exit s)) ∧
  (∀ (s : State), let p := s.blk.power; let target := powerTarget s.blk
    let outcome (b : Block) (n : Nat) : Prop := b.power.attempt = none ∧ b.power.blocked = true ∧
      fget b HUB_PWR_STATUS HUB_PWR_STATUS_LAST_OUTCOME = n
    (p.coldHeld = false → p.pk ≤ 1 → p.attempt = none → coresIdle s.blk = true → mayRetry s.blk = true → 3 ≤ target →
      Gives .powerAttemptStart s fun b => b.power.attempt = some (target, 1, []) ∧
        fget b HUB_PWR_STATUS HUB_PWR_STATUS_LAST_TARGET = target % 8) ∧
    ((p.coldHeld = true ∨ 1 < p.pk ∨ p.attempt.isSome = true ∨ coresIdle s.blk = false ∨ mayRetry s.blk = false ∨ target < 3) →
      NoEffect .powerAttemptStart s) ∧
    (∀ blk ans, p.attempt = none → NoEffect (.blockAnswer blk ans) s) ∧
    (∀ (t rank : Nat) (acc : List Nat) (blk : PowerBlock) (ans : PowerAnswer), p.attempt = some (t, rank, acc) → let key := blockKey blk
      ((rankKeys s.blk rank).contains key = false ∨ acc.contains key = true → NoEffect (.blockAnswer blk ans) s) ∧
      (rank ≤ 3 → (rankKeys s.blk rank).contains key = true → acc.contains key = false → refusals s.blk key ≠ [] →
        (∀ h, blk ≠ .slices h) → Gives (.blockAnswer blk ans) s fun b => outcome b 2) ∧
      (∀ h, blk = .core h → rank = 1 → (rankKeys s.blk 1).contains key = true → acc.contains key = false →
        refusals s.blk key = [] → ((rankKeys s.blk 1).all fun k => (acc ++ [key]).contains k) = false →
        Gives (.blockAnswer blk ans) s fun b =>
          b = { s.blk with power := { p with delays := p.delays.filter fun d => d.1 != key
                                             attempt := some (t, 1, acc ++ [key]) } })) ∧
    (p.delays = [] → NoEffect .entryLimitExpiry s) ∧
    (p.delays ≠ [] → p.attempt.isSome = true → Gives .entryLimitExpiry s fun b => outcome b 3) ∧
    (Gives .retryIntervalExpiry s fun b => b = { s.blk with power := { p with blocked := false, draining := [] } }) ∧
    (∀ h t rank acc, p.attempt = some (t, rank, acc) → (p.delays.any fun d => d.1 == 1792 + h.idx) = true →
      (getSpur s.blk h).pwrReq = none → (getSpur s.blk h).pwrAns = none → t ≠ 0 → Gives (.guestDelayExpiry h) s fun b =>
        (getSpur b h).pwrReq = some (t, (getSpur s.blk h).pwrSeq) ∧ b.outbox.length = s.blk.outbox.length + 1 ∧
          b.regs = s.blk.regs) ∧
    (∀ h, p.attempt = none → NoEffect (.guestDelayExpiry h) s))

/-- R411 to R415, R532: wake events, the window after commit, and the repetition on a highway. Where no rule says what a
command does, that it has no effect is the model's choice (log entry 2). -/
def Obligations.WakeEventsEndTheState : Prop :=
  ∀ (s : State), let p := s.blk.power
    (∀ w : WakeSource, w.code.val ≠ 0 → wakeEnabled s.blk w = false → NoEffect (.wakeEvent w) s) ∧
    (∀ w : WakeSource, (w.code.val = 0 ∨ wakeEnabled s.blk w = true) → p.attempt.isSome = true → Gives (.wakeEvent w) s fun b =>
      b.power.attempt = none ∧ fget b HUB_PWR_STATUS HUB_PWR_STATUS_LAST_OUTCOME = 4) ∧
    (∀ w : WakeSource, wakeEnabled s.blk w = true → p.attempt = none → p.window = true → NoEffect (.wakeEvent w) s) ∧
    (∀ w : WakeSource, wakeEnabled s.blk w = true → p.attempt = none → p.window = false → p.pk = 3 →
      wakesFrom w.code.val 3 = true → Gives (.wakeEvent w) s fun b => b.power.pk = 0 ∧
        fget b HUB_PWR_STATUS HUB_PWR_STATUS_WAKE_SOURCE = w.code.val ∧
        ∀ e ∈ inEnds, linkState s.blk e = 6 → linkState b e = 1) ∧
    (∀ w : WakeSource, wakeEnabled s.blk w = true → p.attempt = none → p.window = false → p.pk = 5 →
      wakesFrom w.code.val 5 = true → p.mainOffDue = false → p.enMain = false → p.needPulse = false → Gives (.wakeEvent w) s fun b =>
        b.power.enMain = true ∧ b.pkg.wakeCode = w.code.val ∧
          fget b HUB_PWR_STATUS HUB_PWR_STATUS_WAKE_SOURCE = w.code.val ∧ RegsKeep s.blk b [HUB_PWR_STATUS]) ∧
    (∀ levels, p.window = false → NoEffect (.wakeWindowEnd levels) s) ∧
    (∀ levels : List (Fin 11), p.window = true → p.pk = 3 → levels.contains 9 = true →
      bitOf (rd s.blk (HUB_WAKE_CTRL .n)) 8 = true → Gives (.wakeWindowEnd levels) s fun b =>
        b.power.pk = 0 ∧ b.power.window = false ∧ bitOf (rd b HUB_PWR_STATUS) 51 = true) ∧
    (∀ h k, linkState s.blk (.hwy h k) = 1 → fget s.blk (LINK_STATUS (.hwy h k)) LINK_STATUS_LAST_RETRAIN_CAUSE = 7 →
      Gives (.highwayExitRepeat h k) s fun b => b = { s.blk with outbox := s.blk.outbox ++ [.hwyExit h k] }) ∧
    (∀ h k, linkState s.blk (.hwy h k) ≠ 1 → NoEffect (.highwayExitRepeat h k) s)

/-- R416, R417: GRANT_EVALUATION lowers the highest grants while an average is past its limit, raises the lowest while both
are below, and gives each core the lowest of its request, its grant and its cap. R418, R538 to R540: a temperature sample
lowers a die's cap at once, raises it after ten cooler samples, and trips at 155; a sample below −40 has no meaning (the model
stops). -/
def Obligations.GrantsAndCapsFollowTheMeasure : Prop :=
  (∀ (m : PowerMeasure) (s : State), let p := s.blk.power; let harts := grantHarts s.blk
    let high := (harts.map (powerGrant s.blk)).foldl max 12; let low := (harts.map (powerGrant s.blk)).foldl min 38
    let past : Prop := p.sustained < m.average ∨ p.fast < m.fast
    let below : Prop := m.average < p.sustained ∧ m.fast < p.fast
    Gives (.grantEvaluation m) s fun b => b.power.average = m.average ∧
      (∀ i ∈ harts, cget b i FCD_CORE_PWR FCD_CORE_PWR_GRANTED =
        min (perfReq s.blk i) (min (powerGrant b i) (coreCap s.blk i))) ∧
      (past → 12 < high → ∀ i ∈ harts, powerGrant b i =
        if powerGrant s.blk i = high then min 38 (high - 1) else powerGrant s.blk i) ∧
      (below → low < 38 → ∀ i ∈ harts, powerGrant b i =
        if powerGrant s.blk i = low then low + 1 else powerGrant s.blk i) ∧
      (¬ past → ¬ below → ∀ i, powerGrant b i = powerGrant s.blk i) ∧ b.regs = s.blk.regs) ∧
  (∀ (u : ClockUnit) (t : Int) (s : State), let k := unitKey u; let cap := capOf s.blk k
    let cooler := s.blk.power.cooler.get 0 k
    (t < -40 → exec (.thermalSample u t) s = .fault .belowMinusForty) ∧
    (155 ≤ t → Gives (.thermalSample u t) s fun b => b.power.clocksStopped = true ∧ b.power.thermTrip = true ∧
      b.regs = s.blk.regs ∧ b.evPath ≠ s.blk.evPath) ∧
    (-40 ≤ t → t < 155 → derate t < cap → Gives (.thermalSample u t) s fun b => capOf b k = derate t ∧
      b.power.temps.get 0 k = (t + 41).toNat ∧ b.regs = s.blk.regs) ∧
    (-40 ≤ t → t < 155 → cap ≤ derate t → cap ≠ 38 → t ≤ (capRow cap).2 - 3 → cooler + 1 = 10 →
      Gives (.thermalSample u t) s fun b => capOf b k = (capRow cap).1 ∧ b.power.cooler.get 0 k = 0) ∧
    (-40 ≤ t → t < 155 → cap ≤ derate t → cap ≠ 38 → t ≤ (capRow cap).2 - 3 → cooler + 1 ≠ 10 →
      Gives (.thermalSample u t) s fun b => capOf b k = cap ∧ b.power.cooler.get 0 k = cooler + 1) ∧
    (-40 ≤ t → t < 155 → cap ≤ derate t → cap ≠ 38 → (capRow cap).2 - 3 < t → Gives (.thermalSample u t) s fun b =>
      capOf b k = cap ∧ b.power.cooler.get 0 k = 0))

/-- R482 to R487, R505: a roll call under way ends with its outcome, the FABRIC milepost and the answer to its command; a
timeout fails it with reason 1; the route alternative changes once the old routes are empty. R498 to R504: a Waymark is taken
out of its receive buffer and its agent learns of the wave; the limit ends a wave. Where no rule says what a command does,
that it has no effect is the model's choice (log entry 2). -/
def Obligations.RollCallsRoutesAndWavesEnd : Prop :=
  (∀ (f : RollCall) (s : State), let plan := s.blk.pkg.fabricPlan; let rolling := s.blk.pkg.rolling
    let number := if plan.topology = 0 then 0 else memberNumber f 0
    let stays : Prop := rolling = 2 ∧ f.timedOut = false ∧
      (f.heldOk && heldForPlan s.blk s.blk.pkg.fabricOld plan number) = false
    let alone : Prop := plan.topology = 0 ∧ f.timedOut = false
    let field (b : Block) (fld : Fld) (v : Nat) : Prop := ∀ h, fget b (HWY_FABRIC_STATUS h) fld = v
    let ends (st det : Nat) (fact : Block → Prop) (b : Block) : Prop := ∃ b0, fact b0 ∧
      (∀ h, bitOf (rd b0 (HUB_MILEPOST_TH h)) 8 = true) ∧
      b = replyAll (if rolling = 1 then formAll b0 else { b0 with pkg := { b0.pkg with rolling := 0 } }) codePlanSet st det []
    let isAlone (reason : Nat) (b : Block) : Prop := field b HWY_FABRIC_STATUS_FORMED 0 ∧ field b HWY_FABRIC_STATUS_PKG 0 ∧
      field b HWY_FABRIC_STATUS_FAIL_REASON reason ∧ b.pkg.neighbours = {}
    (rolling = 0 → NoEffect (.rollCall f) s ∧ NoEffect .rollCallTimeout s) ∧
    (stays → Gives (.rollCall f) s fun b =>
      b = replyAll { s.blk with pkg := { s.blk.pkg with fabricPlan := s.blk.pkg.fabricOld, rolling := 0 } } codePlanSet thBusy 0 []) ∧
    (rolling ≠ 0 → ¬ stays → alone → Gives (.rollCall f) s (ends thOk 0 (isAlone 0))) ∧
    (∀ r, rolling ≠ 0 → ¬ stays → ¬ alone → rollFault s.blk f = .inl r →
      Gives (.rollCall f) s (ends thRefused r (isAlone (r % 16)))) ∧
    (∀ seq, rolling ≠ 0 → ¬ stays → ¬ alone → rollFault s.blk f = .inr seq → Gives (.rollCall f) s (ends thOk 0 fun b =>
      field b HWY_FABRIC_STATUS_FORMED 1 ∧ field b HWY_FABRIC_STATUS_PKG (memberNumber f 0 % 8) ∧
        field b HWY_FABRIC_STATUS_MEMBERS ((2 ^ seq.length - 1) % 256) ∧ field b HWY_FABRIC_STATUS_ALT 0 ∧
        field b HWY_FABRIC_STATUS_FAIL_REASON 0 ∧ field b HWY_FABRIC_STATUS_COORDINATOR 0)) ∧
    (rolling ≠ 0 → Gives .rollCallTimeout s (ends thRefused 1 (isAlone 1))) ∧
    (s.blk.pkg.draining = none → NoEffect .routeDrainDone s ∧ NoEffect .routeDrainTimeout s) ∧
    (∀ alt, s.blk.pkg.draining = some alt → (routeDrained s.blk = false → NoEffect .routeDrainDone s) ∧
      (routeDrained s.blk = true → Gives .routeDrainDone s fun b => b.pkg.draining = none ∧
        field b HWY_FABRIC_STATUS_ALT (alt % 2)) ∧
      Gives .routeDrainTimeout s fun b =>
        b = replyAll { s.blk with pkg := { s.blk.pkg with draining := none } } codeRouteSelect thRefused 1 [])) ∧
  (∀ (e : LinkId) (s : State), let way (m : Msg) : Bool := hOp m.hdr == opWaymark
    let q := (getLink s.blk e).rxq.get [] vcMgt
    (takeFirst way q = none → NoEffect (.waymark e) s) ∧
    (∀ m rest, takeFirst way q = some (m, rest) → Gives (.waymark e) s fun b =>
      (getLink b e).rxq.get [] vcMgt = rest ∧
        (ofWave s.blk m.hdr = true → b.wave.running = true → b.wave.known.contains (endOwner e) = true) ∧
        (ofWave s.blk m.hdr = false → (s.blk.wave.running = true → waveFull s.blk = false) → b.wave = s.blk.wave)) ∧
    (s.blk.wave.running = false → NoEffect .waveLimitExpiry s) ∧
    (s.blk.wave.running = true → Gives .waveLimitExpiry s fun b => b.wave.running = false ∧ b.wave.page = none ∧
      (∀ h, fget b (HWY_WAVE_STATUS h) HWY_WAVE_STATUS_STATE = 2) ∧ ∀ x ∈ linkEnds, (getLink b x).way = none))

/-- R219 to R221, R490, R492, R495, R511: after a loss the wait ends with the scrub under way, and the scrub ends when no
filter names what is lost; the proxy takes requests for neighbours' homes and spreads their snoops. Where no rule says what a
command does, that it has no effect is the model's choice (log entry 2). -/
def Obligations.LossesAndProxiesAct : Prop :=
  ∀ (h : Hub) (t : LostTarget) (s : State), let key := lostKeyOf h t; let io := getIo s.blk h
    let box (c : Nat) : List Msg := getBox s.blk (boxIo h) c
    let heads (c op : Nat) : Bool := boxHeadIs s.blk (boxIo h) c op
    let nodes := (proxyTargets s.blk).map (myNode s.blk)
    (s.blk.pkg.lostWait.contains key = false ∨ lostDrained s.blk h t = false → NoEffect (.lostDrainDone h t) s) ∧
    (s.blk.pkg.lostWait.contains key = true → lostDrained s.blk h t = true → Gives (.lostDrainDone h t) s fun b =>
      scrubRuns b h t = true ∧ b.pkg.lostWait = s.blk.pkg.lostWait.filter fun k => k != key) ∧
    (scrubRuns s.blk h t = false → NoEffect (.scrubDone h t) s) ∧
    (scrubRuns s.blk h t = true → Gives (.scrubDone h t) s fun b =>
      scrubRuns b h t = false ↔ ∀ i < 32, scrubKeys b h i (lostNum t) = []) ∧
    (box vcDat = [] → box vcReq = [] → NoEffect (.proxyRequest h) s) ∧
    (∀ m rest, box vcDat = [] → box vcReq = m :: rest → forProxy s.blk m.hdr = true → Gives (.proxyRequest h) s fun b =>
      (getIo b h).proxyIn = io.proxyIn + 1 ∧ ∃ p ∈ (getIo b h).proxy, p.hdr = m.hdr) ∧
    (∀ m rest, box vcDat = [] → box vcReq = m :: rest → forProxy s.blk m.hdr = false → Gives (.proxyRequest h) s fun b =>
      b = hubRefuse (putBox s.blk (boxIo h) vcReq rest) h m.hdr) ∧
    (box vcSnp = [] → heads vcRsp opSnpResp = false → heads vcDat opSnpRespData = false → NoEffect (.proxySnoop h) s) ∧
    (∀ m rest, box vcSnp = m :: rest → heads vcRsp opSnpResp = false → heads vcDat opSnpRespData = false →
      let late := io.proxyOut.any fun w => w.line == hLine m.hdr && nodes.contains w.node
      (late = true → NoEffect (.proxySnoop h) s) ∧
      (late = false → nodes ≠ [] → Gives (.proxySnoop h) s fun b => ∃ x ∈ (getIo b h).proxySnoops, x.hdr = m.hdr ∧ x.left = nodes))

/-- R28, R30, R191, R257 to R259, R456, R459: what an I/O message does at an agent that serves none, at the I/O agent and its
windows; what an MsFlush answers and when; the guest's missing answers (R233). Where no rule says what a command does, that it
has no effect is the model's choice (log entry 2). -/
def Obligations.IoMessagesAreServed : Prop :=
  ∀ (h : Hub) (m : Msg) (rest : List Msg) (s : State), let src := hSrc m.hdr; let dst := hDst m.hdr
    let at_ (key op : Nat) : Prop := getBox s.blk key vcPio = m :: rest ∧ hOp m.hdr = op
    let popped (key : Nat) : Block := putBox s.blk key vcPio rest
    let io := getIo s.blk h; let b1 := popped (boxIo h); let c := pioCaller b1 h m.hdr
    let pa := pioPa m.hdr; let part := c.part.getD (msgPart b1 h m.hdr pa)
    let admits : Prop := portHolds s.blk h m.hdr = false ∧ (!hWorld m.hdr && inRegion b1 h part pa) = false
    let other (t : IoTarget) (key : Nat) : Prop :=
      (∀ op, (op = opIoWr ∨ op = opIoRd) → boxHeadIs s.blk key vcPio op = false →
        (op = opIoWr → NoEffect (.ioWr t) s) ∧ (op = opIoRd → NoEffect (.ioRd t) s)) ∧
      (at_ key opIoWr → hVc m.hdr = vcPio → Gives (.ioWr t) s fun b => lostOf b 0 src dst = lostOf s.blk 0 src dst + 1) ∧
      (at_ key opIoRd → hVc m.hdr = vcPio → Gives (.ioRd t) s fun b => b = hubPut (reportPio (popped key) h m.hdr) h
        { hdr := mkComp (hWorld m.hdr) src dst (hTag m.hdr) stI stsError 0 })
    let flushed (t : FlushTarget) (key : Nat) : Prop := at_ key opMsFlush → let n := lostOf s.blk 0 src dst
      Gives (.msFlush t) s fun b => lostOf b 0 src dst = 0 ∧ b = hubPut (clearLost (popped key) 0 src dst) h
        { hdr := mkComp (hWorld m.hdr) src dst (hTag m.hdr) stI (if n = 0 then stsOk else stsLost) (lostField n) }
    other (.dm h) (boxDm h) ∧ other (.th h) (boxTh h) ∧
    (∀ off v, at_ (boxIo h) opIoRd → admits → decodePa b1 h part pa = .ctl off → guestSpace off = none →
      regRead b1 c off (pioBytes m.hdr) = some v → Gives (.ioRd (.io h)) s fun b => b = hubPut b1 h
        { hdr := mkDat opCompData (hWorld m.hdr) src dst (hTag m.hdr) stI stsOk 0 (pioBe m.hdr) 0
          data := lineOf (pa % 64) (pioBytes m.hdr) v }) ∧
    (∀ off, at_ (boxIo h) opIoWr → admits → decodePa b1 h part pa = .ctl off → guestSpace off = none →
      (pioPoison m.hdr = 0 → Gives (.ioWr (.io h)) s fun b =>
        b = regWrite b1 c off (pioBytes m.hdr) (lineBytes m.data (pa % 64) (pioBytes m.hdr))) ∧
      (pioPoison m.hdr &&& beWords (pioBe m.hdr) ≠ 0 → Gives (.ioWr (.io h)) s fun b =>
        b = refuseWrite b1 c off (m.hdr.toNat % 2 ^ 64))) ∧
    (∀ w port, at_ (boxIo h) opIoWr → admits → decodePa b1 h part pa = .win h w 0 port → (getPort b1 h port).claimed = false →
      portReady b1 h (port % 16) = true → Gives (.ioWr (.io h)) s fun b =>
        b.outbox = s.blk.outbox ++ [.mwr h (some (Fin.ofNat 16 port)) pa m.data (pioBe m.hdr) (pioPoison m.hdr)] ∧
          ∃ x ∈ (getIo b h).wins, x.src = src ∧ x.window = w ∧ x.last = pa) ∧
    flushed (.dm h) (boxDm h) ∧ flushed (.th h) (boxTh h) ∧ (slicesOwe s.blk h src = false → flushed (.home h) (boxHome h)) ∧
    (at_ (boxHome h) opMsFlush → slicesOwe s.blk h src = true → NoEffect (.msFlush (.home h)) s) ∧
    (at_ (boxIo h) opMsFlush → io.flushes = [] → (io.wins.filter fun x => x.src == src) = [] →
      (io.pcie.any fun r => r.write && r.mem.isNone && hSrc r.hdr == src) = false → Gives (.msFlush (.io h)) s fun b =>
        (getIo b h).flushes = [] ∧ lostOf b 0 src dst = 0) ∧
    (∀ (w : Fin 64) (n : Nat) (f : FlushWait) (res : TlpStatus), io.flushes = [f] → f.windows = [(w.val, n)] →
      (f.cfgs = [] → Gives (.flushReadDone h w res) s fun b =>
        (getIo b h).flushes = [] ∧ lostOf b 0 (hSrc f.hdr) (hDst f.hdr) = 0) ∧
      (f.cfgs ≠ [] → Gives (.flushReadDone h w res) s fun b => (getIo b h).flushes =
        [{ f with windows := [], lost := if res = .ok then f.lost else f.lost + n }])) ∧
    (∀ (n : BitVec 8) (tag : BitVec 12), let mine (x : Hdr) : Bool := hSrc x == n.toNat && hTag x == tag.toNat
      (takeFirst mine (getSpur s.blk h).pio = none → NoEffect (.pioTimeout h n tag) s) ∧
      (∀ x l, takeFirst mine (getSpur s.blk h).pio = some (x, l) → Gives (.pioTimeout h n tag) s fun b =>
        rd b (CNT_SPUR h 4) = min 0xFFFF_FFFF (rd s.blk (CNT_SPUR h 4) + 1)))

/-- R141, R309 to R311, R496: a Tollhouse takes a MgtMsg; a relay copies a BcastInval to its targets and waits for each; a die
passes a copy to its 20 harts and answers after the last. Where no rule says what a command does, that it has no effect is the
model's choice (log entry 2). -/
def Obligations.InvalidationsAreRelayed : Prop :=
  ∀ (h : Hub) (m : Msg) (rest : List Msg) (s : State), let th := getTh s.blk h
    let at_ (key op : Nat) : Prop := getBox s.blk key vcMgt = m :: rest ∧ hOp m.hdr = op
    let p := binvPart s.blk h m.hdr; let targets := relayTargets s.blk h m.hdr p
    let reached := targets.filter fun n => reachable s.blk h n
    (boxHeadIs s.blk (boxTh h) vcMgt opMgtMsg = false → NoEffect (.mgtMsg h) s) ∧
    (at_ (boxTh h) opMgtMsg → Gives (.mgtMsg h) s fun b => (getTh b h).mail = th.mail ++ [m] ∧
      getBox b (boxTh h) vcMgt = rest ∧ b.regs = s.blk.regs) ∧
    (boxHeadIs s.blk (boxTh h) vcMgt opBcastInval = false ∨ 256 ≤ th.relay.length → NoEffect (.bcastInval h) s) ∧
    (at_ (boxTh h) opBcastInval → th.relay.length < 256 → targets.length ≤ (freeTags 0 4095 (thTags th)).length →
      (∀ o ∈ th.relay, o.num < th.nextRelay) → reached ≠ [] → Gives (.bcastInval h) s fun b =>
        (getTh b h).nextRelay = th.nextRelay + 1 ∧ ∃ o ∈ (getTh b h).relay,
          o.num = th.nextRelay ∧ o.hdr = m.hdr ∧ o.part = p ∧ o.left.map (·.1) = reached) ∧
    (∀ k : Die, (boxHeadIs s.blk (boxDie k.val) vcMgt opBcastInval = false → NoEffect (.bcastInvalCopy k) s) ∧
      (at_ (boxDie k.val) opBcastInval → Gives (.bcastInvalCopy k) s fun b =>
        (getDie b k.val).copies = (getDie s.blk k.val).copies ++
          [{ hdr := m.hdr, left := (List.range 20).map (k.val * 20 + ·) }] ∧ getBox b (boxDie k.val) vcMgt = rest ∧
        b.slices = s.blk.slices ∧ b.chans = s.blk.chans)) ∧
    (∀ i : Hart, let k := hartDie i.val
      (accessesDone s.blk i.val = false → NoEffect (.hartInvalAck i) s) ∧
      (∀ c l, accessesDone s.blk i.val = true → (getDie s.blk k).copies = c :: l → c.left.contains i.val = true →
        (∀ x ∈ l, x.left ≠ []) → let left := c.left.filter (· != i.val)
        Gives (.hartInvalAck i) s fun b => (getDie b k).copies = (if left = [] then l else { c with left := left } :: l) ∧
          b.harts = s.blk.harts ∧ b.regs = s.blk.regs)) ∧
    (∀ (num : Nat) (n : BitVec 8),
      ((th.relay.find? fun o => o.num == num && o.left.any fun x => x.1 == n.toNat) = none → NoEffect (.relayTimeout h num n) s) ∧
      (∀ o l, th.relay = o :: l → o.num = num → (o.left.any fun x => x.1 == n.toNat) = true → (∀ x ∈ l, x.left ≠ []) →
        let left := o.left.filter fun y => y.1 != n.toNat
        Gives (.relayTimeout h num n) s fun b =>
          (getTh b h).relay = if left = [] then l else { o with left := left } :: l))

/-- R248, R249, R262, R267, R274: loads, stores, atomics and fetches of a hart that hit its store buffer or its L2, in terms
of the block `b'` that the translation leaves; a load that misses waits. R275, R279: what the protection of the caches finds
at a load or a fetch; that the access goes on after a tag error is the model's choice (log entry 116). Where no rule says what
a command does, that it has no effect is the model's choice (log entry 2). -/
def Obligations.HartAccessesComplete : Prop :=
  ∀ (hart : Hart) (va : Word) (size : Size) (value : Word) (rd : Fin 32) (signed wide parity : Bool) (err : ArrayErr) (op : AmoOp)
    (s : State),
    let i := hart.val; let n := size.bytes; let aw := if wide then 8 else 4
    let load : Instr := .load hart (.x rd signed) va size parity err; let store : Instr := .store hart va size value
    let amo : Instr := .amo hart op rd va wide value; let lr : Instr := .lr hart rd va wide; let sc : Instr := .sc hart rd va wide value
    let ext (v : Nat) : Word := BitVec.ofNat 64 (if signed && bitOf v (8 * n - 1) then v + (2 ^ 64 - 2 ^ (8 * n)) else v)
    let into (d : LineData) (off k v : Nat) : LineData := mergeLine d (lineOf off k v) (beOf off k)
    let open_ (b : Block) (pa : Nat) : Prop := secDenies b i (pa / 64) (hartWorld b i) = false
    let single (b : Block) (pa : Nat) : Prop := pa % 64 + n ≤ 64 ∧ (va.toNat % n = 0 ∨ isRegion b i pa = false)
    (∀ cause gpa b', Begins s i 0 → translate s.blk i .load va = (.fault cause gpa, b') →
      Gives load s fun b => b = exception b' i cause va (gpa / 4)) ∧
    (∀ pa mt b', Begins s i 0 → translate s.blk i .load va = (.ok pa mt, b') →
      (va.toNat % n ≠ 0 → isRegion b' i pa = true → Gives load s fun b => b = exception b' i excLoadMisaligned va) ∧
      (single b' pa → accType b' i pa mt = .pma → fenceHolds b' i clsR = false →
        (sbHolds (getHart b' i) (getHart b' i).sbNext pa n = true → Gives load s fun b =>
          HoldsX b i rd.val (ext (loadBytes (getHart b' i) (getHart b' i).sbNext pa (fun _ => 0) n))) ∧
        (∀ l, (getHart b' i).sb = [] → l2Line (getHart b' i) (pa / 64) = some l → open_ b' pa →
          let inL1 := (l1Find (getHart b' i).l1d (l1dKeys (pa / 64)) (pa / 64)).isSome; let k := hartDie i
          (l.poison = 0 → ((∃ w, err = .word w) → inL1 = true ∧ parity = false) →
            Gives load s fun b => HoldsX b i rd.val (ext (lineBytes l.data (pa % 64) n))) ∧
          (l.poison = 0 → inL1 = true → parity = true → err = .clean → Gives load s fun b =>
            ∃ r, b.evPath.get [] (agentHub k).idx = b'.evPath.get [] (agentHub k).idx ++ [r]) ∧
          (∀ w, inL1 = false ∨ parity = true → err = .word w → Gives load s fun b => ∃ l', l2Line (getHart b i) (pa / 64) = some l' ∧
            l'.st = l.st ∧ l'.data = l.data ∧ l'.poison = poisonWord l.poison w) ∧
          (∀ w, inL1 = false ∨ parity = true → err = .tag w → Gives load s fun b => (getDie b k).frozen = true)) ∧
        ((getHart b' i).sb = [] → l2Line (getHart b' i) (pa / 64) = none → lineReq b' i (pa / 64) = none →
          Gives load s fun b => hartWaits b i = true ∧ ∀ r, getX b i r = getX b' i r))) ∧
    (∀ pa mt b', Begins s i 0 → translate s.blk i .store va = (.ok pa mt, b') → single b' pa → let t := accType b' i pa mt
      (t = .pma → open_ b' pa) → fenceHolds b' i (storeCls t) = false → Gives store s fun b =>
        (getHart b i).sbNext = (getHart b' i).sbNext + 1 ∧ (getHart b i).sb = (getHart b' i).sb ++
          [{ id := (getHart b' i).sbNext, va := va, pa := pa, len := n, value := value, mtype := t, world := hartWorld b' i }] ∧
        (getHart b i).l2 = (getHart b' i).l2) ∧
    (mayDrain s.blk i = false ∨ (getHart s.blk i).sb = [] → NoEffect (.storeBufferDrain hart) s) ∧
    (∀ e rest l, mayDrain s.blk i = true → Quiet s.blk i → (getHart s.blk i).sb = e :: rest → e.mtype = .pma → e.zero = false →
      l2Line (getHart s.blk i) (e.pa / 64) = some l → stWritable l.st = true → secDenies s.blk i (e.pa / 64) e.world = false →
      Gives (.storeBufferDrain hart) s fun b => HoldsM b i (e.pa / 64) (into l.data (e.pa % 64) e.len e.value.toNat) ∧
        (getHart b i).sb = (e :: rest).filter fun x => x.id != e.id) ∧
    (va.toNat % aw ≠ 0 → (Begins s i (clsR ||| clsW) → Gives amo s fun b => b = exception s.blk i excStoreMisaligned va) ∧
      (Begins s i clsR → Gives lr s fun b => b = exception s.blk i excLoadMisaligned va) ∧
      (Begins s i clsW → Gives sc s fun b => b = exception s.blk i excStoreMisaligned va)) ∧
    (∀ pa mt b' l, Begins s i (clsR ||| clsW) → va.toNat % aw = 0 → translate s.blk i .store va = (.ok pa mt, b') →
      accType b' i pa mt = .pma → open_ b' pa → sbHasLine b' i (pa / 64) = false → l2Line (getHart b' i) (pa / 64) = some l →
      stWritable l.st = true → blockBad l.poison pa = false → let old := lineBytes l.data (pa % 64) aw
      Gives amo s fun b => HoldsX b i rd.val (signExt aw old) ∧
        HoldsM b i (pa / 64) (into l.data (pa % 64) aw (amoValue op aw old (value.toNat % 2 ^ (8 * aw))))) ∧
    (∀ pa mt b' l, Begins s i clsR → va.toNat % aw = 0 → translate s.blk i .load va = (.ok pa mt, b') →
      accType b' i pa mt = .pma → open_ b' pa → sbHasLine b' i (pa / 64) = false → l2Line (getHart b' i) (pa / 64) = some l →
      stWritable l.st = true → blockBad l.poison pa = false → Gives lr s fun b =>
        HoldsX b i rd.val (signExt aw (lineBytes l.data (pa % 64) aw)) ∧ (getHart b i).resv = some (pa / 64)) ∧
    (∀ pa mt b', Begins s i clsW → va.toNat % aw = 0 → translate s.blk i .block va = (.ok pa mt, b') →
      accType b' i pa mt = .pma → open_ b' pa →
      ((getHart b' i).resv ≠ some (pa / 64) → Gives sc s fun b => HoldsX b i rd.val 1 ∧ (getHart b i).resv = none ∧
        (getHart b i).l2 = (getHart b' i).l2) ∧
      (∀ pa2 mt2 b2 l, (getHart b' i).resv = some (pa / 64) → translate b' i .store va = (.ok pa2 mt2, b2) →
        sbHasLine b2 i (pa / 64) = false → (getHart b2 i).resv = some (pa / 64) → l2Line (getHart b2 i) (pa / 64) = some l →
        stWritable l.st = true → Gives sc s fun b => HoldsX b i rd.val 0 ∧ (getHart b i).resv = none ∧
          HoldsM b i (pa / 64) (into l.data (pa % 64) aw (value.toNat % 2 ^ (8 * aw))))) ∧
    (canBegin s.blk i 0 = false → NoEffect (.instructionFetch hart va parity err) s) ∧
    (∀ pa mt b' l, canBegin s.blk i 0 = true → (getHart s.blk i).fetched = [] → translate s.blk i .fetch va = (.ok pa mt, b') →
      (getHart b' i).fetched = [] → accType b' i pa mt = .pma → l2Line (getHart b' i) (pa / 64) = some l → open_ b' pa →
      let inL1 := (l1Find (getHart b' i).l1i (l1iKeys (pa / 64)) (pa / 64)).isSome
      Gives (.instructionFetch hart va parity err) s fun b => ∃ f, (getHart b i).fetched = [f] ∧ f.va = va ∧
        (((∃ w, err = .word w) → inL1 = true ∧ parity = false) → f.poisoned = blockBad l.poison pa) ∧
        (∀ w, inL1 = false ∨ parity = true → err = .word w → f.poisoned = blockBad (poisonWord l.poison w) pa))

/-- R249, R252 to R266, R401 and the RISC-V trap rules of log entry 6: no instruction begins that may not; fences hold later
accesses back; a milestone retires with its result; interrupts are taken; cores change state. Where no rule says what a
command does, that it has no effect is the model's choice (log entry 2). -/
def Obligations.HartsWaitAndTrap : Prop :=
  ∀ (hart : Hart) (va value cause : Word) (size : Size) (rd rs1 : Fin 32) (rs2 : BitVec 5) (pred succ : BitVec 4)
    (wide parity : Bool) (err : ArrayErr) (dest : LoadDest) (op : AmoOp) (addr : Option Word) (ident : Option (BitVec 16)) (set : Fin 2048) (way : Fin 16) (s : State),
    let i := hart.val; let h := getHart s.blk i; let u := unperformed s.blk i; let rw := clsR ||| clsW
    let instrs : List (Instr × Nat) := [(.load hart dest va size parity err, 0), (.store hart va size value, 0), (.amo hart op rd va wide value, rw),
      (.lr hart rd va wide, clsR), (.sc hart rd va wide value, clsW), (.fence hart pred succ, 0), (.fenceTso hart, 0),
      (.fenceI hart, 0), (.milestone hart rd rs1 rs2, 0), (.cboClean hart va, rw), (.cboFlush hart va, rw), (.cboInval hart va, rw),
      (.cboZero hart va, clsW), (.prefetchR hart va, 0), (.prefetchW hart va, 0), (.prefetchI hart va, 0),
      (.sfenceVma hart addr ident, 0), (.sinvalVma hart addr ident, 0), (.hfenceVvma hart addr ident, 0),
      (.hinvalVvma hart addr ident, 0), (.hfenceGvma hart addr ident, 0), (.hinvalGvma hart addr ident, 0), (.sfenceWInval hart, 0),
      (.sfenceInvalIr hart, 0), (.wfi hart, 0), (.worldWrite hart value, 0), (.broadcastInvalidationWrite hart value, 0),
      (.l2SetwayClean hart set way, 0), (.l2SetwayEvict hart set way, 0)]
    let fenced (c : Instr) (p q : Nat) : Prop := Begins s i 0 → Gives c s fun b => (getHart b i).fences =
      (h.fences.filter fun f => (f.1 &&& u) != 0) ++ (if (p &&& u) != 0 then [(p, q)] else []) ∧
        (getHart b i).fetched = h.fetched.drop 1 ∧ (getHart b i).sb = h.sb
    let core (b : Block) (c : CoreState) : Prop := (getHart b i).core = c ∧ (h.core ≠ c → b.power.blocked = false) ∧
      b.power.pk = s.blk.power.pk ∧ b.regs = s.blk.regs
    let mask := (getX s.blk i rs1.val).toNat % 16; let ms : Instr := .milestone hart rd rs1 rs2
    let intr := cause.getLsbD 63; let code := cause.toNat % 2 ^ 63; let wfi : Instr := .wfi hart
    (∀ p ∈ instrs, (canBegin s.blk i p.2 = false → NoEffect p.1 s) ∧
      (canBegin s.blk i p.2 = true → fetchPoisoned s.blk i = true → Gives p.1 s fun b =>
        b = consumePoison s.blk i (instrPc s.blk i).toNat (instrPc s.blk i) (instrPc s.blk i))) ∧
    fenced (.fence hart pred succ) pred.toNat succ.toNat ∧ fenced (.fenceTso hart) rw rw ∧
    (Begins s i 0 → u &&& clsW ≠ 0 → NoEffect (.fenceI hart) s) ∧
    (Begins s i 0 → u &&& clsW = 0 → Gives (.fenceI hart) s fun b => (getHart b i).fetched = [] ∧
      (getHart b i).pc = instrPc s.blk i ∧ b.links = s.blk.links) ∧
    (Begins s i 0 → rs2 ≠ 0 → Gives ms s fun b => b = exception s.blk i excIllegal 0) ∧
    (Begins s i 0 → rs2 = 0 → Quiet s.blk i → u ≠ 0 → Gives ms s fun b => (getHart b i).ms = some { rd := rd, mask := mask } ∧
      b.csrs = s.blk.csrs ∧ b.dies = s.blk.dies) ∧
    (Begins s i 0 → rs2 = 0 → Quiet s.blk i → u = 0 → h.dest = [] → msPending s.blk i mask = 0 → Gives ms s fun b =>
      (getHart b i).ms = none ∧ HoldsX b i rd.val (if msLossClasses h mask = 0 then 0 else 1) ∧
        (∀ c < 4, bitOf mask c = true → (getHart b i).lost.get 0 c = 0) ∧ b.dies = s.blk.dies) ∧
    (Quiet s.blk i → Gives (.milestoneTimeout hart) s fun b => (getHart b i).ms = none ∧ b.csrs = s.blk.csrs) ∧
    (∀ m : MsWait, h.ms = some m → Quiet { s.blk with harts := s.blk.harts.upd {} i fun h => { h with ms := none } } i → u = 0 →
      hartWaits s.blk i = false → h.dest = [] → msPending s.blk i m.mask ≠ 0 → Gives (.milestoneTimeout hart) s fun b =>
        (getHart b i).ms = none ∧ HoldsX b i m.rd.val 2) ∧
    (hartRuns s.blk i = false ∨ hartWaits s.blk i = true → NoEffect (.interruptTaken hart cause) s) ∧
    (hartRuns s.blk i = true → hartWaits s.blk i = false → Gives (.interruptTaken hart cause) s fun b =>
      let saved (epc tcause tval tvec : Nat) (mode : Priv) : Prop := rdCsr b i epc = (instrPc s.blk i).toNat ∧
        rdCsr b i tcause = cause.toNat ∧ rdCsr b i tval = 0 ∧
        (getHart b i).pc = trapPc (rdCsr s.blk i tvec) intr code ∧ (getHart b i).priv = mode
      (getHart b i).resv = none ∧ (getHart b i).ms = none ∧ (getHart b i).fetched = [] ∧ (getHart b i).sb = h.sb ∧
        (trapTarget s.blk i intr code = .m → saved csrMepc csrMcause csrMtval csrMtvec .m ∧ csrBit b i csrMstatus 3 = false ∧
          csrBit b i csrMstatus 7 = csrBit s.blk i csrMstatus 3 ∧ bitsOf (rdCsr b i csrMstatus) 12 11 = privBits h.priv) ∧
        (trapTarget s.blk i intr code = .hs → saved csrSepc csrScause csrStval csrStvec .hs ∧ csrBit b i csrMstatus 1 = false ∧
          csrBit b i csrMstatus 5 = csrBit s.blk i csrMstatus 1)) ∧
    (Begins s i 0 → h.priv = .m → Gives wfi s fun b => core b .c1) ∧
    (Begins s i 0 → h.priv ≠ .m → csrBit s.blk i csrMstatus 21 = true → Gives wfi s fun b => b = exception s.blk i excIllegal 0) ∧
    (h.core = .c1 → cget s.blk i FCD_CORE_PWR FCD_CORE_PWR_C3_ENABLE = 1 → h.sb = [] → Gives (.c3Entry hart) s fun b =>
      core b .c3 ∧ (getHart b i).l1d = {} ∧ (getHart b i).l1i = {}) ∧
    (h.core ≠ .c1 ∨ cget s.blk i FCD_CORE_PWR FCD_CORE_PWR_C3_ENABLE ≠ 1 ∨ h.sb ≠ [] → NoEffect (.c3Entry hart) s) ∧
    (Gives (.coreWake hart) s fun b => core b .c0 ∧ (getHart b i).sb = h.sb)

/-- R161, R280, R281, R290, R291, R305 to R307, R313: cache-block operations, hints, invalidations and the writes of the world
and of a broadcast invalidation. Where no rule says what a command does, that it has no effect is the model's choice (log
entry 2). -/
def Obligations.HartCachesAndTlbsAct : Prop :=
  ∀ (hart : Hart) (va value : Word) (addr : Option Word) (ident : Option (BitVec 16)) (set : Fin 2048) (way : Fin 16) (s : State),
    let i := hart.val; let k := hartDie i; let h := getHart s.blk i; let u := unperformed s.blk i; let v := value.toNat
    let goes (c : Instr) (b' : Block) : Prop := Gives c s fun b => b = retire b' i
    let traps (c : Instr) (cause : Nat) : Prop := Gives c s fun b => b = exception s.blk i cause 0
    let tags (b : Block) : List Nat := freeTags 0 4095 ((getDie b k).reqs.map (·.tag) ++ (getDie b k).quarantine)
    let cmo (c : Instr) (on : Nat → Bool) (op : Nat) : Prop := Begins s i (clsR ||| clsW) →
      (∀ cause, cboTrap s.blk i on = some cause → traps c cause) ∧
      (∀ pa mt b', cboTrap s.blk i on = none → translate s.blk i .block va = (.ok pa mt, b') →
        (secDenies b' i (pa / 64) (hartWorld b' i) = true → Gives c s fun b => b = exception b' i excStoreAccess va) ∧
        (secDenies b' i (pa / 64) (hartWorld b' i) = false → sbHasLine b' i (pa / 64) = false → lineReq b' i (pa / 64) = none →
          l2Find (getHart b' i) (pa / 64) = none → missCount b' i < 64 → tags b' ≠ [] → Gives c s fun b =>
            ∃ r ∈ (getDie b k).reqs, r.hart = some i ∧ r.line = pa / 64 ∧ r.purpose = .cmo ∧ hOp r.hdr = op))
    let hint (c : Instr) (kind : XKind) (f : Nat → Block → Block → Prop) : Prop := Begins s i 0 →
      ∀ o b', hintLine s.blk i kind va = (o, b') → match o with
        | none => goes c b'
        | some line => Gives c s (f line b')
    let clears (c : Instr) (stores : Bool) (trap : Option Nat) (scope : Scope) : Prop := Begins s i 0 →
      (∀ cause, trap = some cause → traps c cause) ∧
      (trap = none → stores = true → u &&& clsW ≠ 0 → NoEffect c s) ∧
      (trap = none → (stores = false ∨ u &&& clsW = 0) → Gives c s fun b =>
        (getHart b i).itlb = (h.itlb.filter fun e => !scopeTlb scope e) ∧
          (getHart b i).dtlb = (h.dtlb.filter fun e => !scopeTlb scope e) ∧
          (getHart b i).tlb2 = (h.tlb2.filter fun e => !scopeTlb scope e) ∧
          (getHart b i).walk = (h.walk.filter fun e => !scopeWalk scope e) ∧ ∀ j, j ≠ i → getHart b j = getHart s.blk j)
    let waits (c : Instr) (w : Bool) : Prop := Begins s i 0 → (∀ cause, svinvalTrap s.blk i = some cause → traps c cause) ∧
      (svinvalTrap s.blk i = none → w = true → u &&& clsW ≠ 0 → NoEffect c s) ∧
      (svinvalTrap s.blk i = none → (w = false ∨ u &&& clsW = 0) → goes c s.blk)
    let l := h.l2.get {} (set.val * 16 + way.val)
    let setway (c : Instr) (evict : Bool) : Prop := Begins s i 0 → (h.priv ≠ .m → traps c excIllegal) ∧
      (h.priv = .m → l.reserved.isSome = true → NoEffect c s) ∧
      (h.priv = .m → l.reserved = none → l.st = stI → goes c s.blk) ∧
      (∀ b', h.priv = .m → l.reserved = none → l.st ≠ stI → lineReq s.blk i l.line = none → (evict = true ∨ stDirty l.st = true) →
        evictWay s.blk i (set.val * 16 + way.val) true = some b' → goes c b')
    let binv : Instr := .broadcastInvalidationWrite hart value; let bop := bitsOf v 3 0
    let put (b : Block) : Prop := cget b i FCD_BINV FCD_BINV_OP = bop ∧ cget b i FCD_BINV FCD_BINV_ASID = bitsOf v 31 16
    cmo (.cboClean hart va) cbcfeOn opCmoClean ∧ cmo (.cboFlush hart va) cbcfeOn opCmoCleanInval ∧
    cmo (.cboInval hart va) cbieOn (if cbieFlush s.blk i then opCmoCleanInval else opCmoInval) ∧
    (∀ pa mt b', Begins s i clsW → cboTrap s.blk i cbzeOn = none → translate s.blk i .store va = (.ok pa mt, b') →
      accType b' i pa mt = .pma → secDenies b' i (pa / 64) (hartWorld b' i) = false → Gives (.cboZero hart va) s fun b =>
        ∃ e, (getHart b i).sb = (getHart b' i).sb ++ [e] ∧ e.zero = true ∧ e.pa = pa / 64 * 64 ∧ e.len = 64) ∧
    hint (.prefetchR hart va) .load (fun line b' b => l2State (getHart b' i) line ≠ stI →
      (l1Find (getHart b i).l1d (l1dKeys line) line).isSome = true) ∧
    hint (.prefetchI hart va) .fetch (fun line b' b => l2State (getHart b' i) line ≠ stI →
      (l1Find (getHart b i).l1i (l1iKeys line) line).isSome = true) ∧
    hint (.prefetchW hart va) .store (fun line b' b => stWritable (l2State (getHart b' i) line) = true → b = retire b' i) ∧
    clears (.sfenceVma hart addr ident) true (sfenceTrap s.blk i) (vmaScope s.blk i (isVirt h.priv) addr ident) ∧
    clears (.sinvalVma hart addr ident) false (sfenceTrap s.blk i) (vmaScope s.blk i (isVirt h.priv) addr ident) ∧
    clears (.hfenceVvma hart addr ident) true (hfenceTrap s.blk i false) (vmaScope s.blk i true addr ident) ∧
    clears (.hinvalVvma hart addr ident) false (hfenceTrap s.blk i false) (vmaScope s.blk i true addr ident) ∧
    clears (.hfenceGvma hart addr ident) true (hfenceTrap s.blk i true) (gvmaScope s.blk i addr ident) ∧
    clears (.hinvalGvma hart addr ident) false (hfenceTrap s.blk i true) (gvmaScope s.blk i addr ident) ∧
    waits (.sfenceWInval hart) true ∧ waits (.sfenceInvalIr hart) false ∧
    (Begins s i 0 → (h.priv ≠ .m → traps (.worldWrite hart value) excIllegal) ∧
      (h.priv = .m → u ≠ 0 → NoEffect (.worldWrite hart value) s) ∧
      (h.priv = .m → u = 0 → Gives (.worldWrite hart value) s fun b => hartWorld b i = bitOf v 0 ∧
        cget b i FCD_WORLD FCD_WORLD_COUNT_SECURE =
          if hartWorld s.blk i then bitsOf v 1 1 else cget s.blk i FCD_WORLD FCD_WORLD_COUNT_SECURE)) ∧
    (Begins s i 0 → (h.priv = .vs → traps binv excVirtual) ∧ (h.priv = .u ∨ h.priv = .vu → traps binv excIllegal) ∧
      (h.priv = .m ∨ h.priv = .hs → (bitOf v 63 = true → (bop = 0 ∨ 12 ≤ bop) → traps binv excIllegal) ∧
        (bitOf v 63 = false → Gives binv s fun b => put b ∧ b.dies = s.blk.dies ∧
          cget b i FCD_BINV FCD_BINV_OUTSTANDING = cget s.blk i FCD_BINV FCD_BINV_OUTSTANDING) ∧
        (bitOf v 63 = true → bop ≠ 0 → bop < 12 → 4 ≤ cget s.blk i FCD_BINV FCD_BINV_OUTSTANDING → NoEffect binv s) ∧
        (bitOf v 63 = true → bop ≠ 0 → bop < 12 → cget s.blk i FCD_BINV FCD_BINV_OUTSTANDING < 4 → tags s.blk ≠ [] →
          Gives binv s fun b => put b ∧ (∃ r ∈ (getDie b k).reqs, r.hart = some i ∧ r.purpose = .binv) ∧
            cget b i FCD_BINV FCD_BINV_OUTSTANDING = cget s.blk i FCD_BINV FCD_BINV_OUTSTANDING + 1))) ∧
    setway (.l2SetwayClean hart set way) false ∧ setway (.l2SetwayEvict hart set way) true ∧
    (Quiet s.blk i → h.waiting = [] → NoEffect (.l2MissResume hart) s) ∧
    (∀ w rest, Quiet s.blk i → h.waiting = w :: rest → w.op = opRdOnce → w.purpose ≠ .io → missCount s.blk i < 64 → tags s.blk ≠ [] →
      Gives (.l2MissResume hart) s fun b => (getHart b i).waiting = rest ∧
        ∃ r ∈ (getDie b k).reqs, r.hart = some i ∧ r.line = w.line ∧ r.accs = w.accs ∧ hOp r.hdr = opRdOnce) ∧
    (mayPrefetch s.blk i = false ∨ nextPrefetch s.blk i = none → NoEffect (.streamPrefetch hart) s) ∧
    (∀ line w b', mayPrefetch s.blk i = true → nextPrefetch s.blk i = some (line, w) →
      sendMiss s.blk i opRdShared line 2 w .prefetch [] = some b' → Gives (.streamPrefetch hart) s fun b =>
        ∃ r ∈ (getDie b k).reqs, r.hart = some i ∧ r.line = line ∧ r.purpose = .prefetch ∧ hOp r.hdr = opRdShared)

/-- R128, R192, R197, R198, R316, R405: a request at a slice waits for a tracker, is refused, or joins the end of its line's
queue; then every tracker of the slice goes as far as it can. R293: what the protection of the system cache finds acts first;
that a way taken out of use drops its line is the model's choice (log entry 116). Where no rule says what a command does, that
it has no effect is the model's choice (log entry 2). -/
def Obligations.HomeRequestsJoinTheirLine : Prop :=
  ∀ (h : Hub) (sl : Fin 32) (m : Msg) (rest : List Msg) (s : State), let i := sl.val; let slice := getSlice s.blk h i
    let reqs : List (Instr × Nat) := [(.rdShared h sl .clean, opRdShared), (.rdUnique h sl, opRdUnique), (.rdOnce h sl, opRdOnce),
      (.cleanUnique h sl, opCleanUnique), (.wrUnique h sl, opWrUnique), (.wrBack h sl, opWrBack), (.cmoClean h sl, opCmoClean),
      (.cmoInval h sl, opCmoInval), (.cmoCleanInval h sl, opCmoCleanInval), (.atomAdd h sl, opAtomAdd),
      (.atomSwap h sl, opAtomSwap), (.atomCas h sl, opAtomCas), (.atomMinMax h sl, opAtomMinMax)]
    let ios : List (Instr × Nat) := [(.ioRd (.slice h sl), opIoRd), (.ioWr (.slice h sl), opIoWr)]
    let full : Prop := maxTrackers ≤ slice.trackers.length ∨ hasAccepted s.blk (512 + h.idx) = true
    let serves (c : Instr) (vc op : Nat) (kind : TKind) (pa : Nat) : Prop :=
      let b1 := putBox s.blk (boxSlice h i) vc rest; let part := msgPart b1 h m.hdr pa
      let denied := homeDenies b1 h part pa m.hdr; let wb : Prop := kind = .req ∧ hOp m.hdr = opWrBack
      let joins (refused : Bool) : Prop := Gives c s fun b => ∃ b0 t, b = settle b0 h i ∧
        (getSlice b0 h i).trackers = slice.trackers ++ [t] ∧ (getSlice b0 h i).nextId = slice.nextId + 1 ∧
        t.id = slice.nextId ∧ t.hdr = m.hdr ∧ t.kind = kind ∧ t.line = pa / 64 ∧ t.active = false ∧
        (t.wb = .refused ↔ refused = true) ∧ (getSlice b0 h i).filter = slice.filter ∧ (getSlice b0 h i).sc = slice.sc ∧
        b0.chans = s.blk.chans
      (full → NoEffect c s) ∧
      (¬ full → boxHeadIs s.blk (boxSlice h i) vc op = false → boxHeadIs s.blk (boxHome h) vc op = false → NoEffect c s) ∧
      (¬ full → getBox s.blk (boxSlice h i) vc = m :: rest → hOp m.hdr = op → (∀ t ∈ slice.trackers, t.id < slice.nextId) →
        (denied = false → joins false) ∧ (denied = true → wb → joins true) ∧
        (denied = true → ¬ wb → Gives c s fun b => b = homeRefuse (countDenied b1 h (agHome h) i pa m.hdr) h m.hdr)) ∧
      (¬ full → boxHeadIs s.blk (boxSlice h i) vc op = false → getBox s.blk (boxHome h) vc = m :: rest → hOp m.hdr = op →
        Gives c s fun b => b = homeRefuse (reportPio (putBox s.blk (boxHome h) vc rest) h m.hdr) h m.hdr)
    (∀ p ∈ reqs, serves p.1 vcReq p.2 .req (hLine m.hdr * 64)) ∧ (∀ p ∈ ios, serves p.1 vcPio p.2 .io (pioPa m.hdr)) ∧
    (∀ err, ¬ full → getBox s.blk (boxSlice h i) vcReq = m :: rest → hOp m.hdr = opRdShared → let line := hLine m.hdr
      ∃ b0, exec (.rdShared h sl err) s = exec (.rdShared h sl .clean) { s with blk := b0 } ∧ b0.inbox = s.blk.inbox ∧
        (getSlice b0 h i).trackers = slice.trackers ∧ (getSlice b0 h i).filter = slice.filter ∧
        (∀ w k, err = .word w → scFind slice line = some k → let l := slice.sc.get {} k
          (getSlice b0 h i).sc.get {} k = { l with poison := poisonWord l.poison w }) ∧
        (∀ way, err = .tag way → let key := (scWays (line * 64)).getD way.val 0; let l := slice.sc.get {} key
          l.reserved = false → slice.dead.contains key = false → (l.valid = true → ∀ t ∈ slice.trackers, t.line ≠ l.line) →
            (getSlice b0 h i).sc.get {} key = {} ∧ (getSlice b0 h i).dead = slice.dead ++ [key] ∧
            bitOf (rd b0 (HUB_ERR_STATUS h)) 2 = true))

/-- R168, R175, R176, R179, R184, R186, R200, R201, R209, R210, R213, R282: what reaches a slice goes to the tracker that
waits for it, and the slice settles; what no tracker waits for is discarded or counted. Where no rule says what a command
does, that it has no effect is the model's choice (log entry 2). -/
def Obligations.HomeAnswersReachTheirTracker : Prop :=
  ∀ (h : Hub) (sl : Fin 32) (m : Msg) (rest : List Msg) (s : State), let i := sl.val; let slice := getSlice s.blk h i
    let popped (vc : Nat) : Block := putBox s.blk (boxSlice h i) vc rest
    let heads (vc op : Nat) : Prop := getBox s.blk (boxSlice h i) vc = m :: rest ∧ hOp m.hdr = op
    let resp := findSnoop slice (hSrc m.hdr) (hTag m.hdr) (some (rspReqNode m.hdr))
    let data := findSnoop slice (hSrc m.hdr) (hTag m.hdr) none
    let wr := slice.trackers.find? fun t => hSrc t.hdr == hSrc m.hdr && hTag t.hdr == hTag m.hdr && awaitsWr t
    let hit (r : Nat × Nat) : Bool := slice.handovers.any fun w => w.node == r.1 && w.tag == r.2
    (slice.trackers.find? (waitOver slice) = none → NoEffect (.wayAvailable h sl) s) ∧
    (∀ t, slice.trackers.find? (waitOver slice) = some t →
      (t.active = false → Gives (.wayAvailable h sl) s fun b =>
        b = settle (updTr s.blk h i t.id fun t => { t with needWay := false }) h i) ∧
      (t.active = true → takeWay s.blk h i t.line (hWorld t.hdr) = none → NoEffect (.wayAvailable h sl) s) ∧
      (∀ b1, t.active = true → takeWay s.blk h i t.line (hWorld t.hdr) = some b1 → Gives (.wayAvailable h sl) s fun b =>
        b = settle (launch b1 h i t.id) h i)) ∧
    ((takeFirst hit (s.blk.reports.get [] h.idx) = none → NoEffect (.deliveryReport h sl) s) ∧
      (∀ r l w ws, takeFirst hit (s.blk.reports.get [] h.idx) = some (r, l) →
        takeFirst (fun w : Handover => w.node == r.1 && w.tag == r.2) slice.handovers = some (w, ws) →
        Gives (.deliveryReport h sl) s fun b => b.reports.get [] h.idx = l ∧ (getSlice b h i).handovers = ws)) ∧
    (getBox s.blk (boxSlice h i) vcRsp = [] → NoEffect (.snpResp h sl) s) ∧
    (heads vcRsp opSnpResp → (resp = none → Gives (.snpResp h sl) s fun b => b = unknownTag (popped vcRsp) m) ∧
      (∀ t n, resp = some (t, n) → (n.answered = true → Gives (.snpResp h sl) s fun b => b = dupAnswer (popped vcRsp) h i m.hdr) ∧
        (n.answered = false → Gives (.snpResp h sl) s fun b =>
          b = settle (takeSnpResp (popped vcRsp) h i t n m.hdr) h i))) ∧
    (heads vcDat opWrData → NoEffect (.snpRespData h sl) s) ∧ (heads vcDat opSnpRespData → NoEffect (.wrData h sl) s) ∧
    (heads vcDat opSnpRespData → (data = none → Gives (.snpRespData h sl) s fun b => b = unknownTag (popped vcDat) m) ∧
      (∀ t n, data = some (t, n) → n.answered = false → Gives (.snpRespData h sl) s fun b =>
        b = settle (takeSnpData (popped vcDat) h i t n m.data (datPoison m.hdr)) h i)) ∧
    (heads vcDat opWrData → (wr = none → Gives (.wrData h sl) s fun b => b = unknownTag (popped vcDat) m) ∧
      (∀ t, wr = some t → Gives (.wrData h sl) s fun b => b = settle (updTr (popped vcDat) h i t.id fun t =>
        { t with wr := some (m.data, datBe m.hdr, datPoison m.hdr) }) h i)) ∧
    (slice.memBack = [] → NoEffect (.memoryReadDone h sl) s) ∧
    (∀ id x l, slice.memBack = (id, x) :: l →
      (getTr s.blk h i id = none → Gives (.memoryReadDone h sl) s fun b => (getSlice b h i).memBack = l ∧
        (getSlice b h i).trackers = slice.trackers) ∧
      (∀ t, getTr s.blk h i id = some t → Gives (.memoryReadDone h sl) s fun b => ∃ b0 t', b = settle b0 h i ∧
        (getSlice b0 h i).memBack = l ∧ getTr b0 h i id = some t' ∧ t'.memData = some (x.getD (0, 0xFF)) ∧
        t'.hdr = t.hdr ∧ t'.reading = false)) ∧
    (slice.nextIn = [] → NoEffect (.nextLineFetch h sl) s) ∧
    (∀ line part w l, slice.nextIn = (line, part, w) :: l → (fEntry slice (line * 64)).isSome = true ∨
        (scFind slice line).isSome = true ∨ (slice.trackers.any fun t => t.line == line) = true →
      Gives (.nextLineFetch h sl) s fun b => (getSlice b h i).nextIn = l ∧ (getSlice b h i).trackers = slice.trackers ∧
        b.chans = s.blk.chans) ∧
    (∀ line part w l, slice.nextIn = (line, part, w) :: l → let free := maxTrackers - slice.trackers.length
      fget s.blk (HUB_SC_CTRL h) HUB_SC_CTRL_NL_MIN_FREE * 16 ≤ free → free ≠ 0 → fEntry slice (line * 64) = none →
      scFind slice line = none → (slice.trackers.any fun t => t.line == line) = false →
      (!w && inRegion s.blk h part (line * 64)) = false → inLent s.blk part (line * 64) 0x100 = false →
      ((scAvail slice (scLocked s.blk h i) line).any fun k => !(slice.sc.get {} k).valid) = true →
      Gives (.nextLineFetch h sl) s fun b => (getSlice b h i).nextIn = l ∧ ∃ t ∈ (getSlice b h i).trackers,
        t.kind = .nextLine ∧ t.line = line ∧ t.reading = true) ∧
    (slice.accepted = [] → NoEffect (.mcWriteAccept h sl) s) ∧
    (∀ id ok l t, slice.accepted = (id, ok) :: l → getTr s.blk h i id = some t → Gives (.mcWriteAccept h sl) s fun b =>
      ∃ b0 t', b = settle b0 h i ∧ (getSlice b0 h i).accepted = l ∧ getTr b0 h i id = some t' ∧
        t'.writes = t.writes - 1 ∧ t'.refused = (t.refused || !ok)) ∧
    (∀ (id : Nat) (node : BitVec 8), let n := node.toNat; let late : Instr := .answerTimeout h sl id node
      (getTr s.blk h i id = none → NoEffect late s) ∧
      (∀ t, getTr s.blk h i id = some t → let sn := t.snoops.find? fun x => x.node == n && x.sent && !x.answered
        (sn = none → (awaitsWr t && hSrc t.hdr == n) = false → NoEffect late s) ∧
        (sn.isSome = true ∨ (awaitsWr t && hSrc t.hdr == n) = true → nodePkg n = pkgNo s.blk → nodeAgent n < 12 →
          Gives late s fun b => ∀ x, agentLost b x (nodeAgent n) = true) ∧
        (sn.isSome = true ∨ (awaitsWr t && hSrc t.hdr == n) = true → nodePkg n = pkgNo s.blk → 14 ≤ nodeAgent n →
          Gives late s fun b => ∃ b0 t', b = settle b0 h i ∧ getTr b0 h i id = some t' ∧
            (sn.isSome = true → t'.synth = true) ∧ (sn = none → t'.wrMissing = true))))

/-- R180 to R183, R186, R189, R193, R211: how a flow ends once its answers are in: the message for its requester, and the
entry of its line. -/
def Obligations.FlowsFinishByTheTable : Prop :=
  ∀ (b : Block) (h : Hub) (i : Nat) (t : Tracker), let pa := t.line * 64; let w := whoOf b (hSrc t.hdr); let b' := finishReq b h i t
    let out (m : Option Msg) : Prop := ∃ t', getTr b' h i t.id = some t' ∧ t'.placed = true ∧ t'.out = m
    let alone : Prop := ∀ e, fEntry (getSlice b h i) pa = some e → ∃ e', fEntry (getSlice b' h i) pa = some e' ∧
      e'.resp = w ∧ e'.kind = 0 ∧ entMembers e' = [w]
    getTr b h i t.id = some t → t.wrMissing = false → t.fwd = none → (w < 14 ∨ 16 ≤ w ∧ w < 24) →
    (∀ d p dirty, baseData b h i t = some (d, p, dirty) → t.memData = none →
      (trOp t = opRdUnique → out (some (compData b h t (if dirty then Machine.stM else stE) d beAll p)) ∧ alone) ∧
      (trOp t = opRdOnce → t.kind = .req → t.dirty = none → out (some (compData b h t stI d beAll p)) ∧
        (getSlice b' h i).filter = (getSlice b h i).filter ∧ b'.chans = b.chans)) ∧
    (trOp t = opCleanUnique → (t.dirty.isSome = true → out (some (compMsg b h t Machine.stM (trStatus t)))) ∧ alone) ∧
    (trOp t = opCmoInval → t.dirty = none → out (some (compMsg b h t stI (trStatus t))) ∧ b'.chans = b.chans) ∧
    (∀ d p dirty wd be wp n, baseData b h i t = some (d, p, dirty) → t.memData = none → isAtomic (trOp t) = true →
      t.wr = some (wd, be, wp) → p = 0 → wp = 0 → atomSize (hOp t.hdr) (hOff t.hdr) be = some n → let off := hOff t.hdr
      out (some (compData b h t stI (lineOf off n (lineBytes d off n)) (beOf off n) 0)))

/-- R167, R168, R170, R171, R202, R203, R206: a die hands a snoop to its L2s; each acts as the table of R167 gives, or holds
the snoop while its own DataFwd is due; the die answers when every part is in. R279: what the protection of an L2 finds acts
first, at SNP_SHARED. Where no rule says what a command does, that it has no effect is the model's choice (log entry 2). -/
def Obligations.SnoopsFollowTheTable : Prop :=
  ∀ (die : Die) (hart : Hart) (err : ArrayErr) (m : Msg) (rest : List Msg) (s : State), let k := die.val; let d := getDie s.blk k
    let i := hart.val
    let snoops := (getDie s.blk (hartDie i)).snoops; let h := getHart s.blk i; let mine (p : Part) : Bool := p.hart == i && !p.back
    let busy : Prop := (d.inReset || d.clockOff || d.frozen || answersWait s.blk k (hLine m.hdr)) = true
    let rows : List (Instr × Nat) := [(.snpShared hart err, opSnpShared), (.snpUnique hart, opSnpUnique), (.snpInval hart, opSnpInval),
      (.snpClean hart, opSnpClean), (.snpBack hart, opSnpBack)]
    (getBox s.blk (boxDie k) vcSnp = [] → NoEffect (.snoopDispatch die) s) ∧
    (getBox s.blk (boxDie k) vcSnp = m :: rest → (busy → NoEffect (.snoopDispatch die) s) ∧
      (¬ busy → Gives (.snoopDispatch die) s fun b => getBox b (boxDie k) vcSnp = rest ∧
        (getDie b k).snoops = d.snoops ++ [{ hdr := m.hdr, left := snoopHarts s.blk k m.hdr }] ∧ b.harts = s.blk.harts)) ∧
    (∀ p ∈ rows, (snoopIndex s.blk i p.2 = none → NoEffect p.1 s) ∧
      (∀ n x, snoopIndex s.blk i p.2 = some n → snoops[n]? = some x → let line := hLine x.hdr
        (holdsSnoop s.blk i line = true → x.held.contains i = true → NoEffect p.1 s) ∧
        (holdsSnoop s.blk i line = true → x.held.contains i = false → Gives p.1 s fun b => b.harts = s.blk.harts ∧
          (∃ y, (getDie b (hartDie i)).snoops[n]? = some y ∧ y.parts = x.parts ∧ y.held = x.held ++ [i]) ∧
          rd b (CNT_DIE (hartDie i) 2) = min 0xFFFF_FFFF (rd s.blk (CNT_DIE (hartDie i) 2) + 1)) ∧
        (∀ l, holdsSnoop s.blk i line = false → wbFind h line = none → l2Line h line = some l →
          let a := snpAct p.2 l.st (snpFwd x.hdr)
          let marks : Poison := match err with
            | .word w => if p.2 = opSnpShared then poisonWord l.poison w else l.poison
            | _ => l.poison
          Gives p.1 s fun b => (p.2 = opSnpShared → (∃ w, err = .tag w) → (getDie b (hartDie i)).frozen = true) ∧ (a.st ≠ stI → l2State (getHart b i) line = a.st) ∧ (∀ j, j ≠ i → getHart b j = getHart s.blk j) ∧
            (a.fwd = none → b.links = s.blk.links ∧ b.inbox = s.blk.inbox) ∧
            ∃ y, (getDie b (hartDie i)).snoops[n]? = some y ∧ y.left = x.left.filter (· != i) ∧ y.parts = x.parts ++
              [{ hart := i, st := a.st, fwd := a.fwd.isSome, data := if a.data then some (l.data, marks) else none }]) ∧
        (∀ w, holdsSnoop s.blk i line = false → wbFind h line = some w → let a := snpAct p.2 w.st (snpFwd x.hdr)
          Gives p.1 s fun b => (wbFind (getHart b i) line).map (·.st) = some a.st ∧ (getHart b i).l2 = h.l2))) ∧
    (∀ x l, snoops = x :: l → x.parts.any mine = true → (∀ y ∈ l, partsIn y = false) →
      let y : DieSnoop := { x with parts := updFirst mine (fun p => { p with back := true }) x.parts }
      Gives (.snoopPartAnswer hart) s fun b => b.harts = s.blk.harts ∧ b.regs = s.blk.regs ∧
        (getDie b (hartDie i)).snoops = if partsIn y then l else y :: l) ∧
    (∀ st, st = Machine.stM ∨ st = stO → snpAct opSnpShared st true = ⟨stO, some stS, false⟩ ∧
      snpAct opSnpUnique st true = ⟨stI, some Machine.stM, false⟩ ∧ snpAct opSnpBack st false = ⟨stI, none, true⟩ ∧
      snpAct opSnpInval st false = ⟨stI, none, false⟩) ∧
    snpAct opSnpClean Machine.stM false = ⟨stE, none, true⟩ ∧ snpAct opSnpClean stO false = ⟨stF, none, true⟩ ∧
    (∀ op f, snpAct op stI f = ⟨stI, none, false⟩)

/-- R163 to R166, R187, R206, R214, R215: answers at a compute die reach the request of their tag: rights or data are
installed, write data leaves on a grant, the tag is freed; the timers of a request quarantine its tag. Where no rule says what
a command does, that it has no effect is the model's choice (log entry 2). -/
def Obligations.DieAnswersCompleteRequests : Prop :=
  ∀ (a : Agent) (die : Die) (m : Msg) (rest : List Msg) (r : Req) (i : Nat) (tag : BitVec 12) (s : State),
    let k := die.val; let t := hTag m.hdr; let box := agentBox a; let d := getDie s.blk k
    let calm : Prop := ∀ j ∈ dieHarts k, Quiet s.blk j
    let at_ (vc op : Nat) : Prop := getBox s.blk (boxDie k) vc = m :: rest ∧ hOp m.hdr = op ∧ dieReq s.blk k t = some r
    let freed (b : Block) : Prop := ∀ x ∈ (getDie b k).reqs, x.tag ≠ r.tag
    let mineIs (p : Req → Prop) (b : Block) : Prop := ∃ x ∈ (getDie b k).reqs, x.tag = r.tag ∧ p x
    let line : Prop := isLineReq r = true ∧ r.hart = some i ∧ hartDie i = k ∧ r.accs = [] ∧ r.purpose ≠ .cmo ∧ r.purpose ≠ .nc
    let waits (b : Block) : Option Req := (dieReq b k tag.toNat).filter fun r =>
      r.hart.isSome && isLineReq r && r.comp.isSome && r.fwd.isNone
    let limit : Option Req := (dieReq s.blk k tag.toNat).filter fun r => r.purpose != .flush && r.purpose != .binv
    let jailed (b : Block) (cnt : Nat) : Prop := (getDie b k).quarantine = d.quarantine ++ [tag.toNat] ∧
      rd b (CNT_DIE k cnt) = min 0xFFFF_FFFF (rd s.blk (CNT_DIE k cnt) + 1)
    (boxHeadIs s.blk box vcRsp opComp = false → NoEffect (.comp a) s) ∧
    (boxHeadIs s.blk box vcDat opCompData = false → NoEffect (.compData a) s) ∧
    (boxHeadIs s.blk box vcDat opDataFwd = false → NoEffect (.dataFwd a) s) ∧
    (boxHeadIs s.blk box vcRsp opWbGrant = false → NoEffect (.wbGrant a) s) ∧
    (boxHeadIs s.blk box vcRsp opWbAck = false → NoEffect (.wbAck a) s) ∧
    (calm → at_ vcRsp opComp → r.purpose = .cmo → hStatus m.hdr = stsOk → Gives (.comp (.die die)) s freed) ∧
    (calm → at_ vcRsp opComp → line → hStatus m.hdr = stsOk → (hState m.hdr = stE ∨ hState m.hdr = Machine.stM) →
      l2State (getHart s.blk i) r.line ≠ stI → Gives (.comp (.die die)) s fun b =>
        l2State (getHart b i) r.line = hState m.hdr ∧ freed b) ∧
    (calm → at_ vcRsp opComp → line → hStatus m.hdr = stsOk → hState m.hdr = stI → r.fwd = none →
      Gives (.comp (.die die)) s fun b => mineIs (fun x => x.comp = some m.hdr) b ∧ b.harts = s.blk.harts) ∧
    (calm → at_ vcDat opCompData → line → hStatus m.hdr = stsOk → hState m.hdr ≠ stI → l2Line (getHart s.blk i) r.line = none →
      (∃ key ∈ l2Ways r.line, ((getHart s.blk i).l2.get {} key).reserved = some r.tag) →
      Gives (.compData (.die die)) s fun b => freed b ∧ ∃ l, l2Line (getHart b i) r.line = some l ∧
        l.st = hState m.hdr ∧ l.data = m.data ∧ l.poison = datPoison m.hdr) ∧
    (calm → at_ vcDat opDataFwd → line → r.fwd = none → r.comp = none → Gives (.dataFwd (.die die)) s fun b =>
      mineIs (fun x => x.fwd = some (m.data, datPoison m.hdr, hState m.hdr)) b ∧ b.harts = s.blk.harts) ∧
    (∀ w, calm → at_ vcRsp opWbGrant → r.granted = false → r.wr = none → r.purpose = .wb → r.hart = some i → hartDie i = k →
      ((getHart s.blk i).wbs.find? fun w => w.tag == r.tag) = some w → hSrc m.hdr ≠ myNode s.blk k →
      Gives (.wbGrant (.die die)) s fun b => mineIs (fun x => x.granted = true) b ∧
        (getLink b (.die die)).txq.get [] vcDat = (getLink s.blk (.die die)).txq.get [] vcDat ++
          [{ hdr := mkDat opWrData (hWorld r.hdr) (hSrc m.hdr) (myNode s.blk k) r.tag 0 stsOk (rspSlice m.hdr) beAll w.poison
             data := w.data }]) ∧
    (calm → at_ vcRsp opWbAck → r.purpose = .wb → r.hart = some i → hartDie i = k → hStatus m.hdr = stsOk →
      Gives (.wbAck (.die die)) s fun b => freed b ∧ ∀ w ∈ (getHart b i).wbs, w.tag ≠ r.tag) ∧
    (∀ h, getBox s.blk (boxTh h) vcDat = m :: rest → hOp m.hdr = opDataFwd → Gives (.dataFwd (.th h)) s fun b =>
      b = unknownTag (putBox s.blk (boxTh h) vcDat rest) m) ∧
    (waits s.blk = none → NoEffect (.fwdWaitExpiry die tag) s) ∧
    ((waits s.blk).isSome = true → Gives (.fwdWaitExpiry die tag) s fun b => jailed b 1) ∧
    (limit = none → NoEffect (.reqLimitExpiry die tag) s) ∧
    (limit.isSome = true → Gives (.reqLimitExpiry die tag) s fun b => jailed b 0)

/-- R427, R435 to R438: the events of a channel act in the states that list them and are only reported in the others; a
channel stops once its requests are in; an engine that goes down takes its channels to in error. Where no rule says what a
command does, that it has no effect is the model's choice (log entry 2). -/
def Obligations.ChannelEventsFollowTheStates : Prop :=
  ∀ (src : Source) (h : Hub) (chan : Fin 2048) (tail : BitVec 32) (value : Word) (engine : Fin 16) (s : State), let n := chan.val
    let c := getChanDm s.blk h n; let st := chanState s.blk h n; let head := chanHead s.blk h n; let o := chanOrder s.blk h n
    let may (off : Nat) : Prop := accepts s.blk (callerOf s.blk src) off true = true
    let ctl : Prop := may (DM_CH_CTRL h n); let bell : Prop := may (DM_CH_DOORBELL h n)
    let stop : Instr := .stop src h chan; let run : Instr := .run src h chan; let restart : Instr := .restart src h chan
    let skip : Instr := .skip src h chan; let door : Instr := .doorbell src h chan tail; let ring : Instr := .dmRingWrite src h chan value
    let ready := engineReady s.blk h c.engine; let ahead : Prop := 2 ^ o < (tail.toNat + 2 ^ 32 - head) % 2 ^ 32
    let is (x e : Nat) (b : Block) : Prop := chanState b h n = x ∧ fget b (DM_CH_STATUS h n) DM_CH_STATUS_ERROR = e
    let told (i : Instr) : Prop := Gives i s fun b => b.regs = s.blk.regs ∧ b.movers = s.blk.movers
    let rows : List (Instr × Nat) := [(door, DM_CH_DOORBELL h n), (ring, DM_CH_RING h n), (stop, DM_CH_CTRL h n),
      (run, DM_CH_CTRL h n), (restart, DM_CH_CTRL h n), (skip, DM_CH_CTRL h n)]
    (∀ p ∈ rows, accepts s.blk (callerOf s.blk src) p.2 true = false → Gives p.1 s fun b =>
      b = refuseWrite s.blk (callerOf s.blk src) p.2 (callerHdr s.blk (callerOf s.blk src) p.2 true)) ∧
    (bell → (st = 3 ∨ st = 5 ∨ (ahead ∧ st ≠ 1)) → told door) ∧
    (bell → st ≠ 3 → st ≠ 5 → ¬ ahead → Gives door s fun b =>
      fget b (DM_CH_DOORBELL h n) DM_CH_DOORBELL_TAIL = tail.toNat ∧ RegsKeep s.blk b [DM_CH_DOORBELL h n]) ∧
    (bell → st = 1 → ahead → c.parts = [] → c.flr = false → c.prog.fail = none → Gives door s (is 4 0x19)) ∧
    (may (DM_CH_RING h n) → st ≠ 0 → told ring) ∧
    (may (DM_CH_RING h n) → st = 0 → Gives ring s fun b => fget b (DM_CH_RING h n) DM_CH_RING_BASE = bitsOf value.toNat 63 12 ∧
      chanOrder b h n = bitsOf value.toNat 4 0 ∧ RegsKeep s.blk b [DM_CH_RING h n]) ∧
    (ctl → st ≠ 1 → told stop) ∧
    (ctl → st = 1 → Gives stop s fun b => (getChanDm b h n).stopping = true ∧ b.regs = s.blk.regs) ∧
    (ctl → st = 0 → (4 ≤ o ∧ o ≤ 16) → Gives run s fun b => chanState b h n = 1 ∧ RegsKeep s.blk b [DM_CH_STATUS h n]) ∧
    (ctl → st = 0 → ¬ (4 ≤ o ∧ o ≤ 16) → Gives run s (is 4 0x18)) ∧
    (ctl → st = 2 → Gives run s fun b => chanState b h n = 1 ∧ RegsKeep s.blk b [DM_CH_STATUS h n]) ∧
    (ctl → st ≠ 0 → st ≠ 2 → told run) ∧
    (ctl → st = 4 → ready = true → Gives restart s fun b => is 1 0 b ∧ chanHead b h n = head ∧ (getChanDm b h n).prog = {}) ∧
    (ctl → (st ≠ 4 ∨ ready = false) → told restart) ∧
    (ctl → st = 4 → Gives skip s fun b => is 1 0 b ∧ chanHead b h n = (head + 1) % 2 ^ 32 ∧ (getChanDm b h n).prog = {}) ∧
    (ctl → st ≠ 4 → told skip) ∧
    (st ≠ 1 ∨ c.stopping = false ∨ c.parts ≠ [] ∨ c.due.isSome = true → NoEffect (.channelStopped h chan) s) ∧
    (st = 1 → c.stopping = true → c.parts = [] → c.due = none → c.prog.desc = none → c.prog.fail = none →
      Gives (.channelStopped h chan) s fun b => chanState b h n = 2 ∧ (getChanDm b h n).stopping = false ∧
        RegsKeep s.blk b [DM_CH_STATUS h n]) ∧
    (engineReady s.blk h engine.val = false → NoEffect (.engineDown h engine) s) ∧
    (engineReady s.blk h engine.val = true → Gives (.engineDown h engine) s fun b => engineReady b h engine.val = false ∧
      ((∀ x ∈ (getMover s.blk h).chans.cells, ∀ f slot, x.2.fn = some (f, slot) → f < 256) → c.live = true →
        c.engine = engine.val → (st = 1 ∨ st = 2) → c.flr = false → is 4 0x1A b))

/-- R422 to R425, R430 to R433: an engine serves the channel whose turn it is; the bulk port goes to the highest rank, which
becomes the lowest; a descriptor whose bytes are done is completed. Where no rule says what a command does, that it has no
effect is the model's choice (log entry 2). -/
def Obligations.DescriptorsAreServed : Prop :=
  ∀ (h : Hub) (chan : Fin 2048) (xl : List Translation) (req : BitVec 16) (s : State), let n := chan.val
    let c := getChanDm s.blk h n; let p := c.prog; let m := getMover s.blk h; let st := chanState s.blk h n
    let serves : Prop := canServe s.blk h n = true ∧ engineIssuing s.blk h c.engine = false ∧ isTurn s.blk h n = true ∧
      hasAccepted s.blk (1536 + h.idx * 16 + c.engine) = false
    let claimed : Prop := c.secure = false ∧ fon s.blk (DM_ENG_STATUS h c.engine) DM_ENG_STATUS_CLAIMED = true
    let able (e : Nat) : Bool := bitOf req.toNat e && engineReady s.blk h e && (engineChan s.blk h e).isSome
    let tag : Prop := freeTags (c.engine * 256) (c.engine * 256 + 255) (engineTags s.blk h c.engine) ≠ []
    let main (pa : Nat) : Prop := isMain (decodePa s.blk h (chanPart c) pa) = true ∧ lineBusy m.reqs (pa / 64) = false
    let error (x : Nat) (b : Block) : Prop := chanState b h n = 4 ∧ fget b (DM_CH_STATUS h n) DM_CH_STATUS_ERROR = x
    let go : Instr := .stretch h chan xl; let done : Instr := .descriptorComplete h chan xl; let grant : Instr := .bulkPortGrant h req
    (¬ serves → NoEffect go s) ∧
    (serves → claimed → Gives go s (error 0x1B)) ∧
    (serves → ¬ claimed → p.desc = none → c.fn = none → xl.head? = some .fault → Gives go s (error 0x11)) ∧
    (serves → ¬ claimed → p.desc = none → c.fn = none → ∀ pa, xl.head? = some (.ok pa) →
      let at_ := fget s.blk (DM_CH_RING h n) DM_CH_RING_BASE * 4096 + chanHead s.blk h n % 2 ^ chanOrder s.blk h n * 32
      main (pa / 4096 * 4096 + at_ % 4096) → tag → Gives go s fun b => ∃ x, (getChanDm b h n).parts = [x] ∧ x.kind = .fetch ∧
        x.pa = pa / 4096 * 4096 + at_ % 4096 ∧ x.len = 32) ∧
    (∀ d pa, serves → ¬ claimed → p.desc = some d → dOp d = dmCrc → dSrcSg d = false → c.fn = none → xl = [.ok pa] →
      let a := d.src.toNat + p.done; let sp := pa / 4096 * 4096 + a % 4096
      dmWay s.blk h c sp ≠ .refused → Gives go s fun b => ∃ x, (getChanDm b h n).prog.st = some x ∧ x.off = p.done ∧
        x.src = some sp ∧ x.len = min (dLen d - p.done) (4096 - a % 4096)) ∧
    (m.ranks.find? able = none → Gives grant s fun b => (getMover b h).holder = none ∧ (getMover b h).ranks = m.ranks ∧
      b.regs = s.blk.regs) ∧
    (∀ e, m.ranks.find? able = some e → Gives grant s fun b => (getMover b h).holder = some e ∧
      (getMover b h).ranks = m.ranks.filter (· != e) ++ [e]) ∧
    (m.ranks.Perm (List.range 16) → Gives grant s fun b => (getMover b h).ranks.Perm (List.range 16)) ∧
    (c.parts ≠ [] ∨ (c.due = none ∧ p.desc = none) ∨ (c.due.map (·.sent)) = some true → NoEffect done s) ∧
    (∀ d due, c.parts = [] → c.due = none → c.flr = false → c.freezing = false → p.desc = some d → st = 1 → p.fail = none →
      p.st = none → dueOf d p = some due → p.wrote = [] → p.lastWr = none →
      (dIrq d = false ∨ fon s.blk (DM_CH_MSI_ADDR h n) DM_CH_MSI_ADDR_ENABLE = false) →
      (d.cmpl = 0 → Gives done s fun b => chanHead b h n = (chanHead s.blk h n + 1) % 2 ^ 32 ∧ chanState b h n = 1 ∧
        (getChanDm b h n).prog = {} ∧ (getChanDm b h n).due = none) ∧
      (∀ pa, d.cmpl ≠ 0 → engineReady s.blk h c.engine = true → c.fn = none → xl = [.ok pa] →
        let ra := pa / 4096 * 4096 + d.cmpl.toNat % 4096
        main ra → tag → Gives done s fun b => (getChanDm b h n).due.map (·.sent) = some true ∧
          chanHead b h n = chanHead s.blk h n ∧ ∃ x ∈ (getChanDm b h n).parts, x.kind = .record ∧ x.pa = ra ∧ x.len = 16))

/-- R321, R453 to R456, R459 to R464: requests of the devices below a root port, the state of its link, the answers of its
devices, and pins. Where no rule says what a command does, that it has no effect is the model's choice (log entry 2). -/
def Obligations.DeviceRequestsAreServed : Prop :=
  ∀ (h : Hub) (port : Fin 16) (r : DeviceReq) (pa : PA) (tag : Nat) (data : LineData) (s : State), let p := port.val
    let io := getIo s.blk h; let acts := portActs s.blk h port; let own := quarterPart s.blk (portQuarter h p); let a : Nat := pa
    let world := (getPort s.blk h p).claimed; let dev : Instr := .deviceRequest h port r; let bis : Instr := .biSnoop h port .inv pa
    let rd_ : Instr := .cxlCacheRequest h port pa none; let done : Instr := .pcieCompletion h (some port) tag .ok data
    let late : Instr := .completionTimeout h (some port) tag
    let calm : Prop := io.held = [] ∧ io.reqs = [] ∧ (io.waits.any fun w => w.port == some port && w.ordered) = false ∧
      (io.ep.fns.cells.filter fun c => !c.2.toFlush.isEmpty) = []
    let asks (f : IoWait → Prop) (b : Block) : Prop := ∃ w ∈ (getIo b h).waits, w.port = some port ∧ f w
    let hit := io.pcie.find? fun x => x.port == some port && x.tag == tag
    let gone (b : Block) : Prop := ∀ x ∈ (getIo b h).pcie, ¬ (x.port = some port ∧ x.tag = tag)
    (acts = false ∨ own = none → NoEffect dev s ∧ NoEffect rd_ s ∧ ∀ op, NoEffect (.biSnoop h port op pa) s) ∧
    (acts = true → own.isSome = true → (r.xl = none ∨ r.xl = some .fault) → Gives dev s fun b => b.regs = s.blk.regs ∧
      b.outbox = if r.write.isSome then s.blk.outbox else s.blk.outbox ++ [.cpl h (some port) 0 0 true]) ∧
    (∀ q x w, acts = true → own = some q → r.xl = some (.ok x) → r.write = some w → r.msi = true →
      (world = true ∨ inRegion s.blk h q (x / 4096 * 4096) = false) → Gives dev s fun b => b.outbox = s.blk.outbox ++
        [.msi h (x / 4096 * 4096) (lineBytes w.data (x % 64 / 4 * 4) 4) world] ∧ b.regs = s.blk.regs) ∧
    (∀ q x, acts = true → own = some q → r.xl = some (.ok x) → r.write = none → calm →
      (world = true ∨ ownLent s.blk h q x = false) → (reqDst s.blk (decodePa s.blk h q x)).isSome = true →
      Gives dev s (asks fun w => w.reply = true)) ∧
    (∀ q, acts = true → own = some q → calm → (world = true ∨ ownLent s.blk h q a = false) →
      (reqDst s.blk (decodePa s.blk h q a)).isSome = true → Gives rd_ s (asks fun w => w.reply = true)) ∧
    (∀ q w, acts = true → own = some q → calm → decodePa s.blk h q a = .win h w 1 p → Gives bis s (asks fun w => w.bi = some a)) ∧
    (∀ q w x, acts = true → own = some q → decodePa s.blk h q a = .win h w 1 x → x ≠ p → NoEffect bis s) ∧
    (portExists s.blk h p = true → own.isSome = true → Gives (.dlActive h port) s fun b => portReady b h p = true ∧
      (getPort b h p).up = true) ∧
    (portExists s.blk h p = false ∨ own = none → NoEffect (.dlActive h port) s) ∧
    (portReady s.blk h p = false → NoEffect (.dlDown h port) s) ∧
    (portReady s.blk h p = true → Gives (.dlDown h port) s fun b => portReady b h p = false ∧ (getPort b h p).up = false ∧
      (∀ x ∈ (getIo b h).pcie, x.port ≠ some port) ∧ ∀ x ∈ (getIo b h).held, x.port ≠ some port) ∧
    (hit = none → NoEffect done s ∧ NoEffect late s) ∧
    (∀ x, hit = some x → x.mem = none → x.write = false → (Gives done s fun b => gone b ∧ b.freeIx = s.blk.freeIx) ∧ Gives late s gone) ∧
    (∀ x sl id, hit = some x → x.mem = some (sl, some id) → x.write = false → Gives done s fun b => gone b ∧
      (getSlice b h sl).memBack = (getSlice s.blk h sl).memBack ++ [(id, some (data, 0))]) ∧
    (partOf s.blk h true tag = none → NoEffect (.pcieCompletion h none tag .ok data) s ∧ NoEffect (.completionTimeout h none tag) s) ∧
    (∀ (i : Fin 32) (level : Bool), (io.pinLevel.get false i.val = level → NoEffect (.gpioPinChange h (.pin i) level) s) ∧
      (io.pinLevel.get false i.val ≠ level → Gives (.gpioPinChange h (.pin i) level) s fun b =>
        (getIo b h).pinLevel.get false i.val = level ∧ b.slices = s.blk.slices))

/-- R465 to R475: the endpoint's link, its window tables and commits, the requests of the foreign host, its resets and its
configuration writes. Where no rule says what a command does, that it has no effect is the model's choice (log entry 2). -/
def Obligations.EndpointsServeTheirHost : Prop :=
  ∀ (src : Source) (h : Hub) (fn : Fin 256) (off len : Nat) (w : Option (List LineWrite)) (entry : Fin 64) (s : State), let f := fn.val
    let io := getIo s.blk h; let up := epUp s.blk h; let r := EP_WIN_COMMIT h f; let x := getFn s.blk h f; let st := EP_STATUS h
    let commit : Instr := .commit src h fn; let ends : Instr := .commitDone h fn; let bar : Instr := .bar2Tlp h fn off len w
    let fld (b : Block) (g : Fld) : Nat := fget b st g; let active : Instr := .activeEntryWrite src h fn entry
    let vf : Prop := f = 0 ∨ (fon s.blk st EP_STATUS_VF_ENABLE = true ∧ f ≤ fld s.blk EP_STATUS_NUM_VFS)
    let reaches : Prop := up = true ∧ x.live = true ∧ vf ∧ off + len ≤ bar2Size s.blk h f
    let cfg (c : HostConfig) (q : Block → Prop) : Prop := up = true → Gives (.hostConfigWrite h c) s q
    let settled : Prop := fon s.blk r EP_WIN_COMMIT_PENDING = true ∧ x.toFlush = [] ∧ x.flushTags = [] ∧ x.oldReads = [] ∧
      (io.held.any fun e => e.fn == some f && e.old) = false
    (epMode s.blk h = true → (getFn s.blk h 0).live = true → up = false → Gives (.endpointLinkUp h) s fun b => epUp b h = true ∧
      RegsKeep s.blk b [st]) ∧
    (epMode s.blk h = false ∨ (getFn s.blk h 0).live = false ∨ up = true → NoEffect (.endpointLinkUp h) s) ∧
    (¬ reaches → NoEffect bar s) ∧
    (reaches → 0 < len → w = none → (∀ k < blocksIn off len, bar2Target s.blk h f (blockPart off len k).1 = none) → Gives bar s fun b =>
      fld b EP_STATUS_UNMAPPED = min 0xFFFF (fld s.blk EP_STATUS_UNMAPPED + 1) ∧ RegsKeep s.blk b [st] ∧
        b.outbox = s.blk.outbox ++ [.cpl h none 0 0 true]) ∧
    (∀ t, reaches → 0 < len → off % 64 + len ≤ 64 → w = none → bar2Target s.blk h f off = some t → ownLent s.blk h t.2.1 t.1 = false →
      io.held = [] → io.reqs = [] → (io.waits.any fun y => y.port == none && y.ordered) = false →
      (io.ep.fns.cells.filter fun c => !c.2.toFlush.isEmpty) = [] → Gives bar s fun b =>
        ∃ y ∈ (getIo b h).waits, y.port = none ∧ y.fn = some f ∧ y.reply = true) ∧
    (MayWriteS s src r → fon s.blk r EP_WIN_COMMIT_PENDING = true → Gives commit s fun b => b.regs = s.blk.regs ∧ b.io = s.blk.io) ∧
    (∀ i, MayWriteS s src r → fon s.blk r EP_WIN_COMMIT_PENDING = false →
      ((List.range 64).find? fun i => !entryOk s.blk h f i) = some i → Gives commit s fun b =>
        fget b r EP_WIN_COMMIT_RESULT = 2 ∧ fget b r EP_WIN_COMMIT_FAULT_INDEX = i ∧ RegsKeep s.blk b [r]) ∧
    (MayWriteS s src r → fon s.blk r EP_WIN_COMMIT_PENDING = false → (∀ i < 64, entryOk s.blk h f i = true) → Gives commit s fun b =>
      fon b r EP_WIN_COMMIT_PENDING = true ∧ ∀ i < 64, rd b (EP_WIN_ACT_LO h f i) = rd s.blk (EP_WIN_STG_LO h f i) ∧
        rd b (EP_WIN_ACT_HI h f i) = rd s.blk (EP_WIN_STG_HI h f i)) ∧
    (settled → Gives ends s fun b => fon b r EP_WIN_COMMIT_PENDING = false ∧ fget b r EP_WIN_COMMIT_RESULT = 1 ∧
      fget b r EP_WIN_COMMIT_COMMITS = min 0xFFFF_FFFF (fget s.blk r EP_WIN_COMMIT_COMMITS + 1) ∧ RegsKeep s.blk b [r]) ∧
    (¬ settled → NoEffect ends s) ∧
    (accepts s.blk (callerOf s.blk src) (EP_WIN_ACT_LO h f entry.val) true = true → Gives active s fun b =>
      fld b EP_STATUS_ACT_WRITES = min 0xFFFF (fld s.blk EP_STATUS_ACT_WRITES + 1) ∧ RegsKeep s.blk b [st]) ∧
    (f = 0 ∨ x.live = false ∨ up = false → NoEffect (.vfFlr h fn) s) ∧
    (∀ n, f ≠ 0 → x.live = true → up = true → x.channels = [n] → n < 2048 → (getChanDm s.blk h n).parts = [] →
      chanState s.blk h n ≠ 5 → Gives (.vfFlr h fn) s fun b => chanState b h n = 0 ∧ (getChanDm b h n).prog = {} ∧
        (getChanDm b h n).flr = false) ∧
    (∀ down : Bool, ((getFn s.blk h 0).live = false → NoEffect (.pfReset h down) s) ∧
      ((getFn s.blk h 0).live = true → Gives (.pfReset h down) s fun b => fld b EP_STATUS_VF_ENABLE = 0 ∧
        fld b EP_STATUS_NUM_VFS = 0 ∧ fld b EP_STATUS_CXL_MEM = 0 ∧ (getIo b h).ep.msixOn = false ∧
        (down = true → epUp b h = false) ∧
        (down = false → (∀ c ∈ io.ep.fns.cells, ∀ n ∈ c.2.channels, n < 2048) → epUp b h = up))) ∧
    (∀ c, up = false → NoEffect (.hostConfigWrite h c) s) ∧
    (∀ (on : Bool) (n : Nat), cfg (.vfEnable on n) fun b => fld b EP_STATUS_VF_ENABLE = b2n on ∧ fld b EP_STATUS_NUM_VFS = n % 256 ∧
      RegsKeep s.blk b [st]) ∧
    (∀ on, cfg (.msixEnable on) fun b => (getIo b h).ep.msixOn = on ∧ b.regs = s.blk.regs) ∧
    (∀ on, cfg (.intxDisable on) fun b => (getIo b h).ep.intxOff = on ∧ b.regs = s.blk.regs) ∧
    (∀ on, cfg (.hdmCommit on) fun b => (getIo b h).ep.hdm = on ∧ b.regs = s.blk.regs) ∧
    (∀ on, cfg (.cxlMemEnable on) fun b => fld b EP_STATUS_CXL_MEM = b2n on ∧ RegsKeep s.blk b [st]) ∧
    (∀ code, cfg (.tagSize code) fun b => (getIo b h).ep.tagTotal = tagTotalOf code.val ∧ b.regs = s.blk.regs) ∧
    (∀ part base size dpa, io.ep.lent = some (part, base, size) → (size ≤ dpa ∨ fon s.blk st EP_STATUS_CXL_MEM = false) →
      NoEffect (.cxlMemRequest h dpa none) s) ∧
    (io.ep.lent = none → NoEffect (.cxlMemRequest h off none) s) ∧
    (∀ part base size dpa, io.ep.lent = some (part, base, size) → dpa < size → fon s.blk st EP_STATUS_CXL_MEM = true →
      io.held = [] → io.reqs = [] → (reqDst s.blk (decodePa s.blk h part (base + dpa))).isSome = true →
      (io.ep.fns.cells.filter fun c => !c.2.toFlush.isEmpty) = [] → Gives (.cxlMemRequest h dpa none) s fun b =>
        ∃ y ∈ (getIo b h).waits, y.port = none ∧ y.reply = true)

/-- A step runs the command at the front of the queue with the queue's rest; on an empty queue the 100 MHz time counters
advance (the model's choice, log entry 1), and a word of the table spells no command. -/
def Obligations.StepTakesTheFrontCommand : Prop :=
  (∀ (c : Instr) (rest : List Instr) (s : State), s.pending = c :: rest → step s = exec c { s with pending := rest }) ∧
    (∀ s : State, s.pending = [] → step s = .next { s with blk := tick s.blk }) ∧
    (∀ (nbits w : Nat) (s : State), decodeTableWord nbits w = none ∧ s.withFetchWord nbits w = s)

/-- No command is refused; only a sample below −40 °C stops the block (R538), and every other command completes. None changes
the queue, and only six change the DRAM: the choice of a channel's command, the end of a fill, a release of partitions, the
package resets, and COMMAND_COMPLETE. -/
def Obligations.CommandsCompleteAndKeepTheQueue : Prop :=
  ∀ (i : Instr) (s : State),
    (∀ r, exec i s ≠ .refused r) ∧
    (∀ f, exec i s = .fault f ↔ f = .belowMinusForty ∧ ∃ u t, i = .thermalSample u t ∧ t < -40) ∧
    ((∀ u t, i = .thermalSample u t → -40 ≤ t) → ∃ t, exec i s = .next t) ∧
    ∀ t, exec i s = .next t → t.pending = s.pending ∧
      ((∀ h c l, i ≠ .mcCommandChoice h c l) → (∀ h c, i ≠ .channelFillDone h c) → (∀ n, i ≠ .partitionRelease n) →
        (∀ b, i ≠ .packageColdReset b) → i ≠ .packageWarmReset → (∀ m, i ≠ .commandComplete m) → t.dram = s.dram)

/-- Whatever command runs, and in whatever state, the memory keeps its canonical form: addresses strictly rising, and nothing
listed that an unlisted address reads as. -/
def Obligations.EveryStepKeepsTheMemoryForm : Prop :=
  ∀ s t : State, memoryWf s → step s = .next t → memoryWf t

/-- After reset no command waits, nothing is listed in memory, every register of the control space and every custom CSR holds
the reset value of its description, and the power limits are 900 W, 900 W and 1,000 ms (R420); a few reset values, and what
the table of R98 gives as the state of a link end, are written out. Registers whose reset value no description gives are 0
(log entry 5). -/
def Obligations.ResetLeavesTheStatedValues : Prop :=
  let b := State.reset.blk
  State.reset.pending = [] ∧ memoryWf State.reset ∧ (∀ o, rd b o = (regReset o).toNat) ∧
    (∀ e : LinkId, linkState b e = 0) ∧
    rd b (HUB_PWR_CTRL) = 0x0A013205 ∧ rd b (LINK_CTRL (.hub .n 0)) = 0x00321480 ∧ rd b (LINK_CTRL (.hub .s 7)) = 0x00321480 ∧
    rd b (LINK_CRC_LIMIT (.hub .n 3)) = 0x3E8 ∧ rd b (HUB_WAKE_TIMER .s) = 0xFFFFFFFFFFFFFFFF ∧
    rd b (MC_SCHED .s 7) = 0x20602001 ∧ rd b (FCD_RESET_STATUS 11) = 0xFFFFF ∧ rd b (HUB_LOCK .n) = 0 ∧
    rdCsr b 239 FCD_WORLD = 1 ∧ rdCsr b 0 FCD_MS_CTRL = 0x1F4 ∧ rdCsr b 100 FCD_CORE_PWR = 0x0A010C1E ∧
    b.power.sustained = 900 ∧ b.power.fast = 900 ∧ b.power.windowMs = 1000

/-- What a hart does, and what the waits of a die do, changes no home slice, memory channel, device, page, ring or register of
the hubs, no time counter and no byte of DRAM: it leaves the die only in messages. -/
def Obligations.HartCommandsKeepTheRest : Prop :=
  ∀ (i : Instr) (s t : State), hartCommand i = true → exec i s = .next t → t.dram = s.dram ∧ KeepsAllBut hartParts s.blk t.blk

/-- The commands of home slices and memory channels change no CSR, hart or die, no data mover, object or ring, and nothing of
power, partitions' spurs or Tollhouses. -/
def Obligations.HomeCommandsKeepTheRest : Prop :=
  ∀ (i : Instr) (s t : State), homeCommand i = true → exec i s = .next t → KeepsAllBut homeParts s.blk t.blk

/-- The commands of links, sidebands and relays change no hart or die, no slice, channel, I/O agent or data mover, no page,
object or ring, and no byte of DRAM. -/
def Obligations.LinkCommandsKeepTheRest : Prop :=
  ∀ (i : Instr) (s t : State), linkCommand i = true → exec i s = .next t → t.dram = s.dram ∧ KeepsAllBut linkParts s.blk t.blk

/-- The commands of data movers, host ports, endpoints and proxies change no hart or die, no memory channel, page or ring, and
no byte of DRAM. -/
def Obligations.DeviceCommandsKeepTheRest : Prop :=
  ∀ (i : Instr) (s t : State), deviceCommand i = true → exec i s = .next t →
    t.dram = s.dram ∧ KeepsAllBut deviceParts s.blk t.blk

/-- These commands of the Tollhouse interface and of the event rings change no hart, CSR or die, no home slice, no message in
flight between agents, no time counter and no byte of DRAM. -/
def Obligations.PageCommandsKeepTheRest : Prop :=
  ∀ (i : Instr) (s t : State), pageCommand i = true → exec i s = .next t → t.dram = s.dram ∧ KeepsAllBut pageParts s.blk t.blk

/-- R340: a read at a channel's input that finds writes to its line in the write queue is answered to its slice with the data
and marks of the newest of them, and neither the queues nor the DRAM hear of it; a write that finds a queued write to its line
takes that write's place, under its number and at its position, and no other entry changes. -/
def Obligations.QueuedWritesServeAndMerge : Prop :=
  ∀ (h : Hub) (c : Fin 8) (s : State), let pc := pkgChan h c; let ch := getChan s.blk pc
    (∀ r rest w tr, chanReady s.blk h c = true → mcNextRead ch.input [] = some (r, rest) → mcQueuedWrite ch r.ma = some w →
      r.tracker = some tr → Gives (.mcRead h c) s fun b => getChan b pc = { ch with input := rest } ∧
        (getSlice b (hubOf (r.slice / 32)) (r.slice % 32)).memBack =
          (getSlice s.blk (hubOf (r.slice / 32)) (r.slice % 32)).memBack ++ [(tr, some (w.req.data, w.req.poison))]) ∧
    (∀ w rest, chanReady s.blk h c = true → takeFirst (fun r : MemReq => r.write) ch.input = some (w, rest) →
      (mcQueuedWrite ch w.ma).isSome = true → Gives (.mcWrite h c) s fun b =>
        (getChan b pc).reads = ch.reads ∧ (getChan b pc).writes.length = ch.writes.length ∧
        ∃ pre e post, ch.writes = pre ++ e :: post ∧ e.req.ma / 64 = w.ma / 64 ∧
          (getChan b pc).writes = pre ++ { e with req := w } :: post)

/-- R398: a plan that R386 makes invalid returns BAD_FIELD; with APPLY_NOW, a valid plan that breaks R388 returns BUSY; in
each of these cases the stored plan, and all else but the page's answer, is unchanged. -/
def Obligations.PlansThatBreakTheRulesAreRefused : Prop :=
  ∀ (m : Fin 20) (s : State), let c := callOf s.blk m; let new := payPlan c
    mayBegin s.blk m planSetCard.code = true → cardFault s.blk c planSetCard = none →
      (planValid s.blk new = false → Gives (.thPartitionPlanSet m) s fun b =>
        b = reply s.blk m thBadField 0 0 [] ∧ b.pkg.plan = s.blk.pkg.plan ∧ Answered b m thBadField 0 0 []) ∧
      (∀ n ∈ mustBeHeld s.blk new, c.u8 1 = 1 → planValid s.blk new = true →
        (partState s.blk .n n ≠ 1 ∨ partState s.blk .s n ≠ 1) → Gives (.thPartitionPlanSet m) s fun b =>
          b = reply s.blk m thBusy 0 0 [] ∧ b.pkg.plan = s.blk.pkg.plan ∧ Answered b m thBusy 0 0 [])

/-- R519: a record that arrives at a full ring discards the oldest held record, and LOST increments; the window is never
overwritten; where a TAKE comes first and frees a place, the arrival discards nothing. A fall-through ring holds its records
in one place. -/
def Obligations.FullRingsLoseTheirOldest : Prop :=
  ∀ (r : RingId) (e : EvRec) (b : Block), let x := getRing b (ringKey r); let a := ringPut b r e
    (ringSpills b r = false → x.lay = [] ∧ x.tail = []) →
    (ringCap b r ≤ x.held.length → (getRing a (ringKey r)).held = x.held.drop 1 ++ [e] ∧
      rd a (CNT_EVR r 2) = (rd b (CNT_EVR r 2) + 1) % 2 ^ 32) ∧
    (x.held.length < ringCap b r → (getRing a (ringKey r)).held = x.held ++ [e] ∧ rd a (CNT_EVR r 2) = rd b (CNT_EVR r 2)) ∧
    (∀ w, w < 8 → rd a (HUB_EVR_WIN r w) = rd b (HUB_EVR_WIN r w)) ∧
    (∀ (src : Source) (s t : State), s.blk = b → accepts b (callerOf b src) (HUB_EVR_CTRL r) true = true →
      (callerOf b src).world = true → x.held.length = ringCap b r → 2 ≤ x.held.length → exec (.take src r) s = .next t →
        rd (ringPut t.blk r e) (CNT_EVR r 2) = rd b (CNT_EVR r 2))
end

