-- ==== Sys2Proof/Laws/Bits.lean ====
section
/-! SUPPORT. Laws of bit fields: reading a field after writing it, or after writing another. -/

namespace Sys2Proof.Machine

/-- A number with a field replaced, as its parts above, in and below the field. -/
theorem putBits_parts (w hi lo v : Nat) :
    putBits w hi lo v = 2 ^ lo * (2 ^ (hi + 1 - lo) * (w >>> lo >>> (hi + 1 - lo)) + v % 2 ^ (hi + 1 - lo)) + w % 2 ^ lo := by
  unfold putBits place bitsOf
  simp only [Nat.shiftRight_eq_div_pow]
  generalize hn : hi + 1 - lo = n
  have h1 : w = 2 ^ lo * (w / 2 ^ lo) + w % 2 ^ lo := (Nat.div_add_mod ..).symm
  have h2 : w / 2 ^ lo = 2 ^ n * (w / 2 ^ lo / 2 ^ n) + w / 2 ^ lo % 2 ^ n := (Nat.div_add_mod ..).symm
  generalize hq : w / 2 ^ lo / 2 ^ n = q at *
  generalize hr : w / 2 ^ lo % 2 ^ n = r at *
  generalize hc : w % 2 ^ lo = c at *
  have hr' : r % 2 ^ n = r := by rw [← hr, Nat.mod_mod]
  rw [hr']
  rw [h2] at h1
  have e : w - r * 2 ^ lo = 2 ^ lo * (2 ^ n * q) + c := by
    rw [h1, Nat.mul_add, Nat.mul_comm r]; omega
  rw [e, Nat.mul_add, Nat.mul_comm (v % 2 ^ n)]
  omega

theorem testBit_putBits (w hi lo v i : Nat) :
    (putBits w hi lo v).testBit i = if lo ≤ i ∧ i < lo + (hi + 1 - lo) then v.testBit (i - lo) else w.testBit i := by
  rw [putBits_parts, Nat.testBit_two_pow_mul_add _ (Nat.mod_lt _ (Nat.two_pow_pos lo))]
  by_cases h : i < lo
  · rw [if_pos h, if_neg (by omega), Nat.testBit_mod_two_pow]; simp [h]
  · rw [if_neg h, Nat.testBit_two_pow_mul_add _ (Nat.mod_lt _ (Nat.two_pow_pos _)), Nat.testBit_mod_two_pow]
    by_cases g : i - lo < hi + 1 - lo
    · rw [if_pos g, if_pos (by omega)]; simp [g]
    · rw [if_neg g, if_neg (by omega), Nat.testBit_shiftRight, Nat.testBit_shiftRight]
      congr 1; omega

theorem testBit_bitsOf (w hi lo i : Nat) :
    (bitsOf w hi lo).testBit i = (decide (i < hi + 1 - lo) && w.testBit (lo + i)) := by
  rw [bitsOf, Nat.testBit_mod_two_pow, Nat.testBit_shiftRight]

/-- A field reads what was written to it, cut to its width. -/
@[simp] theorem bitsOf_putBits_same (w hi lo v : Nat) : bitsOf (putBits w hi lo v) hi lo = v % 2 ^ (hi + 1 - lo) := by
  apply Nat.eq_of_testBit_eq
  intro i
  rw [testBit_bitsOf, testBit_putBits, Nat.testBit_mod_two_pow]
  by_cases h : i < hi + 1 - lo
  · rw [if_pos (by omega)]; simp [h]
  · simp [h]

/-- A field is unchanged by a write of another that shares no bit with it. -/
theorem bitsOf_putBits_disj {w hi lo v hi' lo' : Nat} (h : hi' < lo ∨ hi < lo') :
    bitsOf (putBits w hi lo v) hi' lo' = bitsOf w hi' lo' := by
  apply Nat.eq_of_testBit_eq
  intro i
  rw [testBit_bitsOf, testBit_bitsOf, testBit_putBits]
  by_cases g : i < hi' + 1 - lo'
  · rw [if_neg (by omega)]
  · simp [g]

theorem bitOf_testBit (v i : Nat) : bitOf v i = v.testBit i := by
  simp only [bitOf, Nat.testBit, Nat.one_and_eq_mod_two, Nat.shiftRight_eq_div_pow]
  by_cases h : v / 2 ^ i % 2 = 1
  · simp [h]
  · have : v / 2 ^ i % 2 = 0 := by omega
    simp [this]

theorem bitOf_putBits (w hi lo v i : Nat) :
    bitOf (putBits w hi lo v) i = if lo ≤ i ∧ i < lo + (hi + 1 - lo) then bitOf v (i - lo) else bitOf w i := by
  simp only [bitOf_testBit, testBit_putBits]

theorem putBits_lt {w hi lo v n : Nat} (h : w < 2 ^ n) (hh : hi < n) : putBits w hi lo v < 2 ^ n := by
  apply Nat.lt_pow_two_of_testBit
  intro i hi'
  rw [testBit_putBits, if_neg (by omega), Nat.testBit_lt_two_pow]
  exact Nat.lt_of_lt_of_le h (Nat.pow_le_pow_right (by decide) hi')

theorem bitsOf_lt (w hi lo : Nat) : bitsOf w hi lo < 2 ^ (hi + 1 - lo) := Nat.mod_lt _ (Nat.two_pow_pos _)

end Sys2Proof.Machine
end

