-- ==== Sys2Proof/Laws/Exec.lean ====
section
/-! SUPPORT. The meaning of each command as an equation, so that no proof unfolds the match over all commands, and how a statement
that a command completes is met. -/

namespace Sys2Proof.Machine

theorem exec_registerWrite a0 a1 a2 a3 (s : State) : exec (.registerWrite a0 a1 a2 a3) s = execRegisterWrite a0 a1 a2 a3 s := rfl
theorem exec_statusBitClear a0 a1 a2 a3 (s : State) : exec (.statusBitClear a0 a1 a2 a3) s = execStatusBitClear a0 a1 a2 a3 s := rfl
theorem exec_cntClear a0 a1 (s : State) : exec (.cntClear a0 a1) s = execCntClear a0 a1 s := rfl
theorem exec_homeGroupWrite a0 a1 a2 a3 (s : State) : exec (.homeGroupWrite a0 a1 a2 a3) s = execHomeGroupWrite a0 a1 a2 a3 s := rfl
theorem exec_hpwWrite a0 a1 a2 a3 a4 (s : State) : exec (.hpwWrite a0 a1 a2 a3 a4) s = execHpwWrite a0 a1 a2 a3 a4 s := rfl
theorem exec_linkCapWrite a0 a1 a2 a3 (s : State) : exec (.linkCapWrite a0 a1 a2 a3) s = execLinkCapWrite a0 a1 a2 a3 s := rfl
theorem exec_linkStart a0 a1 (s : State) : exec (.linkStart a0 a1) s = execLinkStart a0 a1 s := rfl
theorem exec_linkRetrain a0 a1 (s : State) : exec (.linkRetrain a0 a1) s = execLinkRetrain a0 a1 s := rfl
theorem exec_linkRestart a0 a1 (s : State) : exec (.linkRestart a0 a1) s = execLinkRestart a0 a1 s := rfl
theorem exec_linkTakeDown a0 a1 (s : State) : exec (.linkTakeDown a0 a1) s = execLinkTakeDown a0 a1 s := rfl
theorem exec_tollhouseBoot a0 a1 (s : State) : exec (.tollhouseBoot a0 a1) s = execTollhouseBoot a0 a1 s := rfl
theorem exec_hubSImageReceived a0 (s : State) : exec (.hubSImageReceived a0) s = execHubSImageReceived a0 s := rfl
theorem exec_lockstepMismatch a0 (s : State) : exec (.lockstepMismatch a0) s = execLockstepMismatch a0 s := rfl
theorem exec_ring a0 a1 (s : State) : exec (.ring a0 a1) s = execRing a0 a1 s := rfl
theorem exec_abort a0 a1 (s : State) : exec (.abort a0 a1) s = execAbort a0 a1 s := rfl
theorem exec_mbxHeaderWrite a0 a1 a2 a3 a4 (s : State) : exec (.mbxHeaderWrite a0 a1 a2 a3 a4) s = execMbxHeaderWrite a0 a1 a2 a3 a4 s := rfl
theorem exec_commandComplete a0 (s : State) : exec (.commandComplete a0) s = execCommandComplete a0 s := rfl
theorem exec_commandTimeout a0 (s : State) : exec (.commandTimeout a0) s = execCommandTimeout a0 s := rfl
theorem exec_i3cTransfer a0 (s : State) : exec (.i3cTransfer a0) s = execI3cTransfer a0 s := rfl
theorem exec_i3cAddressMatch a0 a1 a2 (s : State) : exec (.i3cAddressMatch a0 a1 a2) s = execI3cAddressMatch a0 a1 a2 s := rfl
theorem exec_thIdentityGet a0 (s : State) : exec (.thIdentityGet a0) s = execThIdentityGet a0 s := rfl
theorem exec_thEchoPayload a0 (s : State) : exec (.thEchoPayload a0) s = execThEchoPayload a0 s := rfl
theorem exec_thPoolQuery a0 (s : State) : exec (.thPoolQuery a0) s = execThPoolQuery a0 s := rfl
theorem exec_thHandleQuery a0 (s : State) : exec (.thHandleQuery a0) s = execThHandleQuery a0 s := rfl
theorem exec_thLinkStatusGet a0 (s : State) : exec (.thLinkStatusGet a0) s = execThLinkStatusGet a0 s := rfl
theorem exec_thLinkTrain a0 (s : State) : exec (.thLinkTrain a0) s = execThLinkTrain a0 s := rfl
theorem exec_thScLock a0 (s : State) : exec (.thScLock a0) s = execThScLock a0 s := rfl
theorem exec_thScMaint a0 (s : State) : exec (.thScMaint a0) s = execThScMaint a0 s := rfl
theorem exec_thWorldRegionCreate a0 (s : State) : exec (.thWorldRegionCreate a0) s = execThWorldRegionCreate a0 s := rfl
theorem exec_thWorldRegionDestroy a0 (s : State) : exec (.thWorldRegionDestroy a0) s = execThWorldRegionDestroy a0 s := rfl
theorem exec_thWorldClaim a0 (s : State) : exec (.thWorldClaim a0) s = execThWorldClaim a0 s := rfl
theorem exec_thMcRetainSet a0 (s : State) : exec (.thMcRetainSet a0) s = execThMcRetainSet a0 s := rfl
theorem exec_thMcFreezeDump a0 (s : State) : exec (.thMcFreezeDump a0) s = execThMcFreezeDump a0 s := rfl
theorem exec_thMcRelease a0 (s : State) : exec (.thMcRelease a0) s = execThMcRelease a0 s := rfl
theorem exec_thMcRetrain a0 (s : State) : exec (.thMcRetrain a0) s = execThMcRetrain a0 s := rfl
theorem exec_thPartitionPlanSet a0 (s : State) : exec (.thPartitionPlanSet a0) s = execThPartitionPlanSet a0 s := rfl
theorem exec_thPartitionPlanGet a0 (s : State) : exec (.thPartitionPlanGet a0) s = execThPartitionPlanGet a0 s := rfl
theorem exec_thReset a0 (s : State) : exec (.thReset a0) s = execThReset a0 s := rfl
theorem exec_thClockSourceSet a0 (s : State) : exec (.thClockSourceSet a0) s = execThClockSourceSet a0 s := rfl
theorem exec_thSplitEnd a0 (s : State) : exec (.thSplitEnd a0) s = execThSplitEnd a0 s := rfl
theorem exec_thPkgStateSet a0 (s : State) : exec (.thPkgStateSet a0) s = execThPkgStateSet a0 s := rfl
theorem exec_thPowerLimitSet a0 (s : State) : exec (.thPowerLimitSet a0) s = execThPowerLimitSet a0 s := rfl
theorem exec_thChannelCreate a0 (s : State) : exec (.thChannelCreate a0) s = execThChannelCreate a0 s := rfl
theorem exec_thChannelDestroy a0 (s : State) : exec (.thChannelDestroy a0) s = execThChannelDestroy a0 s := rfl
theorem exec_thChannelDirtyLog a0 (s : State) : exec (.thChannelDirtyLog a0) s = execThChannelDirtyLog a0 s := rfl
theorem exec_thChannelFreeze a0 (s : State) : exec (.thChannelFreeze a0) s = execThChannelFreeze a0 s := rfl
theorem exec_thChannelRestore a0 (s : State) : exec (.thChannelRestore a0) s = execThChannelRestore a0 s := rfl
theorem exec_thPortConfigSet a0 (s : State) : exec (.thPortConfigSet a0) s = execThPortConfigSet a0 s := rfl
theorem exec_thEpFunctionCreate a0 (s : State) : exec (.thEpFunctionCreate a0) s = execThEpFunctionCreate a0 s := rfl
theorem exec_thEpFunctionDestroy a0 (s : State) : exec (.thEpFunctionDestroy a0) s = execThEpFunctionDestroy a0 s := rfl
theorem exec_thEpLendSet a0 (s : State) : exec (.thEpLendSet a0) s = execThEpLendSet a0 s := rfl
theorem exec_thFabricPlanSet a0 (s : State) : exec (.thFabricPlanSet a0) s = execThFabricPlanSet a0 s := rfl
theorem exec_thFabricRouteSelect a0 (s : State) : exec (.thFabricRouteSelect a0) s = execThFabricRouteSelect a0 s := rfl
theorem exec_thWaveRun a0 (s : State) : exec (.thWaveRun a0) s = execThWaveRun a0 s := rfl
theorem exec_thEventRingCreate a0 (s : State) : exec (.thEventRingCreate a0) s = execThEventRingCreate a0 s := rfl
theorem exec_thEventRingDestroy a0 (s : State) : exec (.thEventRingDestroy a0) s = execThEventRingDestroy a0 s := rfl
theorem exec_thEventAoRead a0 (s : State) : exec (.thEventAoRead a0) s = execThEventAoRead a0 s := rfl
theorem exec_flitSend a0 (s : State) : exec (.flitSend a0) s = execFlitSend a0 s := rfl
theorem exec_flitReceived a0 a1 (s : State) : exec (.flitReceived a0 a1) s = execFlitReceived a0 a1 s := rfl
theorem exec_retryTimerExpiry a0 (s : State) : exec (.retryTimerExpiry a0) s = execRetryTimerExpiry a0 s := rfl
theorem exec_tollReturnTimeout a0 (s : State) : exec (.tollReturnTimeout a0) s = execTollReturnTimeout a0 s := rfl
theorem exec_crcWindow a0 (s : State) : exec (.crcWindow a0) s = execCrcWindow a0 s := rfl
theorem exec_lockDone a0 (s : State) : exec (.lockDone a0) s = execLockDone a0 s := rfl
theorem exec_offerAccepted a0 a1 (s : State) : exec (.offerAccepted a0 a1) s = execOfferAccepted a0 a1 s := rfl
theorem exec_laneTestDone a0 a1 a2 (s : State) : exec (.laneTestDone a0 a1 a2) s = execLaneTestDone a0 a1 a2 s := rfl
theorem exec_trainTimeout a0 (s : State) : exec (.trainTimeout a0) s = execTrainTimeout a0 s := rfl
theorem exec_partnerLockSeen a0 (s : State) : exec (.partnerLockSeen a0) s = execPartnerLockSeen a0 s := rfl
theorem exec_activeStable a0 (s : State) : exec (.activeStable a0) s = execActiveStable a0 s := rfl
theorem exec_parkRequest a0 (s : State) : exec (.parkRequest a0) s = execParkRequest a0 s := rfl
theorem exec_parkRetry a0 (s : State) : exec (.parkRetry a0) s = execParkRetry a0 s := rfl
theorem exec_parkExit a0 (s : State) : exec (.parkExit a0) s = execParkExit a0 s := rfl
theorem exec_offer a0 a1 (s : State) : exec (.offer a0 a1) s = execOffer a0 a1 s := rfl
theorem exec_allot a0 a1 (s : State) : exec (.allot a0 a1) s = execAllot a0 a1 s := rfl
theorem exec_result a0 a1 (s : State) : exec (.result a0 a1) s = execResult a0 a1 s := rfl
theorem exec_pwrRsp a0 a1 (s : State) : exec (.pwrRsp a0 a1) s = execPwrRsp a0 a1 s := rfl
theorem exec_sbFault a0 a1 a2 (s : State) : exec (.sbFault a0 a1 a2) s = execSbFault a0 a1 a2 s := rfl
theorem exec_pwrRspTimeout a0 (s : State) : exec (.pwrRspTimeout a0) s = execPwrRspTimeout a0 s := rfl
theorem exec_messageForward a0 a1 (s : State) : exec (.messageForward a0 a1) s = execMessageForward a0 a1 s := rfl
theorem exec_load a0 a1 a2 a3 a4 a5 (s : State) : exec (.load a0 a1 a2 a3 a4 a5) s = execLoad a0 a1 a2 a3 a4 a5 s := rfl
theorem exec_store a0 a1 a2 a3 (s : State) : exec (.store a0 a1 a2 a3) s = execStore a0 a1 a2 a3 s := rfl
theorem exec_storeBufferDrain a0 (s : State) : exec (.storeBufferDrain a0) s = execStoreBufferDrain a0 s := rfl
theorem exec_amo a0 a1 a2 a3 a4 a5 (s : State) : exec (.amo a0 a1 a2 a3 a4 a5) s = execAmo a0 a1 a2 a3 a4 a5 s := rfl
theorem exec_lr a0 a1 a2 a3 (s : State) : exec (.lr a0 a1 a2 a3) s = execLr a0 a1 a2 a3 s := rfl
theorem exec_sc a0 a1 a2 a3 a4 (s : State) : exec (.sc a0 a1 a2 a3 a4) s = execSc a0 a1 a2 a3 a4 s := rfl
theorem exec_fence a0 a1 a2 (s : State) : exec (.fence a0 a1 a2) s = execFence a0 a1 a2 s := rfl
theorem exec_fenceTso a0 (s : State) : exec (.fenceTso a0) s = execFenceTso a0 s := rfl
theorem exec_fenceI a0 (s : State) : exec (.fenceI a0) s = execFenceI a0 s := rfl
theorem exec_milestone a0 a1 a2 a3 (s : State) : exec (.milestone a0 a1 a2 a3) s = execMilestone a0 a1 a2 a3 s := rfl
theorem exec_milestoneTimeout a0 (s : State) : exec (.milestoneTimeout a0) s = execMilestoneTimeout a0 s := rfl
theorem exec_interruptTaken a0 a1 (s : State) : exec (.interruptTaken a0 a1) s = execInterruptTaken a0 a1 s := rfl
theorem exec_cboClean a0 a1 (s : State) : exec (.cboClean a0 a1) s = execCboClean a0 a1 s := rfl
theorem exec_cboFlush a0 a1 (s : State) : exec (.cboFlush a0 a1) s = execCboFlush a0 a1 s := rfl
theorem exec_cboInval a0 a1 (s : State) : exec (.cboInval a0 a1) s = execCboInval a0 a1 s := rfl
theorem exec_cboZero a0 a1 (s : State) : exec (.cboZero a0 a1) s = execCboZero a0 a1 s := rfl
theorem exec_prefetchR a0 a1 (s : State) : exec (.prefetchR a0 a1) s = execPrefetchR a0 a1 s := rfl
theorem exec_prefetchW a0 a1 (s : State) : exec (.prefetchW a0 a1) s = execPrefetchW a0 a1 s := rfl
theorem exec_prefetchI a0 a1 (s : State) : exec (.prefetchI a0 a1) s = execPrefetchI a0 a1 s := rfl
theorem exec_sfenceVma a0 a1 a2 (s : State) : exec (.sfenceVma a0 a1 a2) s = execSfenceVma a0 a1 a2 s := rfl
theorem exec_sinvalVma a0 a1 a2 (s : State) : exec (.sinvalVma a0 a1 a2) s = execSinvalVma a0 a1 a2 s := rfl
theorem exec_hfenceVvma a0 a1 a2 (s : State) : exec (.hfenceVvma a0 a1 a2) s = execHfenceVvma a0 a1 a2 s := rfl
theorem exec_hinvalVvma a0 a1 a2 (s : State) : exec (.hinvalVvma a0 a1 a2) s = execHinvalVvma a0 a1 a2 s := rfl
theorem exec_hfenceGvma a0 a1 a2 (s : State) : exec (.hfenceGvma a0 a1 a2) s = execHfenceGvma a0 a1 a2 s := rfl
theorem exec_hinvalGvma a0 a1 a2 (s : State) : exec (.hinvalGvma a0 a1 a2) s = execHinvalGvma a0 a1 a2 s := rfl
theorem exec_sfenceWInval a0 (s : State) : exec (.sfenceWInval a0) s = execSfenceWInval a0 s := rfl
theorem exec_sfenceInvalIr a0 (s : State) : exec (.sfenceInvalIr a0) s = execSfenceInvalIr a0 s := rfl
theorem exec_wfi a0 (s : State) : exec (.wfi a0) s = execWfi a0 s := rfl
theorem exec_c3Entry a0 (s : State) : exec (.c3Entry a0) s = execC3Entry a0 s := rfl
theorem exec_coreWake a0 (s : State) : exec (.coreWake a0) s = execCoreWake a0 s := rfl
theorem exec_worldWrite a0 a1 (s : State) : exec (.worldWrite a0 a1) s = execWorldWrite a0 a1 s := rfl
theorem exec_broadcastInvalidationWrite a0 a1 (s : State) : exec (.broadcastInvalidationWrite a0 a1) s = execBroadcastInvalidationWrite a0 a1 s := rfl
theorem exec_l2SetwayClean a0 a1 a2 (s : State) : exec (.l2SetwayClean a0 a1 a2) s = execL2SetwayClean a0 a1 a2 s := rfl
theorem exec_l2SetwayEvict a0 a1 a2 (s : State) : exec (.l2SetwayEvict a0 a1 a2) s = execL2SetwayEvict a0 a1 a2 s := rfl
theorem exec_l2MissResume a0 (s : State) : exec (.l2MissResume a0) s = execL2MissResume a0 s := rfl
theorem exec_streamPrefetch a0 (s : State) : exec (.streamPrefetch a0) s = execStreamPrefetch a0 s := rfl
theorem exec_rdShared a0 a1 a2 (s : State) : exec (.rdShared a0 a1 a2) s = execRdShared a0 a1 a2 s := rfl
theorem exec_rdUnique a0 a1 (s : State) : exec (.rdUnique a0 a1) s = execRdUnique a0 a1 s := rfl
theorem exec_rdOnce a0 a1 (s : State) : exec (.rdOnce a0 a1) s = execRdOnce a0 a1 s := rfl
theorem exec_cleanUnique a0 a1 (s : State) : exec (.cleanUnique a0 a1) s = execCleanUnique a0 a1 s := rfl
theorem exec_wrUnique a0 a1 (s : State) : exec (.wrUnique a0 a1) s = execWrUnique a0 a1 s := rfl
theorem exec_wrBack a0 a1 (s : State) : exec (.wrBack a0 a1) s = execWrBack a0 a1 s := rfl
theorem exec_cmoClean a0 a1 (s : State) : exec (.cmoClean a0 a1) s = execCmoClean a0 a1 s := rfl
theorem exec_cmoInval a0 a1 (s : State) : exec (.cmoInval a0 a1) s = execCmoInval a0 a1 s := rfl
theorem exec_cmoCleanInval a0 a1 (s : State) : exec (.cmoCleanInval a0 a1) s = execCmoCleanInval a0 a1 s := rfl
theorem exec_atomAdd a0 a1 (s : State) : exec (.atomAdd a0 a1) s = execAtomAdd a0 a1 s := rfl
theorem exec_atomSwap a0 a1 (s : State) : exec (.atomSwap a0 a1) s = execAtomSwap a0 a1 s := rfl
theorem exec_atomCas a0 a1 (s : State) : exec (.atomCas a0 a1) s = execAtomCas a0 a1 s := rfl
theorem exec_atomMinMax a0 a1 (s : State) : exec (.atomMinMax a0 a1) s = execAtomMinMax a0 a1 s := rfl
theorem exec_wayAvailable a0 a1 (s : State) : exec (.wayAvailable a0 a1) s = execWayAvailable a0 a1 s := rfl
theorem exec_deliveryReport a0 a1 (s : State) : exec (.deliveryReport a0 a1) s = execDeliveryReport a0 a1 s := rfl
theorem exec_snpResp a0 a1 (s : State) : exec (.snpResp a0 a1) s = execSnpResp a0 a1 s := rfl
theorem exec_snpRespData a0 a1 (s : State) : exec (.snpRespData a0 a1) s = execSnpRespData a0 a1 s := rfl
theorem exec_wrData a0 a1 (s : State) : exec (.wrData a0 a1) s = execWrData a0 a1 s := rfl
theorem exec_memoryReadDone a0 a1 (s : State) : exec (.memoryReadDone a0 a1) s = execMemoryReadDone a0 a1 s := rfl
theorem exec_nextLineFetch a0 a1 (s : State) : exec (.nextLineFetch a0 a1) s = execNextLineFetch a0 a1 s := rfl
theorem exec_snpShared a0 a1 (s : State) : exec (.snpShared a0 a1) s = execSnpShared a0 a1 s := rfl
theorem exec_snpUnique a0 (s : State) : exec (.snpUnique a0) s = execSnpUnique a0 s := rfl
theorem exec_snpInval a0 (s : State) : exec (.snpInval a0) s = execSnpInval a0 s := rfl
theorem exec_snpClean a0 (s : State) : exec (.snpClean a0) s = execSnpClean a0 s := rfl
theorem exec_snpBack a0 (s : State) : exec (.snpBack a0) s = execSnpBack a0 s := rfl
theorem exec_snoopDispatch a0 (s : State) : exec (.snoopDispatch a0) s = execSnoopDispatch a0 s := rfl
theorem exec_snoopPartAnswer a0 (s : State) : exec (.snoopPartAnswer a0) s = execSnoopPartAnswer a0 s := rfl
theorem exec_comp a0 (s : State) : exec (.comp a0) s = execComp a0 s := rfl
theorem exec_compData a0 (s : State) : exec (.compData a0) s = execCompData a0 s := rfl
theorem exec_dataFwd a0 (s : State) : exec (.dataFwd a0) s = execDataFwd a0 s := rfl
theorem exec_wbGrant a0 (s : State) : exec (.wbGrant a0) s = execWbGrant a0 s := rfl
theorem exec_wbAck a0 (s : State) : exec (.wbAck a0) s = execWbAck a0 s := rfl
theorem exec_fwdWaitExpiry a0 a1 (s : State) : exec (.fwdWaitExpiry a0 a1) s = execFwdWaitExpiry a0 a1 s := rfl
theorem exec_reqLimitExpiry a0 a1 (s : State) : exec (.reqLimitExpiry a0 a1) s = execReqLimitExpiry a0 a1 s := rfl
theorem exec_answerTimeout a0 a1 a2 a3 (s : State) : exec (.answerTimeout a0 a1 a2 a3) s = execAnswerTimeout a0 a1 a2 a3 s := rfl
theorem exec_pioTimeout a0 a1 a2 (s : State) : exec (.pioTimeout a0 a1 a2) s = execPioTimeout a0 a1 a2 s := rfl
theorem exec_lostDrainDone a0 a1 (s : State) : exec (.lostDrainDone a0 a1) s = execLostDrainDone a0 a1 s := rfl
theorem exec_scrubDone a0 a1 (s : State) : exec (.scrubDone a0 a1) s = execScrubDone a0 a1 s := rfl
theorem exec_agentRejoin a0 (s : State) : exec (.agentRejoin a0) s = execAgentRejoin a0 s := rfl
theorem exec_ioWr a0 (s : State) : exec (.ioWr a0) s = execIoWr a0 s := rfl
theorem exec_ioRd a0 (s : State) : exec (.ioRd a0) s = execIoRd a0 s := rfl
theorem exec_msFlush a0 (s : State) : exec (.msFlush a0) s = execMsFlush a0 s := rfl
theorem exec_flushReadDone a0 a1 a2 (s : State) : exec (.flushReadDone a0 a1 a2) s = execFlushReadDone a0 a1 a2 s := rfl
theorem exec_mgtMsg a0 (s : State) : exec (.mgtMsg a0) s = execMgtMsg a0 s := rfl
theorem exec_bcastInval a0 (s : State) : exec (.bcastInval a0) s = execBcastInval a0 s := rfl
theorem exec_bcastInvalCopy a0 (s : State) : exec (.bcastInvalCopy a0) s = execBcastInvalCopy a0 s := rfl
theorem exec_hartInvalAck a0 (s : State) : exec (.hartInvalAck a0) s = execHartInvalAck a0 s := rfl
theorem exec_relayTimeout a0 a1 a2 (s : State) : exec (.relayTimeout a0 a1 a2) s = execRelayTimeout a0 a1 a2 s := rfl
theorem exec_mcRead a0 a1 (s : State) : exec (.mcRead a0 a1) s = execMcRead a0 a1 s := rfl
theorem exec_mcWrite a0 a1 (s : State) : exec (.mcWrite a0 a1) s = execMcWrite a0 a1 s := rfl
theorem exec_mcWriteAccept a0 a1 (s : State) : exec (.mcWriteAccept a0 a1) s = execMcWriteAccept a0 a1 s := rfl
theorem exec_mcCommandChoice a0 a1 a2 (s : State) : exec (.mcCommandChoice a0 a1 a2) s = execMcCommandChoice a0 a1 a2 s := rfl
theorem exec_mcReadData a0 a1 a2 a3 (s : State) : exec (.mcReadData a0 a1 a2 a3) s = execMcReadData a0 a1 a2 a3 s := rfl
theorem exec_urgencyRaise a0 a1 a2 (s : State) : exec (.urgencyRaise a0 a1 a2) s = execUrgencyRaise a0 a1 a2 s := rfl
theorem exec_openTimerExpiry a0 a1 a2 (s : State) : exec (.openTimerExpiry a0 a1 a2) s = execOpenTimerExpiry a0 a1 a2 s := rfl
theorem exec_refreshDue a0 a1 a2 (s : State) : exec (.refreshDue a0 a1 a2) s = execRefreshDue a0 a1 a2 s := rfl
theorem exec_mr4Poll a0 a1 a2 (s : State) : exec (.mr4Poll a0 a1 a2) s = execMr4Poll a0 a1 a2 s := rfl
theorem exec_retrainingPause a0 a1 a2 a3 (s : State) : exec (.retrainingPause a0 a1 a2 a3) s = execRetrainingPause a0 a1 a2 a3 s := rfl
theorem exec_patrolScrub a0 a1 a2 a3 a4 (s : State) : exec (.patrolScrub a0 a1 a2 a3 a4) s = execPatrolScrub a0 a1 a2 a3 a4 s := rfl
theorem exec_alertN a0 a1 (s : State) : exec (.alertN a0 a1) s = execAlertN a0 a1 s := rfl
theorem exec_channelFillDone a0 a1 (s : State) : exec (.channelFillDone a0 a1) s = execChannelFillDone a0 a1 s := rfl
theorem exec_refLost a0 (s : State) : exec (.refLost a0) s = execRefLost a0 s := rfl
theorem exec_referenceSwitch (s : State) : exec (.referenceSwitch) s = execReferenceSwitch s := rfl
theorem exec_holdoverExpired a0 (s : State) : exec (.holdoverExpired a0) s = execHoldoverExpired a0 s := rfl
theorem exec_primaryOkTimer a0 (s : State) : exec (.primaryOkTimer a0) s = execPrimaryOkTimer a0 s := rfl
theorem exec_pllUnlock a0 a1 (s : State) : exec (.pllUnlock a0 a1) s = execPllUnlock a0 a1 s := rfl
theorem exec_aoPwrgood (s : State) : exec (.aoPwrgood) s = execAoPwrgood s := rfl
theorem exec_pwrgood (s : State) : exec (.pwrgood) s = execPwrgood s := rfl
theorem exec_pwrgoodTimeout (s : State) : exec (.pwrgoodTimeout) s = execPwrgoodTimeout s := rfl
theorem exec_pwrgoodFall (s : State) : exec (.pwrgoodFall) s = execPwrgoodFall s := rfl
theorem exec_coldResetRelease (s : State) : exec (.coldResetRelease) s = execColdResetRelease s := rfl
theorem exec_coldRstN a0 a1 (s : State) : exec (.coldRstN a0 a1) s = execColdRstN a0 a1 s := rfl
theorem exec_warmRstN a0 (s : State) : exec (.warmRstN a0) s = execWarmRstN a0 s := rfl
theorem exec_packageColdReset a0 (s : State) : exec (.packageColdReset a0) s = execPackageColdReset a0 s := rfl
theorem exec_packageWarmReset (s : State) : exec (.packageWarmReset) s = execPackageWarmReset s := rfl
theorem exec_evacuationDone a0 (s : State) : exec (.evacuationDone a0) s = execEvacuationDone a0 s := rfl
theorem exec_evacuationTimeout a0 (s : State) : exec (.evacuationTimeout a0) s = execEvacuationTimeout a0 s := rfl
theorem exec_resetHoldExpiry a0 (s : State) : exec (.resetHoldExpiry a0) s = execResetHoldExpiry a0 s := rfl
theorem exec_coreDrainTimeout a0 a1 (s : State) : exec (.coreDrainTimeout a0 a1) s = execCoreDrainTimeout a0 a1 s := rfl
theorem exec_partitionRelease a0 (s : State) : exec (.partitionRelease a0) s = execPartitionRelease a0 s := rfl
theorem exec_guestReset a0 a1 a2 (s : State) : exec (.guestReset a0 a1 a2) s = execGuestReset a0 a1 a2 s := rfl
theorem exec_gstPgFall a0 (s : State) : exec (.gstPgFall a0) s = execGstPgFall a0 s := rfl
theorem exec_pk1Entry (s : State) : exec (.pk1Entry) s = execPk1Entry s := rfl
theorem exec_pk1Exit (s : State) : exec (.pk1Exit) s = execPk1Exit s := rfl
theorem exec_powerAttemptStart (s : State) : exec (.powerAttemptStart) s = execPowerAttemptStart s := rfl
theorem exec_blockAnswer a0 a1 (s : State) : exec (.blockAnswer a0 a1) s = execBlockAnswer a0 a1 s := rfl
theorem exec_guestDelayExpiry a0 (s : State) : exec (.guestDelayExpiry a0) s = execGuestDelayExpiry a0 s := rfl
theorem exec_entryLimitExpiry (s : State) : exec (.entryLimitExpiry) s = execEntryLimitExpiry s := rfl
theorem exec_retryIntervalExpiry (s : State) : exec (.retryIntervalExpiry) s = execRetryIntervalExpiry s := rfl
theorem exec_wakeWindowEnd a0 (s : State) : exec (.wakeWindowEnd a0) s = execWakeWindowEnd a0 s := rfl
theorem exec_wakeEvent a0 (s : State) : exec (.wakeEvent a0) s = execWakeEvent a0 s := rfl
theorem exec_pwrEnMainOff (s : State) : exec (.pwrEnMainOff) s = execPwrEnMainOff s := rfl
theorem exec_highwayExitRepeat a0 a1 (s : State) : exec (.highwayExitRepeat a0 a1) s = execHighwayExitRepeat a0 a1 s := rfl
theorem exec_grantEvaluation a0 (s : State) : exec (.grantEvaluation a0) s = execGrantEvaluation a0 s := rfl
theorem exec_thermalSample a0 a1 (s : State) : exec (.thermalSample a0 a1) s = execThermalSample a0 a1 s := rfl
theorem exec_doorbell a0 a1 a2 a3 (s : State) : exec (.doorbell a0 a1 a2 a3) s = execDoorbell a0 a1 a2 a3 s := rfl
theorem exec_stop a0 a1 a2 (s : State) : exec (.stop a0 a1 a2) s = execStop a0 a1 a2 s := rfl
theorem exec_run a0 a1 a2 (s : State) : exec (.run a0 a1 a2) s = execRun a0 a1 a2 s := rfl
theorem exec_restart a0 a1 a2 (s : State) : exec (.restart a0 a1 a2) s = execRestart a0 a1 a2 s := rfl
theorem exec_skip a0 a1 a2 (s : State) : exec (.skip a0 a1 a2) s = execSkip a0 a1 a2 s := rfl
theorem exec_dmRingWrite a0 a1 a2 a3 (s : State) : exec (.dmRingWrite a0 a1 a2 a3) s = execDmRingWrite a0 a1 a2 a3 s := rfl
theorem exec_channelStopped a0 a1 (s : State) : exec (.channelStopped a0 a1) s = execChannelStopped a0 a1 s := rfl
theorem exec_stretch a0 a1 a2 (s : State) : exec (.stretch a0 a1 a2) s = execStretch a0 a1 a2 s := rfl
theorem exec_bulkPortGrant a0 a1 (s : State) : exec (.bulkPortGrant a0 a1) s = execBulkPortGrant a0 a1 s := rfl
theorem exec_descriptorComplete a0 a1 a2 (s : State) : exec (.descriptorComplete a0 a1 a2) s = execDescriptorComplete a0 a1 a2 s := rfl
theorem exec_engineDown a0 a1 (s : State) : exec (.engineDown a0 a1) s = execEngineDown a0 a1 s := rfl
theorem exec_deviceRequest a0 a1 a2 (s : State) : exec (.deviceRequest a0 a1 a2) s = execDeviceRequest a0 a1 a2 s := rfl
theorem exec_dlActive a0 a1 (s : State) : exec (.dlActive a0 a1) s = execDlActive a0 a1 s := rfl
theorem exec_dlDown a0 a1 (s : State) : exec (.dlDown a0 a1) s = execDlDown a0 a1 s := rfl
theorem exec_biSnoop a0 a1 a2 a3 (s : State) : exec (.biSnoop a0 a1 a2 a3) s = execBiSnoop a0 a1 a2 a3 s := rfl
theorem exec_cxlCacheRequest a0 a1 a2 a3 (s : State) : exec (.cxlCacheRequest a0 a1 a2 a3) s = execCxlCacheRequest a0 a1 a2 a3 s := rfl
theorem exec_cxlMemRequest a0 a1 a2 (s : State) : exec (.cxlMemRequest a0 a1 a2) s = execCxlMemRequest a0 a1 a2 s := rfl
theorem exec_bar2Tlp a0 a1 a2 a3 a4 (s : State) : exec (.bar2Tlp a0 a1 a2 a3 a4) s = execBar2Tlp a0 a1 a2 a3 a4 s := rfl
theorem exec_commit a0 a1 a2 (s : State) : exec (.commit a0 a1 a2) s = execCommit a0 a1 a2 s := rfl
theorem exec_commitDone a0 a1 (s : State) : exec (.commitDone a0 a1) s = execCommitDone a0 a1 s := rfl
theorem exec_activeEntryWrite a0 a1 a2 a3 (s : State) : exec (.activeEntryWrite a0 a1 a2 a3) s = execActiveEntryWrite a0 a1 a2 a3 s := rfl
theorem exec_vfFlr a0 a1 (s : State) : exec (.vfFlr a0 a1) s = execVfFlr a0 a1 s := rfl
theorem exec_pfReset a0 a1 (s : State) : exec (.pfReset a0 a1) s = execPfReset a0 a1 s := rfl
theorem exec_rollCall a0 (s : State) : exec (.rollCall a0) s = execRollCall a0 s := rfl
theorem exec_rollCallTimeout (s : State) : exec (.rollCallTimeout) s = execRollCallTimeout s := rfl
theorem exec_routeDrainDone (s : State) : exec (.routeDrainDone) s = execRouteDrainDone s := rfl
theorem exec_routeDrainTimeout (s : State) : exec (.routeDrainTimeout) s = execRouteDrainTimeout s := rfl
theorem exec_proxyRequest a0 (s : State) : exec (.proxyRequest a0) s = execProxyRequest a0 s := rfl
theorem exec_proxySnoop a0 (s : State) : exec (.proxySnoop a0) s = execProxySnoop a0 s := rfl
theorem exec_waymark a0 (s : State) : exec (.waymark a0) s = execWaymark a0 s := rfl
theorem exec_waveLimitExpiry (s : State) : exec (.waveLimitExpiry) s = execWaveLimitExpiry s := rfl
theorem exec_eventRecord a0 (s : State) : exec (.eventRecord a0) s = execEventRecord a0 s := rfl
theorem exec_take a0 a1 (s : State) : exec (.take a0 a1) s = execTake a0 a1 s := rfl
theorem exec_laybySpill a0 a1 a2 (s : State) : exec (.laybySpill a0 a1 a2) s = execLaybySpill a0 a1 a2 s := rfl
theorem exec_laybyReturn a0 a1 a2 (s : State) : exec (.laybyReturn a0 a1 a2) s = execLaybyReturn a0 a1 a2 s := rfl
theorem exec_instructionFetch a0 a1 a2 a3 (s : State) : exec (.instructionFetch a0 a1 a2 a3) s = execInstructionFetch a0 a1 a2 a3 s := rfl
theorem exec_pcieCompletion a0 a1 a2 a3 a4 (s : State) : exec (.pcieCompletion a0 a1 a2 a3 a4) s = execPcieCompletion a0 a1 a2 a3 a4 s := rfl
theorem exec_completionTimeout a0 a1 a2 (s : State) : exec (.completionTimeout a0 a1 a2) s = execCompletionTimeout a0 a1 a2 s := rfl
theorem exec_hostConfigWrite a0 a1 (s : State) : exec (.hostConfigWrite a0 a1) s = execHostConfigWrite a0 a1 s := rfl
theorem exec_endpointLinkUp a0 (s : State) : exec (.endpointLinkUp a0) s = execEndpointLinkUp a0 s := rfl
theorem exec_gpioPinChange a0 a1 a2 (s : State) : exec (.gpioPinChange a0 a1 a2) s = execGpioPinChange a0 a1 a2 s := rfl
theorem exec_aoPwrgoodFall (s : State) : exec (.aoPwrgoodFall) s = execAoPwrgoodFall s := rfl
theorem exec_undirectedDieReset a0 (s : State) : exec (.undirectedDieReset a0) s = execUndirectedDieReset a0 s := rfl

end Sys2Proof.Machine

namespace Sys2Proof.Safety

open Sys2Proof.Machine

/-- A command whose meaning is a next block completes. -/
theorem gives_of {i : Instr} {s : State} {P : Block → Prop} {b : Block} (h : exec i s = nextBlk s b) (p : P b) :
    Gives i s P := ⟨b, h, p⟩

/-- A command whose meaning is a next block and DRAM completes. -/
theorem givesMem_of {i : Instr} {s : State} {P : Block → Dram → Prop} {x : Block × Dram} (h : exec i s = nextMem s x)
    (p : P x.1 x.2) : GivesMem i s P := ⟨x.1, x.2, h, p⟩

/-- A command whose next block is the old one has no effect. -/
theorem noEffect_of {i : Instr} {s : State} {b : Block} (h : exec i s = nextBlk s b) (e : b = s.blk) : NoEffect i s := by
  subst e; exact h

end Sys2Proof.Safety
end

