-- ==== Sys2Proof/Laws/Tab.lean ====
section
/-! SUPPORT. Laws of sparse tables: reading after a write, and the canonical form that every write keeps. -/

namespace Sys2Proof.Machine

theorem cellLook_put_same {α : Type} (k : Nat) (v : α) (l : List (Nat × α)) : cellLook k (cellPut k v l) = some v := by
  induction l with
  | nil => simp [cellPut, cellLook]
  | cons c r ih =>
    obtain ⟨j, w⟩ := c
    by_cases h : j = k
    · simp [cellPut, cellLook, h]
    · by_cases g : k < j <;> simp [cellPut, cellLook, h, g, ih]

theorem cellLook_put_ne {α : Type} {j k : Nat} (h : j ≠ k) (v : α) (l : List (Nat × α)) :
    cellLook j (cellPut k v l) = cellLook j l := by
  induction l with
  | nil => simp [cellPut, cellLook, Ne.symm h]
  | cons c r ih =>
    obtain ⟨i, w⟩ := c
    by_cases e : i = k
    · subst e; simp [cellPut, cellLook, Ne.symm h]
    · by_cases g : k < i
      · simp [cellPut, cellLook, e, g, Ne.symm h]
      · simp only [cellPut, e, g, if_false, cellLook, ih]

theorem cellLook_del_same {α : Type} (k : Nat) (l : List (Nat × α)) : cellLook k (cellDel k l) = none := by
  induction l with
  | nil => simp [cellDel, cellLook]
  | cons c r ih =>
    obtain ⟨j, w⟩ := c
    by_cases h : j = k <;> simp [cellDel, cellLook, h, ih]

theorem cellLook_del_ne {α : Type} {j k : Nat} (h : j ≠ k) (l : List (Nat × α)) :
    cellLook j (cellDel k l) = cellLook j l := by
  induction l with
  | nil => simp [cellDel, cellLook]
  | cons c r ih =>
    obtain ⟨i, w⟩ := c
    by_cases e : i = k
    · subst e; simp [cellDel, cellLook, ih, Ne.symm h]
    · simp only [cellDel, e, if_false, cellLook, ih]

/-- A table reads the value last written at a key. -/
@[simp] theorem Tab.get_set_same {α : Type} [DecidableEq α] (t : Tab α) (d : α) (k : Nat) (v : α) :
    (t.set d k v).get d k = v := by
  by_cases h : v = d
  · simp [Tab.set, Tab.get, h, cellLook_del_same]
  · simp [Tab.set, Tab.get, h, cellLook_put_same]

/-- A write leaves every other key as it was. -/
theorem Tab.get_set_ne {α : Type} [DecidableEq α] (t : Tab α) (d e : α) {j k : Nat} (v : α) (h : j ≠ k) :
    (t.set d k v).get e j = t.get e j := by
  by_cases g : v = d
  · simp [Tab.set, Tab.get, g, cellLook_del_ne h]
  · simp [Tab.set, Tab.get, g, cellLook_put_ne h]

theorem Tab.get_set {α : Type} [DecidableEq α] (t : Tab α) (d : α) (j k : Nat) (v : α) :
    (t.set d k v).get d j = if j = k then v else t.get d j := by
  by_cases h : j = k
  · subst h; simp
  · simp [h, Tab.get_set_ne t d d v h]

@[simp] theorem Tab.get_upd_same {α : Type} [DecidableEq α] (t : Tab α) (d : α) (k : Nat) (f : α → α) :
    (t.upd d k f).get d k = f (t.get d k) := by simp [Tab.upd]

theorem Tab.get_upd_ne {α : Type} [DecidableEq α] (t : Tab α) (d e : α) {j k : Nat} (f : α → α) (h : j ≠ k) :
    (t.upd d k f).get e j = t.get e j := Tab.get_set_ne _ _ _ _ h

theorem Tab.get_upd {α : Type} [DecidableEq α] (t : Tab α) (d : α) (j k : Nat) (f : α → α) :
    (t.upd d k f).get d j = if j = k then f (t.get d k) else t.get d j := Tab.get_set ..

/-- An empty table reads the default everywhere. -/
@[simp] theorem Tab.get_empty {α : Type} (d : α) (k : Nat) : ({} : Tab α).get d k = d := rfl

/-! ## The canonical form -/

theorem cellsRise_mono {α : Type} {m n : Nat} (h : n ≤ m) (l : List (Nat × α)) (r : cellsRise m l = true) :
    cellsRise n l = true := by
  cases l with
  | nil => rfl
  | cons c t =>
    obtain ⟨k, w⟩ := c
    simp only [cellsRise, Bool.and_eq_true, decide_eq_true_eq] at *
    exact ⟨by omega, r.2⟩

theorem cellsRise_put {α : Type} (k : Nat) (v : α) (l : List (Nat × α)) (n : Nat) (hn : n ≤ k)
    (h : cellsRise n l = true) : cellsRise n (cellPut k v l) = true := by
  induction l generalizing n with
  | nil => simp [cellPut, cellsRise, hn]
  | cons c r ih =>
    obtain ⟨j, w⟩ := c
    simp [cellsRise] at h
    by_cases e : j = k
    · subst e; simp [cellPut, cellsRise, h]
    · by_cases g : k < j
      · simp only [cellPut, e, g, if_false, if_true, cellsRise, hn, h.2, Bool.and_true, decide_true, Bool.true_and]
        simpa using Nat.succ_le_of_lt g
      · have := ih (j + 1) (by omega) h.2
        simp [cellPut, cellsRise, e, g, h, this]

theorem cellsRise_del {α : Type} (k : Nat) (l : List (Nat × α)) (n : Nat) (h : cellsRise n l = true) :
    cellsRise n (cellDel k l) = true := by
  induction l generalizing n with
  | nil => simp [cellDel, cellsRise]
  | cons c r ih =>
    obtain ⟨j, w⟩ := c
    simp [cellsRise] at h
    by_cases e : j = k
    · simp only [cellDel, e, if_true]
      exact cellsRise_mono (by omega) _ (ih _ h.2)
    · simp [cellDel, cellsRise, e, h, ih _ h.2]

theorem cellsRise_filter {α : Type} (p : Nat × α → Bool) (l : List (Nat × α)) (n : Nat) (h : cellsRise n l = true) :
    cellsRise n (l.filter p) = true := by
  induction l generalizing n with
  | nil => rfl
  | cons c r ih =>
    obtain ⟨j, w⟩ := c
    simp [cellsRise] at h
    by_cases e : p (j, w) = true
    · simp [e, cellsRise, h, ih _ h.2]
    · simp only [List.filter_cons, e]
      exact cellsRise_mono (by omega) _ (ih _ h.2)

theorem cellsAll_put {α : Type} {q : Nat × α → Bool} (k : Nat) (v : α) (l : List (Nat × α)) (hv : q (k, v) = true)
    (h : l.all q = true) : (cellPut k v l).all q = true := by
  induction l with
  | nil => simp [cellPut, hv]
  | cons c r ih =>
    obtain ⟨j, w⟩ := c
    simp only [List.all_cons, Bool.and_eq_true] at h
    by_cases e : j = k
    · subst e; simp [cellPut, hv] at *; exact h.2
    · by_cases g : k < j
      · simp [cellPut, e, g, hv] at *; exact h
      · simp only [cellPut, e, g, if_false, List.all_cons, h.1, Bool.true_and]; exact ih h.2

theorem cellsAll_del {α : Type} {q : Nat × α → Bool} (k : Nat) (l : List (Nat × α)) (h : l.all q = true) :
    (cellDel k l).all q = true := by
  induction l with
  | nil => rfl
  | cons c r ih =>
    obtain ⟨j, w⟩ := c
    simp only [List.all_cons, Bool.and_eq_true] at h
    by_cases e : j = k
    · simp only [cellDel, e, if_true]; exact ih h.2
    · simp only [cellDel, e, if_false, List.all_cons, h.1, Bool.true_and]; exact ih h.2

/-- A write keeps the canonical form. -/
theorem Tab.wf_set {α : Type} [DecidableEq α] {d : Nat → α} {t : Tab α} (h : t.wf d = true) (k : Nat) (v : α) :
    (t.set (d k) k v).wf d = true := by
  simp only [Tab.wf, Bool.and_eq_true] at *
  by_cases e : v = d k
  · simp only [Tab.set, e, if_true]
    exact ⟨cellsRise_del k _ 0 h.1, cellsAll_del k _ h.2⟩
  · simp only [Tab.set, e, if_false]
    exact ⟨cellsRise_put k v _ 0 (Nat.zero_le _) h.1, cellsAll_put k v _ (by simpa using e) h.2⟩

/-- Removing cells keeps the canonical form. -/
theorem Tab.wf_filter {α : Type} [DecidableEq α] {d : Nat → α} {t : Tab α} (h : t.wf d = true) (p : Nat × α → Bool) :
    ({ cells := t.cells.filter p } : Tab α).wf d = true := by
  simp only [Tab.wf, Bool.and_eq_true] at *
  refine ⟨cellsRise_filter p _ 0 h.1, ?_⟩
  rw [List.all_eq_true] at *
  intro c hc
  exact h.2 c (List.mem_filter.mp hc).1

end Sys2Proof.Machine
end

