-- ==== Sys2Proof/Laws/Memory.lean ====
section
/-! SUPPORT. Laws of the DRAM: every operation keeps its canonical form; a byte reads what was written to it last, a line likewise,
with its marks, and a write leaves every other byte and mark alone. -/

namespace Sys2Proof.Machine

theorem Dram.wf_empty : ({} : Dram).wf = true := rfl

theorem Dram.wf_setByte {d : Dram} (h : d.wf = true) (a : Nat) (v : Byte) : (d.setByte a v).wf = true := by
  simp only [Dram.wf, Dram.setByte, Bool.and_eq_true] at *
  exact ⟨Tab.wf_set (d := fun _ => 0) h.1 a v, h.2⟩

theorem Dram.wf_setBytes {d : Dram} (h : d.wf = true) (a v n : Nat) : (d.setBytes a v n).wf = true := by
  induction n with
  | zero => exact h
  | succ n ih => exact Dram.wf_setByte ih _ _

theorem Dram.wf_setMarks {d : Dram} (h : d.wf = true) (w p n : Nat) : (d.setMarks w p n).wf = true := by
  induction n with
  | zero => exact h
  | succ n ih =>
    simp only [Dram.wf, Bool.and_eq_true] at *
    exact ⟨ih.1, Tab.wf_set (d := fun _ => false) ih.2 _ _⟩

theorem Dram.wf_writeLine {d : Dram} (h : d.wf = true) (chan ma : Nat) (data : LineData) (p : Poison) :
    (d.writeLine chan ma data p).wf = true := Dram.wf_setMarks (Dram.wf_setBytes h _ _ _) _ _ _

theorem Dram.wf_clearChan {d : Dram} (h : d.wf = true) (chan : Nat) : (d.clearChan chan).wf = true := by
  simp only [Dram.wf, Dram.clearChan, Bool.and_eq_true] at *
  exact ⟨Tab.wf_filter h.1 _, Tab.wf_filter h.2 _⟩

theorem Dram.wf_keepRanks {d : Dram} (h : d.wf = true) (b : Block) (hub : Hub) (c mask : Nat) :
    (d.keepRanks b hub c mask).wf = true := by
  simp only [Dram.wf, Dram.keepRanks, Bool.and_eq_true] at *
  exact ⟨Tab.wf_filter h.1 _, Tab.wf_filter h.2 _⟩

/-! ## Read after write -/

theorem Dram.byte_setByte (d : Dram) (a x : Nat) (v : Byte) : (d.setByte a v).byte x = if x = a then v else d.byte x := by
  by_cases h : x = a
  · subst h; simp [Dram.byte, Dram.setByte]
  · simp [Dram.byte, Dram.setByte, h, Tab.get_set_ne]

/-- A byte of a write of `n` bytes, or any other byte. -/
theorem Dram.byte_setBytes (d : Dram) (a v n x : Nat) : (d.setBytes a v n).byte x =
    if a ≤ x ∧ x < a + n then BitVec.ofNat 8 (v >>> (8 * (x - a))) else d.byte x := by
  induction n with
  | zero => rw [if_neg (by omega)]; rfl
  | succ n ih =>
    rw [Dram.setBytes, Dram.byte_setByte, ih]
    by_cases h : x = a + n
    · subst h; simp
    · have : (a ≤ x ∧ x < a + (n + 1)) ↔ (a ≤ x ∧ x < a + n) := by omega
      simp [h, this]

@[simp] theorem Dram.setMarks_bytes (d : Dram) (w p n : Nat) : (d.setMarks w p n).bytes = d.bytes := by
  induction n with
  | zero => rfl
  | succ n ih => simp [Dram.setMarks, ih]

@[simp] theorem Dram.setBytes_poison (d : Dram) (a v n : Nat) : (d.setBytes a v n).poison = d.poison := by
  induction n with
  | zero => rfl
  | succ n ih => simp [Dram.setBytes, Dram.setByte, ih]

/-- The mark of a word of a write, or any other mark. -/
theorem Dram.mark_setMarks (d : Dram) (w p n x : Nat) : (d.setMarks w p n).poison.get false x =
    if w ≤ x ∧ x < w + n then p.testBit (x - w) else d.poison.get false x := by
  induction n with
  | zero => rw [if_neg (by omega)]; rfl
  | succ n ih =>
    simp only [Dram.setMarks, Tab.get_set, ih]
    by_cases h : x = w + n
    · subst h; simp [bitOf_testBit]
    · have : (w ≤ x ∧ x < w + (n + 1)) ↔ (w ≤ x ∧ x < w + n) := by omega
      simp [h, this]

/-- A line write changes only the 64 bytes of its line. -/
theorem Dram.byte_writeLine (d : Dram) (chan ma : Nat) (data : LineData) (p : Poison) (x : Nat) :
    (d.writeLine chan ma data p).byte x =
      let a := dramAddr chan (ma / 64 * 64)
      if a ≤ x ∧ x < a + 64 then BitVec.ofNat 8 (data.toNat >>> (8 * (x - a))) else d.byte x := by
  simp only [Dram.writeLine, Dram.byte, Dram.setMarks_bytes]
  exact Dram.byte_setBytes d _ _ _ x

theorem Dram.getBytes_eq (d : Dram) (a v n : Nat) (h : ∀ i < n, d.byte (a + i) = BitVec.ofNat 8 (v >>> (8 * i))) :
    d.getBytes a n = v % 2 ^ (8 * n) := by
  induction n with
  | zero => simp [Dram.getBytes, Nat.mod_one]
  | succ n ih =>
    have e : 2 ^ (8 * (n + 1)) = 2 ^ (8 * n) * 2 ^ 8 := by rw [← Nat.pow_add]; rfl
    rw [Dram.getBytes, ih fun i hi => h i (by omega), h n (by omega), e, Nat.mod_mul, BitVec.toNat_ofNat,
      Nat.shiftRight_eq_div_pow, Nat.mul_comm (_ % 2 ^ 8)]

theorem Dram.getMarks_eq (d : Dram) (w p n : Nat) (h : ∀ i < n, d.poison.get false (w + i) = p.testBit i) :
    d.getMarks w n = p % 2 ^ n := by
  induction n with
  | zero => simp [Dram.getMarks, Nat.mod_one]
  | succ n ih =>
    rw [Dram.getMarks, ih fun i hi => h i (by omega), h n (by omega), Nat.pow_succ, Nat.mod_mul, Nat.testBit_eq_decide_div_mod_eq, b2n]
    rcases Nat.mod_two_eq_zero_or_one (p / 2 ^ n) with g | g <;> simp [g]

set_option exponentiation.threshold 600 in
/-- A line reads what was written to it last, with its marks. -/
@[simp] theorem Dram.readLine_writeLine (d : Dram) (chan ma : Nat) (data : LineData) (p : Poison) :
    (d.writeLine chan ma data p).readLine chan ma = (data, p) := by
  have h1 := Dram.getBytes_eq (d.writeLine chan ma data p) (dramAddr chan (ma / 64 * 64)) data.toNat 64 fun i hi => by
    rw [Dram.byte_writeLine]; simp [hi]
  have h2 := Dram.getMarks_eq (d.writeLine chan ma data p) (dramAddr chan (ma / 64 * 64) / 8) p.toNat 8 fun i hi => by
    rw [Dram.writeLine, Dram.mark_setMarks]; simp [hi]
  rw [Dram.readLine, h1, h2, show data.toNat % 2 ^ (8 * 64) = data.toNat from Nat.mod_eq_of_lt data.isLt, Nat.mod_eq_of_lt p.isLt]
  simp

end Sys2Proof.Machine
end

