-- ==== Sys2Proof/Laws/Regs.lean ====
section
/-! SUPPORT. Laws of the registers and CSRs: a register reads what was last written to it, a field likewise, and writes of other
registers and of other fields change neither. -/

namespace Sys2Proof.Machine

theorem rd_wr (b : Block) (o p v : Nat) : rd (wr b p v) o = if o = p then v % 2 ^ 64 else rd b o := by
  by_cases h : o = p
  · subst h; simp [rd, wr]
  · simp [rd, wr, h, Tab.get_set_ne]

@[simp] theorem rd_wr_same (b : Block) (o v : Nat) : rd (wr b o v) o = v % 2 ^ 64 := by simp [rd_wr]

theorem rd_wr_ne (b : Block) {o p : Nat} (v : Nat) (h : o ≠ p) : rd (wr b p v) o = rd b o := by simp [rd_wr, h]

theorem rd_lt (b : Block) (o : Nat) : rd b o < 2 ^ 64 := BitVec.isLt _

/-- Registers alone decide what a register reads. -/
theorem rd_congr {a b : Block} (h : a.regs = b.regs) (o : Nat) : rd a o = rd b o := by simp [rd, h]

theorem rd_fset (b : Block) (o p : Nat) (f : Fld) (v : Nat) (h : f.hi < 64) :
    rd (fset b p f v) o = if o = p then putBits (rd b p) f.hi f.lo v else rd b o := by
  rw [fset, rd_wr, Nat.mod_eq_of_lt (putBits_lt (rd_lt b p) h)]

theorem rd_fset_ne (b : Block) {o p : Nat} (f : Fld) (v : Nat) (h : o ≠ p) : rd (fset b p f v) o = rd b o := rd_wr_ne _ _ h

/-- A field reads what was written to it, cut to its width. -/
theorem fget_fset_same (b : Block) (o : Nat) (f : Fld) (v : Nat) (h : f.hi < 64) :
    fget (fset b o f v) o f = v % 2 ^ (f.hi + 1 - f.lo) := by
  rw [fget, rd_fset _ _ _ _ _ h, if_pos rfl, bitsOf_putBits_same]

/-- A field is unchanged by a write of another field of its register. -/
theorem fget_fset_disj (b : Block) (o : Nat) (f g : Fld) (v : Nat) (h : f.hi < 64) (d : g.hi < f.lo ∨ f.hi < g.lo) :
    fget (fset b o f v) o g = fget b o g := by
  rw [fget, rd_fset _ _ _ _ _ h, if_pos rfl, bitsOf_putBits_disj d, fget]

/-- A field is unchanged by a write of another register. -/
theorem fget_fset_ne (b : Block) {o p : Nat} (f g : Fld) (v : Nat) (h : o ≠ p) :
    fget (fset b p f v) o g = fget b o g := by rw [fget, rd_fset_ne _ _ _ h, fget]

theorem fget_wr_ne (b : Block) {o p : Nat} (g : Fld) (v : Nat) (h : o ≠ p) :
    fget (wr b p v) o g = fget b o g := by rw [fget, rd_wr_ne _ _ h, fget]

theorem fget_wr_same (b : Block) (o : Nat) (g : Fld) (v : Nat) : fget (wr b o v) o g = bitsOf (v % 2 ^ 64) g.hi g.lo := by
  rw [fget, rd_wr_same]

theorem fget_congr {a b : Block} (h : a.regs = b.regs) (o : Nat) (f : Fld) : fget a o f = fget b o f := by
  rw [fget, rd_congr h, fget]

theorem fon_congr {a b : Block} (h : a.regs = b.regs) (o : Nat) (f : Fld) : fon a o f = fon b o f := by
  rw [fon, fget_congr h, fon]

theorem rdCsr_wrCsr (b : Block) (i n j m v : Nat) :
    rdCsr (wrCsr b j m v) i n = if csrKey i n = csrKey j m then v % 2 ^ 64 else rdCsr b i n := by
  by_cases h : csrKey i n = csrKey j m
  · simp [rdCsr, wrCsr, h]
  · simp [rdCsr, wrCsr, h, Tab.get_set_ne]

@[simp] theorem rdCsr_wrCsr_same (b : Block) (i n v : Nat) : rdCsr (wrCsr b i n v) i n = v % 2 ^ 64 := by
  simp [rdCsr_wrCsr]

theorem rdCsr_lt (b : Block) (i n : Nat) : rdCsr b i n < 2 ^ 64 := BitVec.isLt _

theorem rdCsr_congr {a b : Block} (h : a.csrs = b.csrs) (i n : Nat) : rdCsr a i n = rdCsr b i n := by simp [rdCsr, h]

/-! ## Event records and status bits -/

/-- A record joins the event path and advances its source's SEQ; nothing else changes. -/
theorem raiseOwned_regs (b : Block) (owner : Option Nat) (ag unit cls kind sev fl d0 d1 : Nat) (ao : Bool) :
    (raiseOwned b owner ag unit cls kind sev fl d0 d1 ao).regs = b.regs := rfl

theorem raise_regs (b : Block) (ag unit cls kind sev fl d0 d1 : Nat) (ao : Bool) :
    (raise b ag unit cls kind sev fl d0 d1 ao).regs = b.regs := rfl

@[simp] theorem rd_raise (b : Block) (ag unit cls kind sev fl d0 d1 : Nat) (ao : Bool) (o : Nat) :
    rd (raise b ag unit cls kind sev fl d0 d1 ao) o = rd b o := rfl

@[simp] theorem rd_raiseOwned (b : Block) (owner : Option Nat) (ag unit cls kind sev fl d0 d1 : Nat) (ao : Bool) (o : Nat) :
    rd (raiseOwned b owner ag unit cls kind sev fl d0 d1 ao) o = rd b o := rfl

/-- A hardware set changes its own register alone, in its bit alone. -/
theorem rd_setStatus (b : Block) (off bit d1 : Nat) (ao w : Bool) (o : Nat) (h : bit < 64) :
    rd (setStatus b off bit d1 ao w) o = if o = off then putBits (rd b off) bit bit 1 else rd b o := by
  have : rd (setStatus b off bit d1 ao w) o = rd (wr b off (putBits (rd b off) bit bit 1)) o := rfl
  rw [this, rd_wr, Nat.mod_eq_of_lt (putBits_lt (rd_lt b off) h)]

/-- A set bit reads 1 (R12, R513). -/
theorem setStatus_sets (b : Block) (off bit d1 : Nat) (ao w : Bool) (h : bit < 64) :
    bitOf (rd (setStatus b off bit d1 ao w) off) bit = true := by
  rw [rd_setStatus _ _ _ _ _ _ _ h, if_pos rfl, bitOf_putBits, if_pos (by omega)]; simp [bitOf]

theorem rd_clearStatus (b : Block) (off bit o : Nat) (h : bit < 64) :
    rd (clearStatus b off bit) o = if o = off then putBits (rd b off) bit bit 0 else rd b o := by
  have : rd (clearStatus b off bit) o = rd (wr b off (putBits (rd b off) bit bit 0)) o := rfl
  rw [this, rd_wr, Nat.mod_eq_of_lt (putBits_lt (rd_lt b off) h)]

/-- A counter that saturates at 32 bits. -/
theorem rd_bump_same (b : Block) (o : Nat) : rd (bump b o) o = min 0xFFFF_FFFF (rd b o + 1) := by
  rw [bump, bumpBy, rd_wr_same, Nat.mod_eq_of_lt]
  exact Nat.lt_of_le_of_lt (Nat.min_le_left ..) (by decide)

end Sys2Proof.Machine
end

