-- ==== Sys2Proof/Laws/State.lean ====
section
/-! SUPPORT. One law per field of the block per update, each true by unfolding: an update leaves every other field as it was. -/

namespace Sys2Proof.Machine

@[simp] theorem updLink_regs (b : Block) (e : LinkId) (f : LinkEnd → LinkEnd) : (updLink b e f).regs = b.regs := rfl
@[simp] theorem updLink_csrs (b : Block) (e : LinkId) (f : LinkEnd → LinkEnd) : (updLink b e f).csrs = b.csrs := rfl
@[simp] theorem updLink_coal (b : Block) (e : LinkId) (f : LinkEnd → LinkEnd) : (updLink b e f).coal = b.coal := rfl
@[simp] theorem updLink_time (b : Block) (e : LinkId) (f : LinkEnd → LinkEnd) : (updLink b e f).time = b.time := rfl
@[simp] theorem updLink_freeIx (b : Block) (e : LinkId) (f : LinkEnd → LinkEnd) : (updLink b e f).freeIx = b.freeIx := rfl
@[simp] theorem updLink_harts (b : Block) (e : LinkId) (f : LinkEnd → LinkEnd) : (updLink b e f).harts = b.harts := rfl
@[simp] theorem updLink_dies (b : Block) (e : LinkId) (f : LinkEnd → LinkEnd) : (updLink b e f).dies = b.dies := rfl
@[simp] theorem updLink_slices (b : Block) (e : LinkId) (f : LinkEnd → LinkEnd) : (updLink b e f).slices = b.slices := rfl
@[simp] theorem updLink_chans (b : Block) (e : LinkId) (f : LinkEnd → LinkEnd) : (updLink b e f).chans = b.chans := rfl
@[simp] theorem updLink_io (b : Block) (e : LinkId) (f : LinkEnd → LinkEnd) : (updLink b e f).io = b.io := rfl
@[simp] theorem updLink_spurs (b : Block) (e : LinkId) (f : LinkEnd → LinkEnd) : (updLink b e f).spurs = b.spurs := rfl
@[simp] theorem updLink_movers (b : Block) (e : LinkId) (f : LinkEnd → LinkEnd) : (updLink b e f).movers = b.movers := rfl
@[simp] theorem updLink_tolls (b : Block) (e : LinkId) (f : LinkEnd → LinkEnd) : (updLink b e f).tolls = b.tolls := rfl
@[simp] theorem updLink_inbox (b : Block) (e : LinkId) (f : LinkEnd → LinkEnd) : (updLink b e f).inbox = b.inbox := rfl
@[simp] theorem updLink_reports (b : Block) (e : LinkId) (f : LinkEnd → LinkEnd) : (updLink b e f).reports = b.reports := rfl
@[simp] theorem updLink_mbx (b : Block) (e : LinkId) (f : LinkEnd → LinkEnd) : (updLink b e f).mbx = b.mbx := rfl
@[simp] theorem updLink_objs (b : Block) (e : LinkId) (f : LinkEnd → LinkEnd) : (updLink b e f).objs = b.objs := rfl
@[simp] theorem updLink_evSeq (b : Block) (e : LinkId) (f : LinkEnd → LinkEnd) : (updLink b e f).evSeq = b.evSeq := rfl
@[simp] theorem updLink_evPath (b : Block) (e : LinkId) (f : LinkEnd → LinkEnd) : (updLink b e f).evPath = b.evPath := rfl
@[simp] theorem updLink_rings (b : Block) (e : LinkId) (f : LinkEnd → LinkEnd) : (updLink b e f).rings = b.rings := rfl
@[simp] theorem updLink_lostWrites (b : Block) (e : LinkId) (f : LinkEnd → LinkEnd) : (updLink b e f).lostWrites = b.lostWrites := rfl
@[simp] theorem updLink_pkg (b : Block) (e : LinkId) (f : LinkEnd → LinkEnd) : (updLink b e f).pkg = b.pkg := rfl
@[simp] theorem updLink_power (b : Block) (e : LinkId) (f : LinkEnd → LinkEnd) : (updLink b e f).power = b.power := rfl
@[simp] theorem updLink_wave (b : Block) (e : LinkId) (f : LinkEnd → LinkEnd) : (updLink b e f).wave = b.wave := rfl
@[simp] theorem updLink_outbox (b : Block) (e : LinkId) (f : LinkEnd → LinkEnd) : (updLink b e f).outbox = b.outbox := rfl

@[simp] theorem updSlice_regs (b : Block) (h : Hub) (s : Nat) (f : Slice → Slice) : (updSlice b h s f).regs = b.regs := rfl
@[simp] theorem updSlice_csrs (b : Block) (h : Hub) (s : Nat) (f : Slice → Slice) : (updSlice b h s f).csrs = b.csrs := rfl
@[simp] theorem updSlice_coal (b : Block) (h : Hub) (s : Nat) (f : Slice → Slice) : (updSlice b h s f).coal = b.coal := rfl
@[simp] theorem updSlice_time (b : Block) (h : Hub) (s : Nat) (f : Slice → Slice) : (updSlice b h s f).time = b.time := rfl
@[simp] theorem updSlice_freeIx (b : Block) (h : Hub) (s : Nat) (f : Slice → Slice) : (updSlice b h s f).freeIx = b.freeIx := rfl
@[simp] theorem updSlice_harts (b : Block) (h : Hub) (s : Nat) (f : Slice → Slice) : (updSlice b h s f).harts = b.harts := rfl
@[simp] theorem updSlice_dies (b : Block) (h : Hub) (s : Nat) (f : Slice → Slice) : (updSlice b h s f).dies = b.dies := rfl
@[simp] theorem updSlice_links (b : Block) (h : Hub) (s : Nat) (f : Slice → Slice) : (updSlice b h s f).links = b.links := rfl
@[simp] theorem updSlice_chans (b : Block) (h : Hub) (s : Nat) (f : Slice → Slice) : (updSlice b h s f).chans = b.chans := rfl
@[simp] theorem updSlice_io (b : Block) (h : Hub) (s : Nat) (f : Slice → Slice) : (updSlice b h s f).io = b.io := rfl
@[simp] theorem updSlice_spurs (b : Block) (h : Hub) (s : Nat) (f : Slice → Slice) : (updSlice b h s f).spurs = b.spurs := rfl
@[simp] theorem updSlice_movers (b : Block) (h : Hub) (s : Nat) (f : Slice → Slice) : (updSlice b h s f).movers = b.movers := rfl
@[simp] theorem updSlice_tolls (b : Block) (h : Hub) (s : Nat) (f : Slice → Slice) : (updSlice b h s f).tolls = b.tolls := rfl
@[simp] theorem updSlice_inbox (b : Block) (h : Hub) (s : Nat) (f : Slice → Slice) : (updSlice b h s f).inbox = b.inbox := rfl
@[simp] theorem updSlice_reports (b : Block) (h : Hub) (s : Nat) (f : Slice → Slice) : (updSlice b h s f).reports = b.reports := rfl
@[simp] theorem updSlice_mbx (b : Block) (h : Hub) (s : Nat) (f : Slice → Slice) : (updSlice b h s f).mbx = b.mbx := rfl
@[simp] theorem updSlice_objs (b : Block) (h : Hub) (s : Nat) (f : Slice → Slice) : (updSlice b h s f).objs = b.objs := rfl
@[simp] theorem updSlice_evSeq (b : Block) (h : Hub) (s : Nat) (f : Slice → Slice) : (updSlice b h s f).evSeq = b.evSeq := rfl
@[simp] theorem updSlice_evPath (b : Block) (h : Hub) (s : Nat) (f : Slice → Slice) : (updSlice b h s f).evPath = b.evPath := rfl
@[simp] theorem updSlice_rings (b : Block) (h : Hub) (s : Nat) (f : Slice → Slice) : (updSlice b h s f).rings = b.rings := rfl
@[simp] theorem updSlice_lostWrites (b : Block) (h : Hub) (s : Nat) (f : Slice → Slice) : (updSlice b h s f).lostWrites = b.lostWrites := rfl
@[simp] theorem updSlice_pkg (b : Block) (h : Hub) (s : Nat) (f : Slice → Slice) : (updSlice b h s f).pkg = b.pkg := rfl
@[simp] theorem updSlice_power (b : Block) (h : Hub) (s : Nat) (f : Slice → Slice) : (updSlice b h s f).power = b.power := rfl
@[simp] theorem updSlice_wave (b : Block) (h : Hub) (s : Nat) (f : Slice → Slice) : (updSlice b h s f).wave = b.wave := rfl
@[simp] theorem updSlice_outbox (b : Block) (h : Hub) (s : Nat) (f : Slice → Slice) : (updSlice b h s f).outbox = b.outbox := rfl

@[simp] theorem updHart_regs (b : Block) (i : Nat) (f : HartSt → HartSt) : (updHart b i f).regs = b.regs := rfl
@[simp] theorem updHart_csrs (b : Block) (i : Nat) (f : HartSt → HartSt) : (updHart b i f).csrs = b.csrs := rfl
@[simp] theorem updHart_coal (b : Block) (i : Nat) (f : HartSt → HartSt) : (updHart b i f).coal = b.coal := rfl
@[simp] theorem updHart_time (b : Block) (i : Nat) (f : HartSt → HartSt) : (updHart b i f).time = b.time := rfl
@[simp] theorem updHart_freeIx (b : Block) (i : Nat) (f : HartSt → HartSt) : (updHart b i f).freeIx = b.freeIx := rfl
@[simp] theorem updHart_dies (b : Block) (i : Nat) (f : HartSt → HartSt) : (updHart b i f).dies = b.dies := rfl
@[simp] theorem updHart_links (b : Block) (i : Nat) (f : HartSt → HartSt) : (updHart b i f).links = b.links := rfl
@[simp] theorem updHart_slices (b : Block) (i : Nat) (f : HartSt → HartSt) : (updHart b i f).slices = b.slices := rfl
@[simp] theorem updHart_chans (b : Block) (i : Nat) (f : HartSt → HartSt) : (updHart b i f).chans = b.chans := rfl
@[simp] theorem updHart_io (b : Block) (i : Nat) (f : HartSt → HartSt) : (updHart b i f).io = b.io := rfl
@[simp] theorem updHart_spurs (b : Block) (i : Nat) (f : HartSt → HartSt) : (updHart b i f).spurs = b.spurs := rfl
@[simp] theorem updHart_movers (b : Block) (i : Nat) (f : HartSt → HartSt) : (updHart b i f).movers = b.movers := rfl
@[simp] theorem updHart_tolls (b : Block) (i : Nat) (f : HartSt → HartSt) : (updHart b i f).tolls = b.tolls := rfl
@[simp] theorem updHart_inbox (b : Block) (i : Nat) (f : HartSt → HartSt) : (updHart b i f).inbox = b.inbox := rfl
@[simp] theorem updHart_reports (b : Block) (i : Nat) (f : HartSt → HartSt) : (updHart b i f).reports = b.reports := rfl
@[simp] theorem updHart_mbx (b : Block) (i : Nat) (f : HartSt → HartSt) : (updHart b i f).mbx = b.mbx := rfl
@[simp] theorem updHart_objs (b : Block) (i : Nat) (f : HartSt → HartSt) : (updHart b i f).objs = b.objs := rfl
@[simp] theorem updHart_evSeq (b : Block) (i : Nat) (f : HartSt → HartSt) : (updHart b i f).evSeq = b.evSeq := rfl
@[simp] theorem updHart_evPath (b : Block) (i : Nat) (f : HartSt → HartSt) : (updHart b i f).evPath = b.evPath := rfl
@[simp] theorem updHart_rings (b : Block) (i : Nat) (f : HartSt → HartSt) : (updHart b i f).rings = b.rings := rfl
@[simp] theorem updHart_lostWrites (b : Block) (i : Nat) (f : HartSt → HartSt) : (updHart b i f).lostWrites = b.lostWrites := rfl
@[simp] theorem updHart_pkg (b : Block) (i : Nat) (f : HartSt → HartSt) : (updHart b i f).pkg = b.pkg := rfl
@[simp] theorem updHart_power (b : Block) (i : Nat) (f : HartSt → HartSt) : (updHart b i f).power = b.power := rfl
@[simp] theorem updHart_wave (b : Block) (i : Nat) (f : HartSt → HartSt) : (updHart b i f).wave = b.wave := rfl
@[simp] theorem updHart_outbox (b : Block) (i : Nat) (f : HartSt → HartSt) : (updHart b i f).outbox = b.outbox := rfl

@[simp] theorem updDie_regs (b : Block) (k : Nat) (f : DieSt → DieSt) : (updDie b k f).regs = b.regs := rfl
@[simp] theorem updDie_csrs (b : Block) (k : Nat) (f : DieSt → DieSt) : (updDie b k f).csrs = b.csrs := rfl
@[simp] theorem updDie_coal (b : Block) (k : Nat) (f : DieSt → DieSt) : (updDie b k f).coal = b.coal := rfl
@[simp] theorem updDie_time (b : Block) (k : Nat) (f : DieSt → DieSt) : (updDie b k f).time = b.time := rfl
@[simp] theorem updDie_freeIx (b : Block) (k : Nat) (f : DieSt → DieSt) : (updDie b k f).freeIx = b.freeIx := rfl
@[simp] theorem updDie_harts (b : Block) (k : Nat) (f : DieSt → DieSt) : (updDie b k f).harts = b.harts := rfl
@[simp] theorem updDie_links (b : Block) (k : Nat) (f : DieSt → DieSt) : (updDie b k f).links = b.links := rfl
@[simp] theorem updDie_slices (b : Block) (k : Nat) (f : DieSt → DieSt) : (updDie b k f).slices = b.slices := rfl
@[simp] theorem updDie_chans (b : Block) (k : Nat) (f : DieSt → DieSt) : (updDie b k f).chans = b.chans := rfl
@[simp] theorem updDie_io (b : Block) (k : Nat) (f : DieSt → DieSt) : (updDie b k f).io = b.io := rfl
@[simp] theorem updDie_spurs (b : Block) (k : Nat) (f : DieSt → DieSt) : (updDie b k f).spurs = b.spurs := rfl
@[simp] theorem updDie_movers (b : Block) (k : Nat) (f : DieSt → DieSt) : (updDie b k f).movers = b.movers := rfl
@[simp] theorem updDie_tolls (b : Block) (k : Nat) (f : DieSt → DieSt) : (updDie b k f).tolls = b.tolls := rfl
@[simp] theorem updDie_inbox (b : Block) (k : Nat) (f : DieSt → DieSt) : (updDie b k f).inbox = b.inbox := rfl
@[simp] theorem updDie_reports (b : Block) (k : Nat) (f : DieSt → DieSt) : (updDie b k f).reports = b.reports := rfl
@[simp] theorem updDie_mbx (b : Block) (k : Nat) (f : DieSt → DieSt) : (updDie b k f).mbx = b.mbx := rfl
@[simp] theorem updDie_objs (b : Block) (k : Nat) (f : DieSt → DieSt) : (updDie b k f).objs = b.objs := rfl
@[simp] theorem updDie_evSeq (b : Block) (k : Nat) (f : DieSt → DieSt) : (updDie b k f).evSeq = b.evSeq := rfl
@[simp] theorem updDie_evPath (b : Block) (k : Nat) (f : DieSt → DieSt) : (updDie b k f).evPath = b.evPath := rfl
@[simp] theorem updDie_rings (b : Block) (k : Nat) (f : DieSt → DieSt) : (updDie b k f).rings = b.rings := rfl
@[simp] theorem updDie_lostWrites (b : Block) (k : Nat) (f : DieSt → DieSt) : (updDie b k f).lostWrites = b.lostWrites := rfl
@[simp] theorem updDie_pkg (b : Block) (k : Nat) (f : DieSt → DieSt) : (updDie b k f).pkg = b.pkg := rfl
@[simp] theorem updDie_power (b : Block) (k : Nat) (f : DieSt → DieSt) : (updDie b k f).power = b.power := rfl
@[simp] theorem updDie_wave (b : Block) (k : Nat) (f : DieSt → DieSt) : (updDie b k f).wave = b.wave := rfl
@[simp] theorem updDie_outbox (b : Block) (k : Nat) (f : DieSt → DieSt) : (updDie b k f).outbox = b.outbox := rfl

@[simp] theorem updChan_regs (b : Block) (c : Nat) (f : Chan → Chan) : (updChan b c f).regs = b.regs := rfl
@[simp] theorem updChan_csrs (b : Block) (c : Nat) (f : Chan → Chan) : (updChan b c f).csrs = b.csrs := rfl
@[simp] theorem updChan_coal (b : Block) (c : Nat) (f : Chan → Chan) : (updChan b c f).coal = b.coal := rfl
@[simp] theorem updChan_time (b : Block) (c : Nat) (f : Chan → Chan) : (updChan b c f).time = b.time := rfl
@[simp] theorem updChan_freeIx (b : Block) (c : Nat) (f : Chan → Chan) : (updChan b c f).freeIx = b.freeIx := rfl
@[simp] theorem updChan_harts (b : Block) (c : Nat) (f : Chan → Chan) : (updChan b c f).harts = b.harts := rfl
@[simp] theorem updChan_dies (b : Block) (c : Nat) (f : Chan → Chan) : (updChan b c f).dies = b.dies := rfl
@[simp] theorem updChan_links (b : Block) (c : Nat) (f : Chan → Chan) : (updChan b c f).links = b.links := rfl
@[simp] theorem updChan_slices (b : Block) (c : Nat) (f : Chan → Chan) : (updChan b c f).slices = b.slices := rfl
@[simp] theorem updChan_io (b : Block) (c : Nat) (f : Chan → Chan) : (updChan b c f).io = b.io := rfl
@[simp] theorem updChan_spurs (b : Block) (c : Nat) (f : Chan → Chan) : (updChan b c f).spurs = b.spurs := rfl
@[simp] theorem updChan_movers (b : Block) (c : Nat) (f : Chan → Chan) : (updChan b c f).movers = b.movers := rfl
@[simp] theorem updChan_tolls (b : Block) (c : Nat) (f : Chan → Chan) : (updChan b c f).tolls = b.tolls := rfl
@[simp] theorem updChan_inbox (b : Block) (c : Nat) (f : Chan → Chan) : (updChan b c f).inbox = b.inbox := rfl
@[simp] theorem updChan_reports (b : Block) (c : Nat) (f : Chan → Chan) : (updChan b c f).reports = b.reports := rfl
@[simp] theorem updChan_mbx (b : Block) (c : Nat) (f : Chan → Chan) : (updChan b c f).mbx = b.mbx := rfl
@[simp] theorem updChan_objs (b : Block) (c : Nat) (f : Chan → Chan) : (updChan b c f).objs = b.objs := rfl
@[simp] theorem updChan_evSeq (b : Block) (c : Nat) (f : Chan → Chan) : (updChan b c f).evSeq = b.evSeq := rfl
@[simp] theorem updChan_evPath (b : Block) (c : Nat) (f : Chan → Chan) : (updChan b c f).evPath = b.evPath := rfl
@[simp] theorem updChan_rings (b : Block) (c : Nat) (f : Chan → Chan) : (updChan b c f).rings = b.rings := rfl
@[simp] theorem updChan_lostWrites (b : Block) (c : Nat) (f : Chan → Chan) : (updChan b c f).lostWrites = b.lostWrites := rfl
@[simp] theorem updChan_pkg (b : Block) (c : Nat) (f : Chan → Chan) : (updChan b c f).pkg = b.pkg := rfl
@[simp] theorem updChan_power (b : Block) (c : Nat) (f : Chan → Chan) : (updChan b c f).power = b.power := rfl
@[simp] theorem updChan_wave (b : Block) (c : Nat) (f : Chan → Chan) : (updChan b c f).wave = b.wave := rfl
@[simp] theorem updChan_outbox (b : Block) (c : Nat) (f : Chan → Chan) : (updChan b c f).outbox = b.outbox := rfl

@[simp] theorem updIo_regs (b : Block) (h : Hub) (f : IoAgent → IoAgent) : (updIo b h f).regs = b.regs := rfl
@[simp] theorem updIo_csrs (b : Block) (h : Hub) (f : IoAgent → IoAgent) : (updIo b h f).csrs = b.csrs := rfl
@[simp] theorem updIo_coal (b : Block) (h : Hub) (f : IoAgent → IoAgent) : (updIo b h f).coal = b.coal := rfl
@[simp] theorem updIo_time (b : Block) (h : Hub) (f : IoAgent → IoAgent) : (updIo b h f).time = b.time := rfl
@[simp] theorem updIo_freeIx (b : Block) (h : Hub) (f : IoAgent → IoAgent) : (updIo b h f).freeIx = b.freeIx := rfl
@[simp] theorem updIo_harts (b : Block) (h : Hub) (f : IoAgent → IoAgent) : (updIo b h f).harts = b.harts := rfl
@[simp] theorem updIo_dies (b : Block) (h : Hub) (f : IoAgent → IoAgent) : (updIo b h f).dies = b.dies := rfl
@[simp] theorem updIo_links (b : Block) (h : Hub) (f : IoAgent → IoAgent) : (updIo b h f).links = b.links := rfl
@[simp] theorem updIo_slices (b : Block) (h : Hub) (f : IoAgent → IoAgent) : (updIo b h f).slices = b.slices := rfl
@[simp] theorem updIo_chans (b : Block) (h : Hub) (f : IoAgent → IoAgent) : (updIo b h f).chans = b.chans := rfl
@[simp] theorem updIo_spurs (b : Block) (h : Hub) (f : IoAgent → IoAgent) : (updIo b h f).spurs = b.spurs := rfl
@[simp] theorem updIo_movers (b : Block) (h : Hub) (f : IoAgent → IoAgent) : (updIo b h f).movers = b.movers := rfl
@[simp] theorem updIo_tolls (b : Block) (h : Hub) (f : IoAgent → IoAgent) : (updIo b h f).tolls = b.tolls := rfl
@[simp] theorem updIo_inbox (b : Block) (h : Hub) (f : IoAgent → IoAgent) : (updIo b h f).inbox = b.inbox := rfl
@[simp] theorem updIo_reports (b : Block) (h : Hub) (f : IoAgent → IoAgent) : (updIo b h f).reports = b.reports := rfl
@[simp] theorem updIo_mbx (b : Block) (h : Hub) (f : IoAgent → IoAgent) : (updIo b h f).mbx = b.mbx := rfl
@[simp] theorem updIo_objs (b : Block) (h : Hub) (f : IoAgent → IoAgent) : (updIo b h f).objs = b.objs := rfl
@[simp] theorem updIo_evSeq (b : Block) (h : Hub) (f : IoAgent → IoAgent) : (updIo b h f).evSeq = b.evSeq := rfl
@[simp] theorem updIo_evPath (b : Block) (h : Hub) (f : IoAgent → IoAgent) : (updIo b h f).evPath = b.evPath := rfl
@[simp] theorem updIo_rings (b : Block) (h : Hub) (f : IoAgent → IoAgent) : (updIo b h f).rings = b.rings := rfl
@[simp] theorem updIo_lostWrites (b : Block) (h : Hub) (f : IoAgent → IoAgent) : (updIo b h f).lostWrites = b.lostWrites := rfl
@[simp] theorem updIo_pkg (b : Block) (h : Hub) (f : IoAgent → IoAgent) : (updIo b h f).pkg = b.pkg := rfl
@[simp] theorem updIo_power (b : Block) (h : Hub) (f : IoAgent → IoAgent) : (updIo b h f).power = b.power := rfl
@[simp] theorem updIo_wave (b : Block) (h : Hub) (f : IoAgent → IoAgent) : (updIo b h f).wave = b.wave := rfl
@[simp] theorem updIo_outbox (b : Block) (h : Hub) (f : IoAgent → IoAgent) : (updIo b h f).outbox = b.outbox := rfl

@[simp] theorem updSpur_regs (b : Block) (h : Hub) (f : Spur → Spur) : (updSpur b h f).regs = b.regs := rfl
@[simp] theorem updSpur_csrs (b : Block) (h : Hub) (f : Spur → Spur) : (updSpur b h f).csrs = b.csrs := rfl
@[simp] theorem updSpur_coal (b : Block) (h : Hub) (f : Spur → Spur) : (updSpur b h f).coal = b.coal := rfl
@[simp] theorem updSpur_time (b : Block) (h : Hub) (f : Spur → Spur) : (updSpur b h f).time = b.time := rfl
@[simp] theorem updSpur_freeIx (b : Block) (h : Hub) (f : Spur → Spur) : (updSpur b h f).freeIx = b.freeIx := rfl
@[simp] theorem updSpur_harts (b : Block) (h : Hub) (f : Spur → Spur) : (updSpur b h f).harts = b.harts := rfl
@[simp] theorem updSpur_dies (b : Block) (h : Hub) (f : Spur → Spur) : (updSpur b h f).dies = b.dies := rfl
@[simp] theorem updSpur_links (b : Block) (h : Hub) (f : Spur → Spur) : (updSpur b h f).links = b.links := rfl
@[simp] theorem updSpur_slices (b : Block) (h : Hub) (f : Spur → Spur) : (updSpur b h f).slices = b.slices := rfl
@[simp] theorem updSpur_chans (b : Block) (h : Hub) (f : Spur → Spur) : (updSpur b h f).chans = b.chans := rfl
@[simp] theorem updSpur_io (b : Block) (h : Hub) (f : Spur → Spur) : (updSpur b h f).io = b.io := rfl
@[simp] theorem updSpur_movers (b : Block) (h : Hub) (f : Spur → Spur) : (updSpur b h f).movers = b.movers := rfl
@[simp] theorem updSpur_tolls (b : Block) (h : Hub) (f : Spur → Spur) : (updSpur b h f).tolls = b.tolls := rfl
@[simp] theorem updSpur_inbox (b : Block) (h : Hub) (f : Spur → Spur) : (updSpur b h f).inbox = b.inbox := rfl
@[simp] theorem updSpur_reports (b : Block) (h : Hub) (f : Spur → Spur) : (updSpur b h f).reports = b.reports := rfl
@[simp] theorem updSpur_mbx (b : Block) (h : Hub) (f : Spur → Spur) : (updSpur b h f).mbx = b.mbx := rfl
@[simp] theorem updSpur_objs (b : Block) (h : Hub) (f : Spur → Spur) : (updSpur b h f).objs = b.objs := rfl
@[simp] theorem updSpur_evSeq (b : Block) (h : Hub) (f : Spur → Spur) : (updSpur b h f).evSeq = b.evSeq := rfl
@[simp] theorem updSpur_evPath (b : Block) (h : Hub) (f : Spur → Spur) : (updSpur b h f).evPath = b.evPath := rfl
@[simp] theorem updSpur_rings (b : Block) (h : Hub) (f : Spur → Spur) : (updSpur b h f).rings = b.rings := rfl
@[simp] theorem updSpur_lostWrites (b : Block) (h : Hub) (f : Spur → Spur) : (updSpur b h f).lostWrites = b.lostWrites := rfl
@[simp] theorem updSpur_pkg (b : Block) (h : Hub) (f : Spur → Spur) : (updSpur b h f).pkg = b.pkg := rfl
@[simp] theorem updSpur_power (b : Block) (h : Hub) (f : Spur → Spur) : (updSpur b h f).power = b.power := rfl
@[simp] theorem updSpur_wave (b : Block) (h : Hub) (f : Spur → Spur) : (updSpur b h f).wave = b.wave := rfl
@[simp] theorem updSpur_outbox (b : Block) (h : Hub) (f : Spur → Spur) : (updSpur b h f).outbox = b.outbox := rfl

@[simp] theorem updMover_regs (b : Block) (h : Hub) (f : Mover → Mover) : (updMover b h f).regs = b.regs := rfl
@[simp] theorem updMover_csrs (b : Block) (h : Hub) (f : Mover → Mover) : (updMover b h f).csrs = b.csrs := rfl
@[simp] theorem updMover_coal (b : Block) (h : Hub) (f : Mover → Mover) : (updMover b h f).coal = b.coal := rfl
@[simp] theorem updMover_time (b : Block) (h : Hub) (f : Mover → Mover) : (updMover b h f).time = b.time := rfl
@[simp] theorem updMover_freeIx (b : Block) (h : Hub) (f : Mover → Mover) : (updMover b h f).freeIx = b.freeIx := rfl
@[simp] theorem updMover_harts (b : Block) (h : Hub) (f : Mover → Mover) : (updMover b h f).harts = b.harts := rfl
@[simp] theorem updMover_dies (b : Block) (h : Hub) (f : Mover → Mover) : (updMover b h f).dies = b.dies := rfl
@[simp] theorem updMover_links (b : Block) (h : Hub) (f : Mover → Mover) : (updMover b h f).links = b.links := rfl
@[simp] theorem updMover_slices (b : Block) (h : Hub) (f : Mover → Mover) : (updMover b h f).slices = b.slices := rfl
@[simp] theorem updMover_chans (b : Block) (h : Hub) (f : Mover → Mover) : (updMover b h f).chans = b.chans := rfl
@[simp] theorem updMover_io (b : Block) (h : Hub) (f : Mover → Mover) : (updMover b h f).io = b.io := rfl
@[simp] theorem updMover_spurs (b : Block) (h : Hub) (f : Mover → Mover) : (updMover b h f).spurs = b.spurs := rfl
@[simp] theorem updMover_tolls (b : Block) (h : Hub) (f : Mover → Mover) : (updMover b h f).tolls = b.tolls := rfl
@[simp] theorem updMover_inbox (b : Block) (h : Hub) (f : Mover → Mover) : (updMover b h f).inbox = b.inbox := rfl
@[simp] theorem updMover_reports (b : Block) (h : Hub) (f : Mover → Mover) : (updMover b h f).reports = b.reports := rfl
@[simp] theorem updMover_mbx (b : Block) (h : Hub) (f : Mover → Mover) : (updMover b h f).mbx = b.mbx := rfl
@[simp] theorem updMover_objs (b : Block) (h : Hub) (f : Mover → Mover) : (updMover b h f).objs = b.objs := rfl
@[simp] theorem updMover_evSeq (b : Block) (h : Hub) (f : Mover → Mover) : (updMover b h f).evSeq = b.evSeq := rfl
@[simp] theorem updMover_evPath (b : Block) (h : Hub) (f : Mover → Mover) : (updMover b h f).evPath = b.evPath := rfl
@[simp] theorem updMover_rings (b : Block) (h : Hub) (f : Mover → Mover) : (updMover b h f).rings = b.rings := rfl
@[simp] theorem updMover_lostWrites (b : Block) (h : Hub) (f : Mover → Mover) : (updMover b h f).lostWrites = b.lostWrites := rfl
@[simp] theorem updMover_pkg (b : Block) (h : Hub) (f : Mover → Mover) : (updMover b h f).pkg = b.pkg := rfl
@[simp] theorem updMover_power (b : Block) (h : Hub) (f : Mover → Mover) : (updMover b h f).power = b.power := rfl
@[simp] theorem updMover_wave (b : Block) (h : Hub) (f : Mover → Mover) : (updMover b h f).wave = b.wave := rfl
@[simp] theorem updMover_outbox (b : Block) (h : Hub) (f : Mover → Mover) : (updMover b h f).outbox = b.outbox := rfl

@[simp] theorem updTh_regs (b : Block) (h : Hub) (f : Tollhouse → Tollhouse) : (updTh b h f).regs = b.regs := rfl
@[simp] theorem updTh_csrs (b : Block) (h : Hub) (f : Tollhouse → Tollhouse) : (updTh b h f).csrs = b.csrs := rfl
@[simp] theorem updTh_coal (b : Block) (h : Hub) (f : Tollhouse → Tollhouse) : (updTh b h f).coal = b.coal := rfl
@[simp] theorem updTh_time (b : Block) (h : Hub) (f : Tollhouse → Tollhouse) : (updTh b h f).time = b.time := rfl
@[simp] theorem updTh_freeIx (b : Block) (h : Hub) (f : Tollhouse → Tollhouse) : (updTh b h f).freeIx = b.freeIx := rfl
@[simp] theorem updTh_harts (b : Block) (h : Hub) (f : Tollhouse → Tollhouse) : (updTh b h f).harts = b.harts := rfl
@[simp] theorem updTh_dies (b : Block) (h : Hub) (f : Tollhouse → Tollhouse) : (updTh b h f).dies = b.dies := rfl
@[simp] theorem updTh_links (b : Block) (h : Hub) (f : Tollhouse → Tollhouse) : (updTh b h f).links = b.links := rfl
@[simp] theorem updTh_slices (b : Block) (h : Hub) (f : Tollhouse → Tollhouse) : (updTh b h f).slices = b.slices := rfl
@[simp] theorem updTh_chans (b : Block) (h : Hub) (f : Tollhouse → Tollhouse) : (updTh b h f).chans = b.chans := rfl
@[simp] theorem updTh_io (b : Block) (h : Hub) (f : Tollhouse → Tollhouse) : (updTh b h f).io = b.io := rfl
@[simp] theorem updTh_spurs (b : Block) (h : Hub) (f : Tollhouse → Tollhouse) : (updTh b h f).spurs = b.spurs := rfl
@[simp] theorem updTh_movers (b : Block) (h : Hub) (f : Tollhouse → Tollhouse) : (updTh b h f).movers = b.movers := rfl
@[simp] theorem updTh_inbox (b : Block) (h : Hub) (f : Tollhouse → Tollhouse) : (updTh b h f).inbox = b.inbox := rfl
@[simp] theorem updTh_reports (b : Block) (h : Hub) (f : Tollhouse → Tollhouse) : (updTh b h f).reports = b.reports := rfl
@[simp] theorem updTh_mbx (b : Block) (h : Hub) (f : Tollhouse → Tollhouse) : (updTh b h f).mbx = b.mbx := rfl
@[simp] theorem updTh_objs (b : Block) (h : Hub) (f : Tollhouse → Tollhouse) : (updTh b h f).objs = b.objs := rfl
@[simp] theorem updTh_evSeq (b : Block) (h : Hub) (f : Tollhouse → Tollhouse) : (updTh b h f).evSeq = b.evSeq := rfl
@[simp] theorem updTh_evPath (b : Block) (h : Hub) (f : Tollhouse → Tollhouse) : (updTh b h f).evPath = b.evPath := rfl
@[simp] theorem updTh_rings (b : Block) (h : Hub) (f : Tollhouse → Tollhouse) : (updTh b h f).rings = b.rings := rfl
@[simp] theorem updTh_lostWrites (b : Block) (h : Hub) (f : Tollhouse → Tollhouse) : (updTh b h f).lostWrites = b.lostWrites := rfl
@[simp] theorem updTh_pkg (b : Block) (h : Hub) (f : Tollhouse → Tollhouse) : (updTh b h f).pkg = b.pkg := rfl
@[simp] theorem updTh_power (b : Block) (h : Hub) (f : Tollhouse → Tollhouse) : (updTh b h f).power = b.power := rfl
@[simp] theorem updTh_wave (b : Block) (h : Hub) (f : Tollhouse → Tollhouse) : (updTh b h f).wave = b.wave := rfl
@[simp] theorem updTh_outbox (b : Block) (h : Hub) (f : Tollhouse → Tollhouse) : (updTh b h f).outbox = b.outbox := rfl

@[simp] theorem updMbx_regs (b : Block) (m : Nat) (f : Mbx → Mbx) : (updMbx b m f).regs = b.regs := rfl
@[simp] theorem updMbx_csrs (b : Block) (m : Nat) (f : Mbx → Mbx) : (updMbx b m f).csrs = b.csrs := rfl
@[simp] theorem updMbx_coal (b : Block) (m : Nat) (f : Mbx → Mbx) : (updMbx b m f).coal = b.coal := rfl
@[simp] theorem updMbx_time (b : Block) (m : Nat) (f : Mbx → Mbx) : (updMbx b m f).time = b.time := rfl
@[simp] theorem updMbx_freeIx (b : Block) (m : Nat) (f : Mbx → Mbx) : (updMbx b m f).freeIx = b.freeIx := rfl
@[simp] theorem updMbx_harts (b : Block) (m : Nat) (f : Mbx → Mbx) : (updMbx b m f).harts = b.harts := rfl
@[simp] theorem updMbx_dies (b : Block) (m : Nat) (f : Mbx → Mbx) : (updMbx b m f).dies = b.dies := rfl
@[simp] theorem updMbx_links (b : Block) (m : Nat) (f : Mbx → Mbx) : (updMbx b m f).links = b.links := rfl
@[simp] theorem updMbx_slices (b : Block) (m : Nat) (f : Mbx → Mbx) : (updMbx b m f).slices = b.slices := rfl
@[simp] theorem updMbx_chans (b : Block) (m : Nat) (f : Mbx → Mbx) : (updMbx b m f).chans = b.chans := rfl
@[simp] theorem updMbx_io (b : Block) (m : Nat) (f : Mbx → Mbx) : (updMbx b m f).io = b.io := rfl
@[simp] theorem updMbx_spurs (b : Block) (m : Nat) (f : Mbx → Mbx) : (updMbx b m f).spurs = b.spurs := rfl
@[simp] theorem updMbx_movers (b : Block) (m : Nat) (f : Mbx → Mbx) : (updMbx b m f).movers = b.movers := rfl
@[simp] theorem updMbx_tolls (b : Block) (m : Nat) (f : Mbx → Mbx) : (updMbx b m f).tolls = b.tolls := rfl
@[simp] theorem updMbx_inbox (b : Block) (m : Nat) (f : Mbx → Mbx) : (updMbx b m f).inbox = b.inbox := rfl
@[simp] theorem updMbx_reports (b : Block) (m : Nat) (f : Mbx → Mbx) : (updMbx b m f).reports = b.reports := rfl
@[simp] theorem updMbx_objs (b : Block) (m : Nat) (f : Mbx → Mbx) : (updMbx b m f).objs = b.objs := rfl
@[simp] theorem updMbx_evSeq (b : Block) (m : Nat) (f : Mbx → Mbx) : (updMbx b m f).evSeq = b.evSeq := rfl
@[simp] theorem updMbx_evPath (b : Block) (m : Nat) (f : Mbx → Mbx) : (updMbx b m f).evPath = b.evPath := rfl
@[simp] theorem updMbx_rings (b : Block) (m : Nat) (f : Mbx → Mbx) : (updMbx b m f).rings = b.rings := rfl
@[simp] theorem updMbx_lostWrites (b : Block) (m : Nat) (f : Mbx → Mbx) : (updMbx b m f).lostWrites = b.lostWrites := rfl
@[simp] theorem updMbx_pkg (b : Block) (m : Nat) (f : Mbx → Mbx) : (updMbx b m f).pkg = b.pkg := rfl
@[simp] theorem updMbx_power (b : Block) (m : Nat) (f : Mbx → Mbx) : (updMbx b m f).power = b.power := rfl
@[simp] theorem updMbx_wave (b : Block) (m : Nat) (f : Mbx → Mbx) : (updMbx b m f).wave = b.wave := rfl
@[simp] theorem updMbx_outbox (b : Block) (m : Nat) (f : Mbx → Mbx) : (updMbx b m f).outbox = b.outbox := rfl

@[simp] theorem updRing_regs (b : Block) (k : Nat) (f : Ring → Ring) : (updRing b k f).regs = b.regs := rfl
@[simp] theorem updRing_csrs (b : Block) (k : Nat) (f : Ring → Ring) : (updRing b k f).csrs = b.csrs := rfl
@[simp] theorem updRing_coal (b : Block) (k : Nat) (f : Ring → Ring) : (updRing b k f).coal = b.coal := rfl
@[simp] theorem updRing_time (b : Block) (k : Nat) (f : Ring → Ring) : (updRing b k f).time = b.time := rfl
@[simp] theorem updRing_freeIx (b : Block) (k : Nat) (f : Ring → Ring) : (updRing b k f).freeIx = b.freeIx := rfl
@[simp] theorem updRing_harts (b : Block) (k : Nat) (f : Ring → Ring) : (updRing b k f).harts = b.harts := rfl
@[simp] theorem updRing_dies (b : Block) (k : Nat) (f : Ring → Ring) : (updRing b k f).dies = b.dies := rfl
@[simp] theorem updRing_links (b : Block) (k : Nat) (f : Ring → Ring) : (updRing b k f).links = b.links := rfl
@[simp] theorem updRing_slices (b : Block) (k : Nat) (f : Ring → Ring) : (updRing b k f).slices = b.slices := rfl
@[simp] theorem updRing_chans (b : Block) (k : Nat) (f : Ring → Ring) : (updRing b k f).chans = b.chans := rfl
@[simp] theorem updRing_io (b : Block) (k : Nat) (f : Ring → Ring) : (updRing b k f).io = b.io := rfl
@[simp] theorem updRing_spurs (b : Block) (k : Nat) (f : Ring → Ring) : (updRing b k f).spurs = b.spurs := rfl
@[simp] theorem updRing_movers (b : Block) (k : Nat) (f : Ring → Ring) : (updRing b k f).movers = b.movers := rfl
@[simp] theorem updRing_tolls (b : Block) (k : Nat) (f : Ring → Ring) : (updRing b k f).tolls = b.tolls := rfl
@[simp] theorem updRing_inbox (b : Block) (k : Nat) (f : Ring → Ring) : (updRing b k f).inbox = b.inbox := rfl
@[simp] theorem updRing_reports (b : Block) (k : Nat) (f : Ring → Ring) : (updRing b k f).reports = b.reports := rfl
@[simp] theorem updRing_mbx (b : Block) (k : Nat) (f : Ring → Ring) : (updRing b k f).mbx = b.mbx := rfl
@[simp] theorem updRing_objs (b : Block) (k : Nat) (f : Ring → Ring) : (updRing b k f).objs = b.objs := rfl
@[simp] theorem updRing_evSeq (b : Block) (k : Nat) (f : Ring → Ring) : (updRing b k f).evSeq = b.evSeq := rfl
@[simp] theorem updRing_evPath (b : Block) (k : Nat) (f : Ring → Ring) : (updRing b k f).evPath = b.evPath := rfl
@[simp] theorem updRing_lostWrites (b : Block) (k : Nat) (f : Ring → Ring) : (updRing b k f).lostWrites = b.lostWrites := rfl
@[simp] theorem updRing_pkg (b : Block) (k : Nat) (f : Ring → Ring) : (updRing b k f).pkg = b.pkg := rfl
@[simp] theorem updRing_power (b : Block) (k : Nat) (f : Ring → Ring) : (updRing b k f).power = b.power := rfl
@[simp] theorem updRing_wave (b : Block) (k : Nat) (f : Ring → Ring) : (updRing b k f).wave = b.wave := rfl
@[simp] theorem updRing_outbox (b : Block) (k : Nat) (f : Ring → Ring) : (updRing b k f).outbox = b.outbox := rfl

@[simp] theorem updChanDm_regs (b : Block) (h : Hub) (n : Nat) (f : DmChan → DmChan) : (updChanDm b h n f).regs = b.regs := rfl
@[simp] theorem updChanDm_csrs (b : Block) (h : Hub) (n : Nat) (f : DmChan → DmChan) : (updChanDm b h n f).csrs = b.csrs := rfl
@[simp] theorem updChanDm_coal (b : Block) (h : Hub) (n : Nat) (f : DmChan → DmChan) : (updChanDm b h n f).coal = b.coal := rfl
@[simp] theorem updChanDm_time (b : Block) (h : Hub) (n : Nat) (f : DmChan → DmChan) : (updChanDm b h n f).time = b.time := rfl
@[simp] theorem updChanDm_freeIx (b : Block) (h : Hub) (n : Nat) (f : DmChan → DmChan) : (updChanDm b h n f).freeIx = b.freeIx := rfl
@[simp] theorem updChanDm_harts (b : Block) (h : Hub) (n : Nat) (f : DmChan → DmChan) : (updChanDm b h n f).harts = b.harts := rfl
@[simp] theorem updChanDm_dies (b : Block) (h : Hub) (n : Nat) (f : DmChan → DmChan) : (updChanDm b h n f).dies = b.dies := rfl
@[simp] theorem updChanDm_links (b : Block) (h : Hub) (n : Nat) (f : DmChan → DmChan) : (updChanDm b h n f).links = b.links := rfl
@[simp] theorem updChanDm_slices (b : Block) (h : Hub) (n : Nat) (f : DmChan → DmChan) : (updChanDm b h n f).slices = b.slices := rfl
@[simp] theorem updChanDm_chans (b : Block) (h : Hub) (n : Nat) (f : DmChan → DmChan) : (updChanDm b h n f).chans = b.chans := rfl
@[simp] theorem updChanDm_io (b : Block) (h : Hub) (n : Nat) (f : DmChan → DmChan) : (updChanDm b h n f).io = b.io := rfl
@[simp] theorem updChanDm_spurs (b : Block) (h : Hub) (n : Nat) (f : DmChan → DmChan) : (updChanDm b h n f).spurs = b.spurs := rfl
@[simp] theorem updChanDm_tolls (b : Block) (h : Hub) (n : Nat) (f : DmChan → DmChan) : (updChanDm b h n f).tolls = b.tolls := rfl
@[simp] theorem updChanDm_inbox (b : Block) (h : Hub) (n : Nat) (f : DmChan → DmChan) : (updChanDm b h n f).inbox = b.inbox := rfl
@[simp] theorem updChanDm_reports (b : Block) (h : Hub) (n : Nat) (f : DmChan → DmChan) : (updChanDm b h n f).reports = b.reports := rfl
@[simp] theorem updChanDm_mbx (b : Block) (h : Hub) (n : Nat) (f : DmChan → DmChan) : (updChanDm b h n f).mbx = b.mbx := rfl
@[simp] theorem updChanDm_objs (b : Block) (h : Hub) (n : Nat) (f : DmChan → DmChan) : (updChanDm b h n f).objs = b.objs := rfl
@[simp] theorem updChanDm_evSeq (b : Block) (h : Hub) (n : Nat) (f : DmChan → DmChan) : (updChanDm b h n f).evSeq = b.evSeq := rfl
@[simp] theorem updChanDm_evPath (b : Block) (h : Hub) (n : Nat) (f : DmChan → DmChan) : (updChanDm b h n f).evPath = b.evPath := rfl
@[simp] theorem updChanDm_rings (b : Block) (h : Hub) (n : Nat) (f : DmChan → DmChan) : (updChanDm b h n f).rings = b.rings := rfl
@[simp] theorem updChanDm_lostWrites (b : Block) (h : Hub) (n : Nat) (f : DmChan → DmChan) : (updChanDm b h n f).lostWrites = b.lostWrites := rfl
@[simp] theorem updChanDm_pkg (b : Block) (h : Hub) (n : Nat) (f : DmChan → DmChan) : (updChanDm b h n f).pkg = b.pkg := rfl
@[simp] theorem updChanDm_power (b : Block) (h : Hub) (n : Nat) (f : DmChan → DmChan) : (updChanDm b h n f).power = b.power := rfl
@[simp] theorem updChanDm_wave (b : Block) (h : Hub) (n : Nat) (f : DmChan → DmChan) : (updChanDm b h n f).wave = b.wave := rfl
@[simp] theorem updChanDm_outbox (b : Block) (h : Hub) (n : Nat) (f : DmChan → DmChan) : (updChanDm b h n f).outbox = b.outbox := rfl

@[simp] theorem updPort_regs (b : Block) (h : Hub) (p : Nat) (f : Port → Port) : (updPort b h p f).regs = b.regs := rfl
@[simp] theorem updPort_csrs (b : Block) (h : Hub) (p : Nat) (f : Port → Port) : (updPort b h p f).csrs = b.csrs := rfl
@[simp] theorem updPort_coal (b : Block) (h : Hub) (p : Nat) (f : Port → Port) : (updPort b h p f).coal = b.coal := rfl
@[simp] theorem updPort_time (b : Block) (h : Hub) (p : Nat) (f : Port → Port) : (updPort b h p f).time = b.time := rfl
@[simp] theorem updPort_freeIx (b : Block) (h : Hub) (p : Nat) (f : Port → Port) : (updPort b h p f).freeIx = b.freeIx := rfl
@[simp] theorem updPort_harts (b : Block) (h : Hub) (p : Nat) (f : Port → Port) : (updPort b h p f).harts = b.harts := rfl
@[simp] theorem updPort_dies (b : Block) (h : Hub) (p : Nat) (f : Port → Port) : (updPort b h p f).dies = b.dies := rfl
@[simp] theorem updPort_links (b : Block) (h : Hub) (p : Nat) (f : Port → Port) : (updPort b h p f).links = b.links := rfl
@[simp] theorem updPort_slices (b : Block) (h : Hub) (p : Nat) (f : Port → Port) : (updPort b h p f).slices = b.slices := rfl
@[simp] theorem updPort_chans (b : Block) (h : Hub) (p : Nat) (f : Port → Port) : (updPort b h p f).chans = b.chans := rfl
@[simp] theorem updPort_spurs (b : Block) (h : Hub) (p : Nat) (f : Port → Port) : (updPort b h p f).spurs = b.spurs := rfl
@[simp] theorem updPort_movers (b : Block) (h : Hub) (p : Nat) (f : Port → Port) : (updPort b h p f).movers = b.movers := rfl
@[simp] theorem updPort_tolls (b : Block) (h : Hub) (p : Nat) (f : Port → Port) : (updPort b h p f).tolls = b.tolls := rfl
@[simp] theorem updPort_inbox (b : Block) (h : Hub) (p : Nat) (f : Port → Port) : (updPort b h p f).inbox = b.inbox := rfl
@[simp] theorem updPort_reports (b : Block) (h : Hub) (p : Nat) (f : Port → Port) : (updPort b h p f).reports = b.reports := rfl
@[simp] theorem updPort_mbx (b : Block) (h : Hub) (p : Nat) (f : Port → Port) : (updPort b h p f).mbx = b.mbx := rfl
@[simp] theorem updPort_objs (b : Block) (h : Hub) (p : Nat) (f : Port → Port) : (updPort b h p f).objs = b.objs := rfl
@[simp] theorem updPort_evSeq (b : Block) (h : Hub) (p : Nat) (f : Port → Port) : (updPort b h p f).evSeq = b.evSeq := rfl
@[simp] theorem updPort_evPath (b : Block) (h : Hub) (p : Nat) (f : Port → Port) : (updPort b h p f).evPath = b.evPath := rfl
@[simp] theorem updPort_rings (b : Block) (h : Hub) (p : Nat) (f : Port → Port) : (updPort b h p f).rings = b.rings := rfl
@[simp] theorem updPort_lostWrites (b : Block) (h : Hub) (p : Nat) (f : Port → Port) : (updPort b h p f).lostWrites = b.lostWrites := rfl
@[simp] theorem updPort_pkg (b : Block) (h : Hub) (p : Nat) (f : Port → Port) : (updPort b h p f).pkg = b.pkg := rfl
@[simp] theorem updPort_power (b : Block) (h : Hub) (p : Nat) (f : Port → Port) : (updPort b h p f).power = b.power := rfl
@[simp] theorem updPort_wave (b : Block) (h : Hub) (p : Nat) (f : Port → Port) : (updPort b h p f).wave = b.wave := rfl
@[simp] theorem updPort_outbox (b : Block) (h : Hub) (p : Nat) (f : Port → Port) : (updPort b h p f).outbox = b.outbox := rfl

@[simp] theorem emit_regs (b : Block) (o : Out) : (emit b o).regs = b.regs := rfl
@[simp] theorem emit_csrs (b : Block) (o : Out) : (emit b o).csrs = b.csrs := rfl
@[simp] theorem emit_coal (b : Block) (o : Out) : (emit b o).coal = b.coal := rfl
@[simp] theorem emit_time (b : Block) (o : Out) : (emit b o).time = b.time := rfl
@[simp] theorem emit_freeIx (b : Block) (o : Out) : (emit b o).freeIx = b.freeIx := rfl
@[simp] theorem emit_harts (b : Block) (o : Out) : (emit b o).harts = b.harts := rfl
@[simp] theorem emit_dies (b : Block) (o : Out) : (emit b o).dies = b.dies := rfl
@[simp] theorem emit_links (b : Block) (o : Out) : (emit b o).links = b.links := rfl
@[simp] theorem emit_slices (b : Block) (o : Out) : (emit b o).slices = b.slices := rfl
@[simp] theorem emit_chans (b : Block) (o : Out) : (emit b o).chans = b.chans := rfl
@[simp] theorem emit_io (b : Block) (o : Out) : (emit b o).io = b.io := rfl
@[simp] theorem emit_spurs (b : Block) (o : Out) : (emit b o).spurs = b.spurs := rfl
@[simp] theorem emit_movers (b : Block) (o : Out) : (emit b o).movers = b.movers := rfl
@[simp] theorem emit_tolls (b : Block) (o : Out) : (emit b o).tolls = b.tolls := rfl
@[simp] theorem emit_inbox (b : Block) (o : Out) : (emit b o).inbox = b.inbox := rfl
@[simp] theorem emit_reports (b : Block) (o : Out) : (emit b o).reports = b.reports := rfl
@[simp] theorem emit_mbx (b : Block) (o : Out) : (emit b o).mbx = b.mbx := rfl
@[simp] theorem emit_objs (b : Block) (o : Out) : (emit b o).objs = b.objs := rfl
@[simp] theorem emit_evSeq (b : Block) (o : Out) : (emit b o).evSeq = b.evSeq := rfl
@[simp] theorem emit_evPath (b : Block) (o : Out) : (emit b o).evPath = b.evPath := rfl
@[simp] theorem emit_rings (b : Block) (o : Out) : (emit b o).rings = b.rings := rfl
@[simp] theorem emit_lostWrites (b : Block) (o : Out) : (emit b o).lostWrites = b.lostWrites := rfl
@[simp] theorem emit_pkg (b : Block) (o : Out) : (emit b o).pkg = b.pkg := rfl
@[simp] theorem emit_power (b : Block) (o : Out) : (emit b o).power = b.power := rfl
@[simp] theorem emit_wave (b : Block) (o : Out) : (emit b o).wave = b.wave := rfl

@[simp] theorem putBox_regs (b : Block) (k vc : Nat) (l : List Msg) : (putBox b k vc l).regs = b.regs := rfl
@[simp] theorem putBox_csrs (b : Block) (k vc : Nat) (l : List Msg) : (putBox b k vc l).csrs = b.csrs := rfl
@[simp] theorem putBox_coal (b : Block) (k vc : Nat) (l : List Msg) : (putBox b k vc l).coal = b.coal := rfl
@[simp] theorem putBox_time (b : Block) (k vc : Nat) (l : List Msg) : (putBox b k vc l).time = b.time := rfl
@[simp] theorem putBox_freeIx (b : Block) (k vc : Nat) (l : List Msg) : (putBox b k vc l).freeIx = b.freeIx := rfl
@[simp] theorem putBox_harts (b : Block) (k vc : Nat) (l : List Msg) : (putBox b k vc l).harts = b.harts := rfl
@[simp] theorem putBox_dies (b : Block) (k vc : Nat) (l : List Msg) : (putBox b k vc l).dies = b.dies := rfl
@[simp] theorem putBox_links (b : Block) (k vc : Nat) (l : List Msg) : (putBox b k vc l).links = b.links := rfl
@[simp] theorem putBox_slices (b : Block) (k vc : Nat) (l : List Msg) : (putBox b k vc l).slices = b.slices := rfl
@[simp] theorem putBox_chans (b : Block) (k vc : Nat) (l : List Msg) : (putBox b k vc l).chans = b.chans := rfl
@[simp] theorem putBox_io (b : Block) (k vc : Nat) (l : List Msg) : (putBox b k vc l).io = b.io := rfl
@[simp] theorem putBox_spurs (b : Block) (k vc : Nat) (l : List Msg) : (putBox b k vc l).spurs = b.spurs := rfl
@[simp] theorem putBox_movers (b : Block) (k vc : Nat) (l : List Msg) : (putBox b k vc l).movers = b.movers := rfl
@[simp] theorem putBox_tolls (b : Block) (k vc : Nat) (l : List Msg) : (putBox b k vc l).tolls = b.tolls := rfl
@[simp] theorem putBox_reports (b : Block) (k vc : Nat) (l : List Msg) : (putBox b k vc l).reports = b.reports := rfl
@[simp] theorem putBox_mbx (b : Block) (k vc : Nat) (l : List Msg) : (putBox b k vc l).mbx = b.mbx := rfl
@[simp] theorem putBox_objs (b : Block) (k vc : Nat) (l : List Msg) : (putBox b k vc l).objs = b.objs := rfl
@[simp] theorem putBox_evSeq (b : Block) (k vc : Nat) (l : List Msg) : (putBox b k vc l).evSeq = b.evSeq := rfl
@[simp] theorem putBox_evPath (b : Block) (k vc : Nat) (l : List Msg) : (putBox b k vc l).evPath = b.evPath := rfl
@[simp] theorem putBox_rings (b : Block) (k vc : Nat) (l : List Msg) : (putBox b k vc l).rings = b.rings := rfl
@[simp] theorem putBox_lostWrites (b : Block) (k vc : Nat) (l : List Msg) : (putBox b k vc l).lostWrites = b.lostWrites := rfl
@[simp] theorem putBox_pkg (b : Block) (k vc : Nat) (l : List Msg) : (putBox b k vc l).pkg = b.pkg := rfl
@[simp] theorem putBox_power (b : Block) (k vc : Nat) (l : List Msg) : (putBox b k vc l).power = b.power := rfl
@[simp] theorem putBox_wave (b : Block) (k vc : Nat) (l : List Msg) : (putBox b k vc l).wave = b.wave := rfl
@[simp] theorem putBox_outbox (b : Block) (k vc : Nat) (l : List Msg) : (putBox b k vc l).outbox = b.outbox := rfl

@[simp] theorem pushBox_regs (b : Block) (k : Nat) (m : Msg) : (pushBox b k m).regs = b.regs := rfl
@[simp] theorem pushBox_csrs (b : Block) (k : Nat) (m : Msg) : (pushBox b k m).csrs = b.csrs := rfl
@[simp] theorem pushBox_coal (b : Block) (k : Nat) (m : Msg) : (pushBox b k m).coal = b.coal := rfl
@[simp] theorem pushBox_time (b : Block) (k : Nat) (m : Msg) : (pushBox b k m).time = b.time := rfl
@[simp] theorem pushBox_freeIx (b : Block) (k : Nat) (m : Msg) : (pushBox b k m).freeIx = b.freeIx := rfl
@[simp] theorem pushBox_harts (b : Block) (k : Nat) (m : Msg) : (pushBox b k m).harts = b.harts := rfl
@[simp] theorem pushBox_dies (b : Block) (k : Nat) (m : Msg) : (pushBox b k m).dies = b.dies := rfl
@[simp] theorem pushBox_links (b : Block) (k : Nat) (m : Msg) : (pushBox b k m).links = b.links := rfl
@[simp] theorem pushBox_slices (b : Block) (k : Nat) (m : Msg) : (pushBox b k m).slices = b.slices := rfl
@[simp] theorem pushBox_chans (b : Block) (k : Nat) (m : Msg) : (pushBox b k m).chans = b.chans := rfl
@[simp] theorem pushBox_io (b : Block) (k : Nat) (m : Msg) : (pushBox b k m).io = b.io := rfl
@[simp] theorem pushBox_spurs (b : Block) (k : Nat) (m : Msg) : (pushBox b k m).spurs = b.spurs := rfl
@[simp] theorem pushBox_movers (b : Block) (k : Nat) (m : Msg) : (pushBox b k m).movers = b.movers := rfl
@[simp] theorem pushBox_tolls (b : Block) (k : Nat) (m : Msg) : (pushBox b k m).tolls = b.tolls := rfl
@[simp] theorem pushBox_reports (b : Block) (k : Nat) (m : Msg) : (pushBox b k m).reports = b.reports := rfl
@[simp] theorem pushBox_mbx (b : Block) (k : Nat) (m : Msg) : (pushBox b k m).mbx = b.mbx := rfl
@[simp] theorem pushBox_objs (b : Block) (k : Nat) (m : Msg) : (pushBox b k m).objs = b.objs := rfl
@[simp] theorem pushBox_evSeq (b : Block) (k : Nat) (m : Msg) : (pushBox b k m).evSeq = b.evSeq := rfl
@[simp] theorem pushBox_evPath (b : Block) (k : Nat) (m : Msg) : (pushBox b k m).evPath = b.evPath := rfl
@[simp] theorem pushBox_rings (b : Block) (k : Nat) (m : Msg) : (pushBox b k m).rings = b.rings := rfl
@[simp] theorem pushBox_lostWrites (b : Block) (k : Nat) (m : Msg) : (pushBox b k m).lostWrites = b.lostWrites := rfl
@[simp] theorem pushBox_pkg (b : Block) (k : Nat) (m : Msg) : (pushBox b k m).pkg = b.pkg := rfl
@[simp] theorem pushBox_power (b : Block) (k : Nat) (m : Msg) : (pushBox b k m).power = b.power := rfl
@[simp] theorem pushBox_wave (b : Block) (k : Nat) (m : Msg) : (pushBox b k m).wave = b.wave := rfl
@[simp] theorem pushBox_outbox (b : Block) (k : Nat) (m : Msg) : (pushBox b k m).outbox = b.outbox := rfl

@[simp] theorem wr_csrs (b : Block) (o v : Nat) : (wr b o v).csrs = b.csrs := rfl
@[simp] theorem wr_coal (b : Block) (o v : Nat) : (wr b o v).coal = b.coal := rfl
@[simp] theorem wr_time (b : Block) (o v : Nat) : (wr b o v).time = b.time := rfl
@[simp] theorem wr_freeIx (b : Block) (o v : Nat) : (wr b o v).freeIx = b.freeIx := rfl
@[simp] theorem wr_harts (b : Block) (o v : Nat) : (wr b o v).harts = b.harts := rfl
@[simp] theorem wr_dies (b : Block) (o v : Nat) : (wr b o v).dies = b.dies := rfl
@[simp] theorem wr_links (b : Block) (o v : Nat) : (wr b o v).links = b.links := rfl
@[simp] theorem wr_slices (b : Block) (o v : Nat) : (wr b o v).slices = b.slices := rfl
@[simp] theorem wr_chans (b : Block) (o v : Nat) : (wr b o v).chans = b.chans := rfl
@[simp] theorem wr_io (b : Block) (o v : Nat) : (wr b o v).io = b.io := rfl
@[simp] theorem wr_spurs (b : Block) (o v : Nat) : (wr b o v).spurs = b.spurs := rfl
@[simp] theorem wr_movers (b : Block) (o v : Nat) : (wr b o v).movers = b.movers := rfl
@[simp] theorem wr_tolls (b : Block) (o v : Nat) : (wr b o v).tolls = b.tolls := rfl
@[simp] theorem wr_inbox (b : Block) (o v : Nat) : (wr b o v).inbox = b.inbox := rfl
@[simp] theorem wr_reports (b : Block) (o v : Nat) : (wr b o v).reports = b.reports := rfl
@[simp] theorem wr_mbx (b : Block) (o v : Nat) : (wr b o v).mbx = b.mbx := rfl
@[simp] theorem wr_objs (b : Block) (o v : Nat) : (wr b o v).objs = b.objs := rfl
@[simp] theorem wr_evSeq (b : Block) (o v : Nat) : (wr b o v).evSeq = b.evSeq := rfl
@[simp] theorem wr_evPath (b : Block) (o v : Nat) : (wr b o v).evPath = b.evPath := rfl
@[simp] theorem wr_rings (b : Block) (o v : Nat) : (wr b o v).rings = b.rings := rfl
@[simp] theorem wr_lostWrites (b : Block) (o v : Nat) : (wr b o v).lostWrites = b.lostWrites := rfl
@[simp] theorem wr_pkg (b : Block) (o v : Nat) : (wr b o v).pkg = b.pkg := rfl
@[simp] theorem wr_power (b : Block) (o v : Nat) : (wr b o v).power = b.power := rfl
@[simp] theorem wr_wave (b : Block) (o v : Nat) : (wr b o v).wave = b.wave := rfl
@[simp] theorem wr_outbox (b : Block) (o v : Nat) : (wr b o v).outbox = b.outbox := rfl

@[simp] theorem fset_csrs (b : Block) (o : Nat) (f : Fld) (v : Nat) : (fset b o f v).csrs = b.csrs := rfl
@[simp] theorem fset_coal (b : Block) (o : Nat) (f : Fld) (v : Nat) : (fset b o f v).coal = b.coal := rfl
@[simp] theorem fset_time (b : Block) (o : Nat) (f : Fld) (v : Nat) : (fset b o f v).time = b.time := rfl
@[simp] theorem fset_freeIx (b : Block) (o : Nat) (f : Fld) (v : Nat) : (fset b o f v).freeIx = b.freeIx := rfl
@[simp] theorem fset_harts (b : Block) (o : Nat) (f : Fld) (v : Nat) : (fset b o f v).harts = b.harts := rfl
@[simp] theorem fset_dies (b : Block) (o : Nat) (f : Fld) (v : Nat) : (fset b o f v).dies = b.dies := rfl
@[simp] theorem fset_links (b : Block) (o : Nat) (f : Fld) (v : Nat) : (fset b o f v).links = b.links := rfl
@[simp] theorem fset_slices (b : Block) (o : Nat) (f : Fld) (v : Nat) : (fset b o f v).slices = b.slices := rfl
@[simp] theorem fset_chans (b : Block) (o : Nat) (f : Fld) (v : Nat) : (fset b o f v).chans = b.chans := rfl
@[simp] theorem fset_io (b : Block) (o : Nat) (f : Fld) (v : Nat) : (fset b o f v).io = b.io := rfl
@[simp] theorem fset_spurs (b : Block) (o : Nat) (f : Fld) (v : Nat) : (fset b o f v).spurs = b.spurs := rfl
@[simp] theorem fset_movers (b : Block) (o : Nat) (f : Fld) (v : Nat) : (fset b o f v).movers = b.movers := rfl
@[simp] theorem fset_tolls (b : Block) (o : Nat) (f : Fld) (v : Nat) : (fset b o f v).tolls = b.tolls := rfl
@[simp] theorem fset_inbox (b : Block) (o : Nat) (f : Fld) (v : Nat) : (fset b o f v).inbox = b.inbox := rfl
@[simp] theorem fset_reports (b : Block) (o : Nat) (f : Fld) (v : Nat) : (fset b o f v).reports = b.reports := rfl
@[simp] theorem fset_mbx (b : Block) (o : Nat) (f : Fld) (v : Nat) : (fset b o f v).mbx = b.mbx := rfl
@[simp] theorem fset_objs (b : Block) (o : Nat) (f : Fld) (v : Nat) : (fset b o f v).objs = b.objs := rfl
@[simp] theorem fset_evSeq (b : Block) (o : Nat) (f : Fld) (v : Nat) : (fset b o f v).evSeq = b.evSeq := rfl
@[simp] theorem fset_evPath (b : Block) (o : Nat) (f : Fld) (v : Nat) : (fset b o f v).evPath = b.evPath := rfl
@[simp] theorem fset_rings (b : Block) (o : Nat) (f : Fld) (v : Nat) : (fset b o f v).rings = b.rings := rfl
@[simp] theorem fset_lostWrites (b : Block) (o : Nat) (f : Fld) (v : Nat) : (fset b o f v).lostWrites = b.lostWrites := rfl
@[simp] theorem fset_pkg (b : Block) (o : Nat) (f : Fld) (v : Nat) : (fset b o f v).pkg = b.pkg := rfl
@[simp] theorem fset_power (b : Block) (o : Nat) (f : Fld) (v : Nat) : (fset b o f v).power = b.power := rfl
@[simp] theorem fset_wave (b : Block) (o : Nat) (f : Fld) (v : Nat) : (fset b o f v).wave = b.wave := rfl
@[simp] theorem fset_outbox (b : Block) (o : Nat) (f : Fld) (v : Nat) : (fset b o f v).outbox = b.outbox := rfl

@[simp] theorem wrCsr_regs (b : Block) (i n v : Nat) : (wrCsr b i n v).regs = b.regs := rfl
@[simp] theorem wrCsr_coal (b : Block) (i n v : Nat) : (wrCsr b i n v).coal = b.coal := rfl
@[simp] theorem wrCsr_time (b : Block) (i n v : Nat) : (wrCsr b i n v).time = b.time := rfl
@[simp] theorem wrCsr_freeIx (b : Block) (i n v : Nat) : (wrCsr b i n v).freeIx = b.freeIx := rfl
@[simp] theorem wrCsr_harts (b : Block) (i n v : Nat) : (wrCsr b i n v).harts = b.harts := rfl
@[simp] theorem wrCsr_dies (b : Block) (i n v : Nat) : (wrCsr b i n v).dies = b.dies := rfl
@[simp] theorem wrCsr_links (b : Block) (i n v : Nat) : (wrCsr b i n v).links = b.links := rfl
@[simp] theorem wrCsr_slices (b : Block) (i n v : Nat) : (wrCsr b i n v).slices = b.slices := rfl
@[simp] theorem wrCsr_chans (b : Block) (i n v : Nat) : (wrCsr b i n v).chans = b.chans := rfl
@[simp] theorem wrCsr_io (b : Block) (i n v : Nat) : (wrCsr b i n v).io = b.io := rfl
@[simp] theorem wrCsr_spurs (b : Block) (i n v : Nat) : (wrCsr b i n v).spurs = b.spurs := rfl
@[simp] theorem wrCsr_movers (b : Block) (i n v : Nat) : (wrCsr b i n v).movers = b.movers := rfl
@[simp] theorem wrCsr_tolls (b : Block) (i n v : Nat) : (wrCsr b i n v).tolls = b.tolls := rfl
@[simp] theorem wrCsr_inbox (b : Block) (i n v : Nat) : (wrCsr b i n v).inbox = b.inbox := rfl
@[simp] theorem wrCsr_reports (b : Block) (i n v : Nat) : (wrCsr b i n v).reports = b.reports := rfl
@[simp] theorem wrCsr_mbx (b : Block) (i n v : Nat) : (wrCsr b i n v).mbx = b.mbx := rfl
@[simp] theorem wrCsr_objs (b : Block) (i n v : Nat) : (wrCsr b i n v).objs = b.objs := rfl
@[simp] theorem wrCsr_evSeq (b : Block) (i n v : Nat) : (wrCsr b i n v).evSeq = b.evSeq := rfl
@[simp] theorem wrCsr_evPath (b : Block) (i n v : Nat) : (wrCsr b i n v).evPath = b.evPath := rfl
@[simp] theorem wrCsr_rings (b : Block) (i n v : Nat) : (wrCsr b i n v).rings = b.rings := rfl
@[simp] theorem wrCsr_lostWrites (b : Block) (i n v : Nat) : (wrCsr b i n v).lostWrites = b.lostWrites := rfl
@[simp] theorem wrCsr_pkg (b : Block) (i n v : Nat) : (wrCsr b i n v).pkg = b.pkg := rfl
@[simp] theorem wrCsr_power (b : Block) (i n v : Nat) : (wrCsr b i n v).power = b.power := rfl
@[simp] theorem wrCsr_wave (b : Block) (i n v : Nat) : (wrCsr b i n v).wave = b.wave := rfl
@[simp] theorem wrCsr_outbox (b : Block) (i n v : Nat) : (wrCsr b i n v).outbox = b.outbox := rfl

@[simp] theorem cset_regs (b : Block) (i n : Nat) (f : Fld) (v : Nat) : (cset b i n f v).regs = b.regs := rfl
@[simp] theorem cset_coal (b : Block) (i n : Nat) (f : Fld) (v : Nat) : (cset b i n f v).coal = b.coal := rfl
@[simp] theorem cset_time (b : Block) (i n : Nat) (f : Fld) (v : Nat) : (cset b i n f v).time = b.time := rfl
@[simp] theorem cset_freeIx (b : Block) (i n : Nat) (f : Fld) (v : Nat) : (cset b i n f v).freeIx = b.freeIx := rfl
@[simp] theorem cset_harts (b : Block) (i n : Nat) (f : Fld) (v : Nat) : (cset b i n f v).harts = b.harts := rfl
@[simp] theorem cset_dies (b : Block) (i n : Nat) (f : Fld) (v : Nat) : (cset b i n f v).dies = b.dies := rfl
@[simp] theorem cset_links (b : Block) (i n : Nat) (f : Fld) (v : Nat) : (cset b i n f v).links = b.links := rfl
@[simp] theorem cset_slices (b : Block) (i n : Nat) (f : Fld) (v : Nat) : (cset b i n f v).slices = b.slices := rfl
@[simp] theorem cset_chans (b : Block) (i n : Nat) (f : Fld) (v : Nat) : (cset b i n f v).chans = b.chans := rfl
@[simp] theorem cset_io (b : Block) (i n : Nat) (f : Fld) (v : Nat) : (cset b i n f v).io = b.io := rfl
@[simp] theorem cset_spurs (b : Block) (i n : Nat) (f : Fld) (v : Nat) : (cset b i n f v).spurs = b.spurs := rfl
@[simp] theorem cset_movers (b : Block) (i n : Nat) (f : Fld) (v : Nat) : (cset b i n f v).movers = b.movers := rfl
@[simp] theorem cset_tolls (b : Block) (i n : Nat) (f : Fld) (v : Nat) : (cset b i n f v).tolls = b.tolls := rfl
@[simp] theorem cset_inbox (b : Block) (i n : Nat) (f : Fld) (v : Nat) : (cset b i n f v).inbox = b.inbox := rfl
@[simp] theorem cset_reports (b : Block) (i n : Nat) (f : Fld) (v : Nat) : (cset b i n f v).reports = b.reports := rfl
@[simp] theorem cset_mbx (b : Block) (i n : Nat) (f : Fld) (v : Nat) : (cset b i n f v).mbx = b.mbx := rfl
@[simp] theorem cset_objs (b : Block) (i n : Nat) (f : Fld) (v : Nat) : (cset b i n f v).objs = b.objs := rfl
@[simp] theorem cset_evSeq (b : Block) (i n : Nat) (f : Fld) (v : Nat) : (cset b i n f v).evSeq = b.evSeq := rfl
@[simp] theorem cset_evPath (b : Block) (i n : Nat) (f : Fld) (v : Nat) : (cset b i n f v).evPath = b.evPath := rfl
@[simp] theorem cset_rings (b : Block) (i n : Nat) (f : Fld) (v : Nat) : (cset b i n f v).rings = b.rings := rfl
@[simp] theorem cset_lostWrites (b : Block) (i n : Nat) (f : Fld) (v : Nat) : (cset b i n f v).lostWrites = b.lostWrites := rfl
@[simp] theorem cset_pkg (b : Block) (i n : Nat) (f : Fld) (v : Nat) : (cset b i n f v).pkg = b.pkg := rfl
@[simp] theorem cset_power (b : Block) (i n : Nat) (f : Fld) (v : Nat) : (cset b i n f v).power = b.power := rfl
@[simp] theorem cset_wave (b : Block) (i n : Nat) (f : Fld) (v : Nat) : (cset b i n f v).wave = b.wave := rfl
@[simp] theorem cset_outbox (b : Block) (i n : Nat) (f : Fld) (v : Nat) : (cset b i n f v).outbox = b.outbox := rfl

@[simp] theorem setPower_regs (b : Block) (f : Power → Power) : (setPower b f).regs = b.regs := rfl
@[simp] theorem setPower_csrs (b : Block) (f : Power → Power) : (setPower b f).csrs = b.csrs := rfl
@[simp] theorem setPower_coal (b : Block) (f : Power → Power) : (setPower b f).coal = b.coal := rfl
@[simp] theorem setPower_time (b : Block) (f : Power → Power) : (setPower b f).time = b.time := rfl
@[simp] theorem setPower_freeIx (b : Block) (f : Power → Power) : (setPower b f).freeIx = b.freeIx := rfl
@[simp] theorem setPower_harts (b : Block) (f : Power → Power) : (setPower b f).harts = b.harts := rfl
@[simp] theorem setPower_dies (b : Block) (f : Power → Power) : (setPower b f).dies = b.dies := rfl
@[simp] theorem setPower_links (b : Block) (f : Power → Power) : (setPower b f).links = b.links := rfl
@[simp] theorem setPower_slices (b : Block) (f : Power → Power) : (setPower b f).slices = b.slices := rfl
@[simp] theorem setPower_chans (b : Block) (f : Power → Power) : (setPower b f).chans = b.chans := rfl
@[simp] theorem setPower_io (b : Block) (f : Power → Power) : (setPower b f).io = b.io := rfl
@[simp] theorem setPower_spurs (b : Block) (f : Power → Power) : (setPower b f).spurs = b.spurs := rfl
@[simp] theorem setPower_movers (b : Block) (f : Power → Power) : (setPower b f).movers = b.movers := rfl
@[simp] theorem setPower_tolls (b : Block) (f : Power → Power) : (setPower b f).tolls = b.tolls := rfl
@[simp] theorem setPower_inbox (b : Block) (f : Power → Power) : (setPower b f).inbox = b.inbox := rfl
@[simp] theorem setPower_reports (b : Block) (f : Power → Power) : (setPower b f).reports = b.reports := rfl
@[simp] theorem setPower_mbx (b : Block) (f : Power → Power) : (setPower b f).mbx = b.mbx := rfl
@[simp] theorem setPower_objs (b : Block) (f : Power → Power) : (setPower b f).objs = b.objs := rfl
@[simp] theorem setPower_evSeq (b : Block) (f : Power → Power) : (setPower b f).evSeq = b.evSeq := rfl
@[simp] theorem setPower_evPath (b : Block) (f : Power → Power) : (setPower b f).evPath = b.evPath := rfl
@[simp] theorem setPower_rings (b : Block) (f : Power → Power) : (setPower b f).rings = b.rings := rfl
@[simp] theorem setPower_lostWrites (b : Block) (f : Power → Power) : (setPower b f).lostWrites = b.lostWrites := rfl
@[simp] theorem setPower_pkg (b : Block) (f : Power → Power) : (setPower b f).pkg = b.pkg := rfl
@[simp] theorem setPower_wave (b : Block) (f : Power → Power) : (setPower b f).wave = b.wave := rfl
@[simp] theorem setPower_outbox (b : Block) (f : Power → Power) : (setPower b f).outbox = b.outbox := rfl

@[simp] theorem addLost_regs (b : Block) (x s d n : Nat) : (addLost b x s d n).regs = b.regs := rfl
@[simp] theorem addLost_csrs (b : Block) (x s d n : Nat) : (addLost b x s d n).csrs = b.csrs := rfl
@[simp] theorem addLost_coal (b : Block) (x s d n : Nat) : (addLost b x s d n).coal = b.coal := rfl
@[simp] theorem addLost_time (b : Block) (x s d n : Nat) : (addLost b x s d n).time = b.time := rfl
@[simp] theorem addLost_freeIx (b : Block) (x s d n : Nat) : (addLost b x s d n).freeIx = b.freeIx := rfl
@[simp] theorem addLost_harts (b : Block) (x s d n : Nat) : (addLost b x s d n).harts = b.harts := rfl
@[simp] theorem addLost_dies (b : Block) (x s d n : Nat) : (addLost b x s d n).dies = b.dies := rfl
@[simp] theorem addLost_links (b : Block) (x s d n : Nat) : (addLost b x s d n).links = b.links := rfl
@[simp] theorem addLost_slices (b : Block) (x s d n : Nat) : (addLost b x s d n).slices = b.slices := rfl
@[simp] theorem addLost_chans (b : Block) (x s d n : Nat) : (addLost b x s d n).chans = b.chans := rfl
@[simp] theorem addLost_io (b : Block) (x s d n : Nat) : (addLost b x s d n).io = b.io := rfl
@[simp] theorem addLost_spurs (b : Block) (x s d n : Nat) : (addLost b x s d n).spurs = b.spurs := rfl
@[simp] theorem addLost_movers (b : Block) (x s d n : Nat) : (addLost b x s d n).movers = b.movers := rfl
@[simp] theorem addLost_tolls (b : Block) (x s d n : Nat) : (addLost b x s d n).tolls = b.tolls := rfl
@[simp] theorem addLost_inbox (b : Block) (x s d n : Nat) : (addLost b x s d n).inbox = b.inbox := rfl
@[simp] theorem addLost_reports (b : Block) (x s d n : Nat) : (addLost b x s d n).reports = b.reports := rfl
@[simp] theorem addLost_mbx (b : Block) (x s d n : Nat) : (addLost b x s d n).mbx = b.mbx := rfl
@[simp] theorem addLost_objs (b : Block) (x s d n : Nat) : (addLost b x s d n).objs = b.objs := rfl
@[simp] theorem addLost_evSeq (b : Block) (x s d n : Nat) : (addLost b x s d n).evSeq = b.evSeq := rfl
@[simp] theorem addLost_evPath (b : Block) (x s d n : Nat) : (addLost b x s d n).evPath = b.evPath := rfl
@[simp] theorem addLost_rings (b : Block) (x s d n : Nat) : (addLost b x s d n).rings = b.rings := rfl
@[simp] theorem addLost_pkg (b : Block) (x s d n : Nat) : (addLost b x s d n).pkg = b.pkg := rfl
@[simp] theorem addLost_power (b : Block) (x s d n : Nat) : (addLost b x s d n).power = b.power := rfl
@[simp] theorem addLost_wave (b : Block) (x s d n : Nat) : (addLost b x s d n).wave = b.wave := rfl
@[simp] theorem addLost_outbox (b : Block) (x s d n : Nat) : (addLost b x s d n).outbox = b.outbox := rfl

@[simp] theorem clearLost_regs (b : Block) (x s d : Nat) : (clearLost b x s d).regs = b.regs := rfl
@[simp] theorem clearLost_csrs (b : Block) (x s d : Nat) : (clearLost b x s d).csrs = b.csrs := rfl
@[simp] theorem clearLost_coal (b : Block) (x s d : Nat) : (clearLost b x s d).coal = b.coal := rfl
@[simp] theorem clearLost_time (b : Block) (x s d : Nat) : (clearLost b x s d).time = b.time := rfl
@[simp] theorem clearLost_freeIx (b : Block) (x s d : Nat) : (clearLost b x s d).freeIx = b.freeIx := rfl
@[simp] theorem clearLost_harts (b : Block) (x s d : Nat) : (clearLost b x s d).harts = b.harts := rfl
@[simp] theorem clearLost_dies (b : Block) (x s d : Nat) : (clearLost b x s d).dies = b.dies := rfl
@[simp] theorem clearLost_links (b : Block) (x s d : Nat) : (clearLost b x s d).links = b.links := rfl
@[simp] theorem clearLost_slices (b : Block) (x s d : Nat) : (clearLost b x s d).slices = b.slices := rfl
@[simp] theorem clearLost_chans (b : Block) (x s d : Nat) : (clearLost b x s d).chans = b.chans := rfl
@[simp] theorem clearLost_io (b : Block) (x s d : Nat) : (clearLost b x s d).io = b.io := rfl
@[simp] theorem clearLost_spurs (b : Block) (x s d : Nat) : (clearLost b x s d).spurs = b.spurs := rfl
@[simp] theorem clearLost_movers (b : Block) (x s d : Nat) : (clearLost b x s d).movers = b.movers := rfl
@[simp] theorem clearLost_tolls (b : Block) (x s d : Nat) : (clearLost b x s d).tolls = b.tolls := rfl
@[simp] theorem clearLost_inbox (b : Block) (x s d : Nat) : (clearLost b x s d).inbox = b.inbox := rfl
@[simp] theorem clearLost_reports (b : Block) (x s d : Nat) : (clearLost b x s d).reports = b.reports := rfl
@[simp] theorem clearLost_mbx (b : Block) (x s d : Nat) : (clearLost b x s d).mbx = b.mbx := rfl
@[simp] theorem clearLost_objs (b : Block) (x s d : Nat) : (clearLost b x s d).objs = b.objs := rfl
@[simp] theorem clearLost_evSeq (b : Block) (x s d : Nat) : (clearLost b x s d).evSeq = b.evSeq := rfl
@[simp] theorem clearLost_evPath (b : Block) (x s d : Nat) : (clearLost b x s d).evPath = b.evPath := rfl
@[simp] theorem clearLost_rings (b : Block) (x s d : Nat) : (clearLost b x s d).rings = b.rings := rfl
@[simp] theorem clearLost_pkg (b : Block) (x s d : Nat) : (clearLost b x s d).pkg = b.pkg := rfl
@[simp] theorem clearLost_power (b : Block) (x s d : Nat) : (clearLost b x s d).power = b.power := rfl
@[simp] theorem clearLost_wave (b : Block) (x s d : Nat) : (clearLost b x s d).wave = b.wave := rfl
@[simp] theorem clearLost_outbox (b : Block) (x s d : Nat) : (clearLost b x s d).outbox = b.outbox := rfl

@[simp] theorem bump_csrs (b : Block) (o : Nat) : (bump b o).csrs = b.csrs := rfl
@[simp] theorem bump_coal (b : Block) (o : Nat) : (bump b o).coal = b.coal := rfl
@[simp] theorem bump_time (b : Block) (o : Nat) : (bump b o).time = b.time := rfl
@[simp] theorem bump_freeIx (b : Block) (o : Nat) : (bump b o).freeIx = b.freeIx := rfl
@[simp] theorem bump_harts (b : Block) (o : Nat) : (bump b o).harts = b.harts := rfl
@[simp] theorem bump_dies (b : Block) (o : Nat) : (bump b o).dies = b.dies := rfl
@[simp] theorem bump_links (b : Block) (o : Nat) : (bump b o).links = b.links := rfl
@[simp] theorem bump_slices (b : Block) (o : Nat) : (bump b o).slices = b.slices := rfl
@[simp] theorem bump_chans (b : Block) (o : Nat) : (bump b o).chans = b.chans := rfl
@[simp] theorem bump_io (b : Block) (o : Nat) : (bump b o).io = b.io := rfl
@[simp] theorem bump_spurs (b : Block) (o : Nat) : (bump b o).spurs = b.spurs := rfl
@[simp] theorem bump_movers (b : Block) (o : Nat) : (bump b o).movers = b.movers := rfl
@[simp] theorem bump_tolls (b : Block) (o : Nat) : (bump b o).tolls = b.tolls := rfl
@[simp] theorem bump_inbox (b : Block) (o : Nat) : (bump b o).inbox = b.inbox := rfl
@[simp] theorem bump_reports (b : Block) (o : Nat) : (bump b o).reports = b.reports := rfl
@[simp] theorem bump_mbx (b : Block) (o : Nat) : (bump b o).mbx = b.mbx := rfl
@[simp] theorem bump_objs (b : Block) (o : Nat) : (bump b o).objs = b.objs := rfl
@[simp] theorem bump_evSeq (b : Block) (o : Nat) : (bump b o).evSeq = b.evSeq := rfl
@[simp] theorem bump_evPath (b : Block) (o : Nat) : (bump b o).evPath = b.evPath := rfl
@[simp] theorem bump_rings (b : Block) (o : Nat) : (bump b o).rings = b.rings := rfl
@[simp] theorem bump_lostWrites (b : Block) (o : Nat) : (bump b o).lostWrites = b.lostWrites := rfl
@[simp] theorem bump_pkg (b : Block) (o : Nat) : (bump b o).pkg = b.pkg := rfl
@[simp] theorem bump_power (b : Block) (o : Nat) : (bump b o).power = b.power := rfl
@[simp] theorem bump_wave (b : Block) (o : Nat) : (bump b o).wave = b.wave := rfl
@[simp] theorem bump_outbox (b : Block) (o : Nat) : (bump b o).outbox = b.outbox := rfl

@[simp] theorem queueTx_regs (b : Block) (e : LinkId) (m : Msg) : (queueTx b e m).regs = b.regs := rfl
@[simp] theorem queueTx_csrs (b : Block) (e : LinkId) (m : Msg) : (queueTx b e m).csrs = b.csrs := rfl
@[simp] theorem queueTx_coal (b : Block) (e : LinkId) (m : Msg) : (queueTx b e m).coal = b.coal := rfl
@[simp] theorem queueTx_time (b : Block) (e : LinkId) (m : Msg) : (queueTx b e m).time = b.time := rfl
@[simp] theorem queueTx_freeIx (b : Block) (e : LinkId) (m : Msg) : (queueTx b e m).freeIx = b.freeIx := rfl
@[simp] theorem queueTx_harts (b : Block) (e : LinkId) (m : Msg) : (queueTx b e m).harts = b.harts := rfl
@[simp] theorem queueTx_dies (b : Block) (e : LinkId) (m : Msg) : (queueTx b e m).dies = b.dies := rfl
@[simp] theorem queueTx_slices (b : Block) (e : LinkId) (m : Msg) : (queueTx b e m).slices = b.slices := rfl
@[simp] theorem queueTx_chans (b : Block) (e : LinkId) (m : Msg) : (queueTx b e m).chans = b.chans := rfl
@[simp] theorem queueTx_io (b : Block) (e : LinkId) (m : Msg) : (queueTx b e m).io = b.io := rfl
@[simp] theorem queueTx_spurs (b : Block) (e : LinkId) (m : Msg) : (queueTx b e m).spurs = b.spurs := rfl
@[simp] theorem queueTx_movers (b : Block) (e : LinkId) (m : Msg) : (queueTx b e m).movers = b.movers := rfl
@[simp] theorem queueTx_tolls (b : Block) (e : LinkId) (m : Msg) : (queueTx b e m).tolls = b.tolls := rfl
@[simp] theorem queueTx_inbox (b : Block) (e : LinkId) (m : Msg) : (queueTx b e m).inbox = b.inbox := rfl
@[simp] theorem queueTx_reports (b : Block) (e : LinkId) (m : Msg) : (queueTx b e m).reports = b.reports := rfl
@[simp] theorem queueTx_mbx (b : Block) (e : LinkId) (m : Msg) : (queueTx b e m).mbx = b.mbx := rfl
@[simp] theorem queueTx_objs (b : Block) (e : LinkId) (m : Msg) : (queueTx b e m).objs = b.objs := rfl
@[simp] theorem queueTx_evSeq (b : Block) (e : LinkId) (m : Msg) : (queueTx b e m).evSeq = b.evSeq := rfl
@[simp] theorem queueTx_evPath (b : Block) (e : LinkId) (m : Msg) : (queueTx b e m).evPath = b.evPath := rfl
@[simp] theorem queueTx_rings (b : Block) (e : LinkId) (m : Msg) : (queueTx b e m).rings = b.rings := rfl
@[simp] theorem queueTx_lostWrites (b : Block) (e : LinkId) (m : Msg) : (queueTx b e m).lostWrites = b.lostWrites := rfl
@[simp] theorem queueTx_pkg (b : Block) (e : LinkId) (m : Msg) : (queueTx b e m).pkg = b.pkg := rfl
@[simp] theorem queueTx_power (b : Block) (e : LinkId) (m : Msg) : (queueTx b e m).power = b.power := rfl
@[simp] theorem queueTx_wave (b : Block) (e : LinkId) (m : Msg) : (queueTx b e m).wave = b.wave := rfl
@[simp] theorem queueTx_outbox (b : Block) (e : LinkId) (m : Msg) : (queueTx b e m).outbox = b.outbox := rfl

end Sys2Proof.Machine
end

