-- ==== Sys2Proof/Laws/Ops.lean ====
section
/-! SUPPORT. Laws of the shared operations: what is read back from a structure that was changed, what the changes of structures leave
in the registers, and what counters and the steps of a link attempt do to the registers. -/

namespace Sys2Proof.Machine

/-! ## Structures of the block -/

@[simp] theorem rd_updLink (b : Block) (e : LinkId) (f : LinkEnd → LinkEnd) (o : Nat) : rd (updLink b e f) o = rd b o := rfl
@[simp] theorem rdCsr_updLink (b : Block) (e : LinkId) (f : LinkEnd → LinkEnd) (i n : Nat) : rdCsr (updLink b e f) i n = rdCsr b i n := rfl
@[simp] theorem rd_updSlice (b : Block) (h : Hub) (k : Nat) (f : Slice → Slice) (o : Nat) : rd (updSlice b h k f) o = rd b o := rfl
@[simp] theorem rdCsr_updSlice (b : Block) (h : Hub) (k : Nat) (f : Slice → Slice) (i n : Nat) : rdCsr (updSlice b h k f) i n = rdCsr b i n := rfl
@[simp] theorem rd_updHart (b : Block) (k : Nat) (f : HartSt → HartSt) (o : Nat) : rd (updHart b k f) o = rd b o := rfl
@[simp] theorem rdCsr_updHart (b : Block) (k : Nat) (f : HartSt → HartSt) (i n : Nat) : rdCsr (updHart b k f) i n = rdCsr b i n := rfl
@[simp] theorem rd_updDie (b : Block) (k : Nat) (f : DieSt → DieSt) (o : Nat) : rd (updDie b k f) o = rd b o := rfl
@[simp] theorem rdCsr_updDie (b : Block) (k : Nat) (f : DieSt → DieSt) (i n : Nat) : rdCsr (updDie b k f) i n = rdCsr b i n := rfl
@[simp] theorem rd_updChan (b : Block) (k : Nat) (f : Chan → Chan) (o : Nat) : rd (updChan b k f) o = rd b o := rfl
@[simp] theorem rdCsr_updChan (b : Block) (k : Nat) (f : Chan → Chan) (i n : Nat) : rdCsr (updChan b k f) i n = rdCsr b i n := rfl
@[simp] theorem rd_updIo (b : Block) (h : Hub) (f : IoAgent → IoAgent) (o : Nat) : rd (updIo b h f) o = rd b o := rfl
@[simp] theorem rdCsr_updIo (b : Block) (h : Hub) (f : IoAgent → IoAgent) (i n : Nat) : rdCsr (updIo b h f) i n = rdCsr b i n := rfl
@[simp] theorem rd_updSpur (b : Block) (h : Hub) (f : Spur → Spur) (o : Nat) : rd (updSpur b h f) o = rd b o := rfl
@[simp] theorem rdCsr_updSpur (b : Block) (h : Hub) (f : Spur → Spur) (i n : Nat) : rdCsr (updSpur b h f) i n = rdCsr b i n := rfl
@[simp] theorem rd_updMover (b : Block) (h : Hub) (f : Mover → Mover) (o : Nat) : rd (updMover b h f) o = rd b o := rfl
@[simp] theorem rdCsr_updMover (b : Block) (h : Hub) (f : Mover → Mover) (i n : Nat) : rdCsr (updMover b h f) i n = rdCsr b i n := rfl
@[simp] theorem rd_updTh (b : Block) (h : Hub) (f : Tollhouse → Tollhouse) (o : Nat) : rd (updTh b h f) o = rd b o := rfl
@[simp] theorem rdCsr_updTh (b : Block) (h : Hub) (f : Tollhouse → Tollhouse) (i n : Nat) : rdCsr (updTh b h f) i n = rdCsr b i n := rfl
@[simp] theorem rd_updMbx (b : Block) (k : Nat) (f : Mbx → Mbx) (o : Nat) : rd (updMbx b k f) o = rd b o := rfl
@[simp] theorem rdCsr_updMbx (b : Block) (k : Nat) (f : Mbx → Mbx) (i n : Nat) : rdCsr (updMbx b k f) i n = rdCsr b i n := rfl
@[simp] theorem rd_updRing (b : Block) (k : Nat) (f : Ring → Ring) (o : Nat) : rd (updRing b k f) o = rd b o := rfl
@[simp] theorem rdCsr_updRing (b : Block) (k : Nat) (f : Ring → Ring) (i n : Nat) : rdCsr (updRing b k f) i n = rdCsr b i n := rfl
@[simp] theorem rd_updChanDm (b : Block) (h : Hub) (k : Nat) (f : DmChan → DmChan) (o : Nat) : rd (updChanDm b h k f) o = rd b o := rfl
@[simp] theorem rdCsr_updChanDm (b : Block) (h : Hub) (k : Nat) (f : DmChan → DmChan) (i n : Nat) : rdCsr (updChanDm b h k f) i n = rdCsr b i n := rfl
@[simp] theorem rd_updPort (b : Block) (h : Hub) (k : Nat) (f : Port → Port) (o : Nat) : rd (updPort b h k f) o = rd b o := rfl
@[simp] theorem rdCsr_updPort (b : Block) (h : Hub) (k : Nat) (f : Port → Port) (i n : Nat) : rdCsr (updPort b h k f) i n = rdCsr b i n := rfl

@[simp] theorem getLink_updLink (b : Block) (e : LinkId) (f : LinkEnd → LinkEnd) : getLink (updLink b e f) e = f (getLink b e) := by
  simp [getLink, updLink]
@[simp] theorem getSlice_updSlice (b : Block) (h : Hub) (k : Nat) (f : Slice → Slice) : getSlice (updSlice b h k f) h k = f (getSlice b h k) := by
  simp [getSlice, updSlice]
@[simp] theorem getHart_updHart (b : Block) (k : Nat) (f : HartSt → HartSt) : getHart (updHart b k f) k = f (getHart b k) := by
  simp [getHart, updHart]
@[simp] theorem getDie_updDie (b : Block) (k : Nat) (f : DieSt → DieSt) : getDie (updDie b k f) k = f (getDie b k) := by
  simp [getDie, updDie]
@[simp] theorem getChan_updChan (b : Block) (k : Nat) (f : Chan → Chan) : getChan (updChan b k f) k = f (getChan b k) := by
  simp [getChan, updChan]
@[simp] theorem getIo_updIo (b : Block) (h : Hub) (f : IoAgent → IoAgent) : getIo (updIo b h f) h = f (getIo b h) := by
  simp [getIo, updIo]
@[simp] theorem getSpur_updSpur (b : Block) (h : Hub) (f : Spur → Spur) : getSpur (updSpur b h f) h = f (getSpur b h) := by
  simp [getSpur, updSpur]
@[simp] theorem getMover_updMover (b : Block) (h : Hub) (f : Mover → Mover) : getMover (updMover b h f) h = f (getMover b h) := by
  simp [getMover, updMover]
@[simp] theorem getTh_updTh (b : Block) (h : Hub) (f : Tollhouse → Tollhouse) : getTh (updTh b h f) h = f (getTh b h) := by
  simp [getTh, updTh]
@[simp] theorem getMbx_updMbx (b : Block) (k : Nat) (f : Mbx → Mbx) : getMbx (updMbx b k f) k = f (getMbx b k) := by
  simp [getMbx, updMbx]
@[simp] theorem getRing_updRing (b : Block) (k : Nat) (f : Ring → Ring) : getRing (updRing b k f) k = f (getRing b k) := by
  simp [getRing, updRing]
@[simp] theorem getChanDm_updChanDm (b : Block) (h : Hub) (k : Nat) (f : DmChan → DmChan) : getChanDm (updChanDm b h k f) h k = f (getChanDm b h k) := by
  simp [getChanDm, updChanDm, getMover, updMover]
@[simp] theorem getPort_updPort (b : Block) (h : Hub) (k : Nat) (f : Port → Port) : getPort (updPort b h k f) h k = f (getPort b h k) := by
  simp [getPort, updPort, getIo, updIo]

@[simp] theorem rd_putBox (b : Block) (k vc : Nat) (l : List Msg) (o : Nat) : rd (putBox b k vc l) o = rd b o := rfl
@[simp] theorem rd_pushBox (b : Block) (k : Nat) (m : Msg) (o : Nat) : rd (pushBox b k m) o = rd b o := rfl
@[simp] theorem rd_emit (b : Block) (x : Out) (o : Nat) : rd (emit b x) o = rd b o := rfl
@[simp] theorem rd_queueTx (b : Block) (e : LinkId) (m : Msg) (o : Nat) : rd (queueTx b e m) o = rd b o := rfl
@[simp] theorem getBox_putBox (b : Block) (k vc : Nat) (l : List Msg) : getBox (putBox b k vc l) k vc = l := by
  simp [getBox, putBox]
@[simp] theorem getBox_pushBox (b : Block) (k : Nat) (m : Msg) :
    getBox (pushBox b k m) k (hVc m.hdr) = getBox b k (hVc m.hdr) ++ [m] := by simp [pushBox]

/-! ## Counters -/

theorem rd_bump (b : Block) (o p : Nat) : rd (bump b p) o = if o = p then min 0xFFFF_FFFF (rd b p + 1) else rd b o := by
  by_cases h : o = p
  · subst h; simp [rd_bump_same]
  · simp [h, bump, bumpBy, rd_wr]

theorem rd_bumpErr (b : Block) (p ag unit cls sev d1 o : Nat) :
    rd (bumpErr b p ag unit cls sev d1) o = if o = p then min 0xFFFF_FFFF (rd b p + 1) else rd b o := by
  simp [bumpErr, rd_bump]

/-! ## The steps of a link attempt -/

/-- Entering LOCK changes STATE and the count of attempts, and on a spur its bring-up register (R99). -/
theorem rd_enterLock (b : Block) (e : LinkId) (r : Bool) (o : Nat) (h : o ≠ SPUR_BRINGUP (endHub e)) :
    rd (enterLock b e r) o = if o = CNT_ATTEMPTS e then min 0xFFFF_FFFF (rd b o + 1)
      else if o = LINK_STATUS e then putBits (rd b o) 2 0 1 else rd b o := by
  unfold enterLock
  rcases e with ⟨hb, l⟩ | k | ⟨hb, k⟩
  · by_cases hl : l.val = 6
    · simp [isSpurEnd, hl, setLinkState, rd_fset, rd_bump, endHub, CNT_ATTEMPTS, LINK_STATUS] at *
      grind
    · simp [isSpurEnd, hl, setLinkState, rd_fset, rd_bump, CNT_ATTEMPTS, LINK_STATUS]
      grind
  · simp [isSpurEnd, setLinkState, rd_fset, rd_bump, CNT_ATTEMPTS, LINK_STATUS]
    grind
  · simp [isSpurEnd, setLinkState, rd_fset, rd_bump, CNT_ATTEMPTS, LINK_STATUS]
    grind

/-- The attempt that begins carries the RESUME bit it was given. -/
theorem enterLock_resume (b : Block) (e : LinkId) (r : Bool) : (getLink (enterLock b e r) e).att.resume = r := by
  rcases e with ⟨hb, l⟩ | k | ⟨hb, k⟩
  · by_cases hl : l.val = 6 <;> simp [enterLock, isSpurEnd, hl, setLinkState, getLink, fset, wr, bump, bumpBy, updSpur, updLink]
  · simp [enterLock, isSpurEnd, setLinkState, getLink, fset, wr, bump, bumpBy, updLink]
  · simp [enterLock, isSpurEnd, setLinkState, getLink, fset, wr, bump, bumpBy, updLink]

end Sys2Proof.Machine
end

