-- ==== Sys2Proof/WellFormed.lean ====
section
/-! DEFINITION. Which commands are well formed: the ranges of operands that their types do not already give. A command that
is not well formed describes no step of the spec; the senders of R50 and the links cannot produce it. -/

namespace Sys2Proof

/-- A register or window access names bytes of the control space (R29: 64 GiB) and has a size of the RISC-V accesses. -/
def accessWf (off size : Nat) : Bool :=
  decide (off < 2 ^ 36) && (size == 1 || size == 2 || size == 4 || size == 8)

/-- A physical address has 52 bits (R25). -/
def paWf (pa : Nat) : Bool := decide (pa < 2 ^ 52)

/-- Bytes written to one 64-byte block are 0 where they are not enabled (R137). -/
def lineWriteWf (w : LineWrite) : Bool :=
  (List.range 64).all fun i => w.be.getLsbD i || (w.data >>> (8 * i)).toNat % 256 == 0

/-- A request of a device names 1 to 64 bytes (R139). -/
def deviceReqWf (r : DeviceReq) : Bool :=
  decide (1 ≤ r.len ∧ r.len ≤ 64) && (match r.write with | none => true | some w => lineWriteWf w) &&
    (match r.xl with | some (.ok pa) => paWf pa | _ => true)

/-- A board lists the sixteen channels (R329). -/
def boardWf (b : Board) : Bool := b.dimms.length == 16

/-- A roll call finds one to eight packages, and names the far ends of this package's four links among them (R483). -/
def rollCallWf (r : RollCall) : Bool :=
  decide (1 ≤ r.serials.length ∧ r.serials.length ≤ 8) && r.far.length == 4 &&
    r.far.all (fun f => match f with | none => true | some m => decide (m < r.serials.length)) &&
    r.links.all (fun l => decide (l.1 < r.serials.length ∧ l.2 < r.serials.length))

/-- Well-formedness of a command. -/
def Instr.wf : Instr → Bool
  | .registerWrite _ (.space off) size _ => accessWf off size
  | .registerWrite _ (.csr _ _) size _ => size == 8
  | .statusBitClear _ off _ _ => decide (off < 2 ^ 36) && off % 4 == 0
  | .cntClear _ off => decide (off < 2 ^ 36) && off % 4 == 0
  | .mbxHeaderWrite _ _ off size _ => decide (off + size ≤ 0x10000) && accessWf off size
  | .laneTestDone _ failing _ => failing.all fun l => decide (l < 1024)
  | .packageColdReset board => boardWf board
  | .deviceRequest _ _ req => deviceReqWf req
  | .biSnoop _ _ _ pa => paWf pa && pa % 64 == 0
  | .cxlCacheRequest _ _ pa w => paWf pa && (match w with | none => true | some w => lineWriteWf w)
  | .cxlMemRequest _ dpa w => dpa % 64 == 0 && (match w with | none => true | some w => lineWriteWf w)
  | .bar2Tlp _ _ off len w => decide (1 ≤ len ∧ len ≤ 4096) &&
      (match w with | none => true | some w => w.length == (off + len - 1) / 64 - off / 64 + 1 && w.all lineWriteWf)
  | .stretch _ _ xl => xl.all fun t => match t with | .ok pa => paWf pa | .fault => true
  | .descriptorComplete _ _ xl => xl.all fun t => match t with | .ok pa => paWf pa | .fault => true
  | .rollCall found => rollCallWf found
  | _ => true

end Sys2Proof
end

