-- ==== Sys2Proof/Tests/Slice0.lean ====
section
/-! SUPPORT. Tests: for each statement, states and operands that meet the hypotheses of its clauses, with what the command then
does, as the rules of spec/ give it; and a term that each check of well-formedness refuses. -/

namespace Sys2Proof.Tests

open Sys2Proof Sys2Proof.Machine Sys2Proof.Safety

/-! Theorem after theorem: checked at once, their threads would take more memory than the check allows. -/
set_option Elab.async false

/-- A state with the block `b`, an empty queue and empty memory. -/
def onBlk (b : Block) : State := { blk := b }

/-- The command completes, and its block meets `f`. -/
def after (i : Instr) (b : Block) (f : Block → Bool) : Bool :=
  match exec i (onBlk b) with
  | .next t => f t.blk
  | _ => false

/-- The command completes and changes nothing. -/
def same (i : Instr) (b : Block) : Bool := after i b fun t => t == b

/-- A package whose rails are up and whose cold reset is released. -/
def lit : Block := { power := { aoGood := true, mainGood := true, enMain := true, enCore := true, coldHeld := false } }

/-- `lit` with its power controller changed. -/
def withPower (f : Power → Power) : Block := { lit with power := f lit.power }

/-- One hub of `rig`: partition 0 runs and owns the four quarters (R389), its group holds 64 GiB from 0x20_0000_0000 in mode U
(R33, R34), the home slices and the causeway are up, and so are the channels and the Tollhouse's services. -/
def rigHub (h : Hub) (b : Block) : Block :=
  let b := wr b (HUB_PART_STATE h) (place 0xF 23 20 + place 2 1 0)
  let b := wr b (HUB_HOME_GROUP h 0) (place 0xF 55 52 + place 128 51 30 + 64)
  let b := wr b (HUB_MILEPOST_IO h) 0xFF
  let b := wr b (HUB_MILEPOST_TH h) 0xFFF
  let b := updTh b h fun t => { t with running := true }
  wr b (HUB_MILEPOST_DIES h) 0x180

/-- Die 0 of `rig` runs and its feeder is ACTIVE; core 0 runs. -/
def rigDie (b : Block) : Block :=
  let b := updDie b 0 fun d => { d with inReset := false }
  let b := wr (wr b (FCD_MILEPOST 0) 0x1FFFFF) (HUB_MILEPOST_DIES .n) 0x181
  let b := wr b (FCD_RESET_STATUS 0) 0
  setLinkState (setLinkState b (.hub .n 0) 5) (.die 0) 5

/-- A package at work: partition 0 on every quarter, die 0 with its cores, both ends of the causeway ACTIVE. -/
def rig : Block :=
  let b := rigDie (rigHub .s (rigHub .n lit))
  let b := setLinkState (setLinkState b (.hub .n 7) 5) (.hub .s 7) 5
  let ent : PlanEnt := { qmask := 0xF, memBase := 128, vector := 0x2000000000 }
  let plan : Plan := { ents := [ent, {}, {}, {}] }
  { b with pkg := { plan := plan, running := plan } }

/-- A buffered store of one byte to 0x20_0000_0040. -/
def storeB : SbEnt := { id := 0, va := 0x2000000040, pa := 0x2000000040, len := 1, value := 7, mtype := .pma, world := true }

/-! ## Power-up, package resets, boot -/

theorem test_ao_pwrgood : after .aoPwrgood {} (fun b => b.power.aoGood && b.power.enMain) = true ∧ same .aoPwrgood lit = true := by
  decide +kernel

theorem test_pwrgood : after .pwrgood (withPower fun p => { p with mainGood := false, enCore := false }) (fun b =>
    b.power.mainGood && b.power.enCore) = true ∧ same .pwrgood {} = true := by decide +kernel

theorem test_pwrgood_timeout : after .pwrgoodTimeout (withPower fun p => { p with mainGood := false }) (fun b =>
    !b.power.enMain && (b.evPath.get [] 0).length == 1) = true ∧ same .pwrgoodTimeout lit = true := by decide +kernel

theorem test_pwrgood_fall : after .pwrgoodFall lit (fun b =>
    !b.power.mainGood && b.power.coldHeld && b.power.mainOffDue && (b.evPath.get [] 0).length == 1) = true := by decide +kernel

theorem test_pwr_en_main_off : after .pwrEnMainOff (withPower fun p => { p with mainOffDue := true }) (fun b =>
    b.power.enMain && !b.power.mainGood) = true ∧ same .pwrEnMainOff lit = true ∧
    after .pwrEnMainOff (withPower fun p => { p with mainOffDue := true, pk := 5 }) (fun b => !b.power.enMain) = true := by
  decide +kernel

theorem test_cold_reset_release : after .coldResetRelease (withPower fun p => { p with coldHeld := true }) (fun b =>
    !b.power.coldHeld && b.pkg.resetDue == 1) = true ∧ same .coldResetRelease lit = true ∧
    same .coldResetRelease (withPower fun p => { p with coldHeld := true, coldHigh := false }) = true := by decide +kernel

theorem test_ao_pwrgood_fall : after .aoPwrgoodFall lit (fun b => b == {}) = true := by decide +kernel

theorem test_cold_rst_n : after (.coldRstN true 10) lit (fun b => b.pkg.resetDue == 1) = true ∧
    after (.coldRstN true 9) lit (fun b => b.pkg.resetDue == 0) = true ∧
    after (.coldRstN false 0) lit (fun b => !b.power.coldHigh && b.power.spiOff) = true := by decide +kernel

/-- A wake event does not assert PWR_EN_MAIN again after PWRGOOD failed to arrive; a pulse on COLD_RST_N does (R530). -/
theorem test_cold_rst_n_after_timeout :
    let b := withPower fun p => { p with enMain := false, needPulse := true, pk := 5, coldHeld := true, mainGood := false }
    after (.wakeEvent { code := 6, hub := .n, index := 0 }) b (fun b => !b.power.enMain) = true ∧
      after (.coldRstN true 10) b (fun b => b.power.enMain && b.power.pk == 0) = true := by decide +kernel

/-- A board without memory, with both references. -/
def bareBoard : Board := { dimms := [], primarySeen := true, fallbackLocked := true }

theorem test_package_cold_reset :
    after (.packageColdReset bareBoard) { lit with pkg := { resetDue := 1, plan := { spurN := 1 } }, harts := { cells := [(3, { pc := 8 })] } }
      (fun b => b.pkg.resetDue == 0 && b.harts == {} && b.pkg.plan.spurN == 1 && homeReady b .n && homeReady b .s &&
        linkState b (.hub .n 7) == 1 && linkState b (.hub .s 7) == 1) = true ∧
    same (.packageColdReset bareBoard) lit = true := by decide +kernel

theorem test_warm_rst_n : after (.warmRstN 10) { lit with dies := { cells := [(5, { inReset := false })] } } (fun b =>
    b.pkg.resetDue == 2 && drains b 100 && drains b 119 && !drains b 120) = true ∧ same (.warmRstN 9) lit = true := by decide +kernel

theorem test_package_warm_reset :
    after .packageWarmReset { lit with pkg := { resetDue := 2 }, harts := { cells := [(3, { pc := 8 })] } } (fun b =>
      b.pkg.resetDue == 0 && b.harts == {} && homeReady b .n && linkState b (.hub .s 7) == 1 &&
        fget b (FCD_RESET_STATUS 11) FCD_RESET_STATUS_LAST_SCOPE == 1) = true ∧
    same .packageWarmReset lit = true := by decide +kernel

/-- An image that meets R47, and one whose signature fails. -/
def goodImage : ImageSlot := { length := 0x180000, secVersion := 2 ^ 32, signatureOk := true, keyOk := true, build := 7 }
def badImage : ImageSlot := { goodImage with signatureOk := false }

theorem image_good : imageOk goodImage = true := by
  have h : imageOk goodImage = decide (Config.fuseVersion.toNat ≤ 2 ^ 32) := rfl
  rw [h]
  exact decide_eq_true (by omega)

theorem test_tollhouse_boot (x : ImageSlot) : bootN lit goodImage x = startImage lit .n goodImage false ∧
    bootN lit badImage goodImage = startImage lit .n goodImage true := by
  constructor <;> rw [bootN, if_neg (by decide +kernel)]
  · rw [image_good, if_pos rfl]
  · rw [show imageOk badImage = false from rfl, image_good, if_neg Bool.false_ne_true, if_pos rfl]

theorem test_tollhouse_boot_starts : (fun b => (getTh b .n).running && (getTh b .n).slotB && (getTh b .n).build == 7 && bitOf (rd b (HUB_MILEPOST_TH .n)) 0)
      (startImage lit .n goodImage true) = true ∧ after (.tollhouseBoot badImage badImage) lit (fun b => (getTh b .n).recovery && b.regs == lit.regs) = true := by decide +kernel

/-- HUB-N's Tollhouse runs, and the causeway is up. -/
def booted : Block := setEndMilepost (setEndMilepost (updTh lit .n fun t => { t with running := true }) .n 7 true) .s 7 true

theorem test_hub_s_image_received : endMilepost booted .s 7 = true ∧ same (.tollhouseBoot badImage badImage) booted = true ∧
    same (.hubSImageReceived badImage) booted = true ∧
    (fun b => (getTh b .s).running && bitOf (rd b (HUB_MILEPOST_TH .s)) 0) (startImage booted .s goodImage false) = true := by decide +kernel

theorem test_lockstep_mismatch : after (.lockstepMismatch .n) (wr booted (HUB_MILEPOST_TH .n) 0xFFF) (fun b =>
    (getTh b .n).stopped && rd b (HUB_MILEPOST_TH .n) == 0) = true := by decide +kernel

theorem test_ref_lost : after (.refLost (.die 11)) (fset lit (FCD_CLK_STATUS 11) HUB_CLK_STATUS_PRIMARY_OK 1) (fun b =>
    fget b (FCD_CLK_STATUS 11) HUB_CLK_STATUS_SOURCE == 2 && fget b (FCD_CLK_STATUS 11) HUB_CLK_STATUS_PRIMARY_OK == 0 &&
      bitOf (rd b (FCD_CLK_STATUS 11)) 0) = true := by decide +kernel

theorem test_holdover_expired :
    let b := fset lit (HUB_CLK_STATUS .s) HUB_CLK_STATUS_SOURCE 2
    fget b (clkReg (.hub .s)) HUB_CLK_STATUS_SOURCE = 2 ∧
      after (.holdoverExpired (.hub .s)) b (fun t => bitOf (rd t (HUB_CLK_STATUS .s)) 3) = true ∧
      same (.holdoverExpired (.hub .s)) lit = true := by decide +kernel

theorem test_primary_ok_timer : after (.primaryOkTimer (.die 0)) lit (fun b =>
    fget b (FCD_CLK_STATUS 0) HUB_CLK_STATUS_PRIMARY_OK == 1) = true := by decide +kernel

theorem test_reference_switch :
    let r := HUB_CLK_STATUS .n
    let b := setLinkState (wr (fset (fset lit r HUB_CLK_STATUS_SOURCE 2) r HUB_CLK_STATUS_FALLBACK_OK 1) (HUB_MILEPOST_TH .n) 1) (.hub .n 7) 5
    maySwitch b = true ∧ isSplit b = false ∧ linkState b (.hub .n 7) = 5 ∧
      after .referenceSwitch b (fun t => fget t r HUB_CLK_STATUS_SOURCE == 1 && bitOf (rd t r) 2 && linkState t (.hub .n 7) == 1 &&
        fget t (LINK_STATUS (.hub .n 7)) LINK_STATUS_LAST_RETRAIN_CAUSE == 6) = true ∧
      maySwitch lit = false ∧ same .referenceSwitch lit = true := by decide +kernel

theorem test_pll_unlock :
    let b := setLinkState lit (.hub .s 7) 5
    endOn (.hub .s) (.hub .s 7) = true ∧ linkState b (.hub .s 7) = 5 ∧
      after (.pllUnlock (.hub .s) (some (.hub .s 7))) b (fun t => bitOf (rd t (HUB_CLK_STATUS .s)) 1 &&
        linkState t (.hub .s 7) == 7 && fget t (LINK_STATUS (.hub .s 7)) LINK_STATUS_DOWN_REASON == 2) = true ∧
      after (.pllUnlock (.hub .s) none) b (fun t => bitOf (rd t (HUB_CLK_STATUS .s)) 1) = true := by decide +kernel

/-! ## Core, die and guest-site resets, releases -/

theorem test_rig : decodePa rig .n 0 0x2000001080 = .group 0 0 { hub := 0, slice := 2, chan := 6, ma := 128 } ∧
    diePart rig 11 = some 0 ∧ endMilepost rig .n 0 = true := by decide +kernel

theorem test_core_drain_timeout :
    let b := updHart (updDie rig 0 fun d => { d with draining := [19] }) 19 fun h => { h with sb := [storeB] }
    (getDie b 0).draining.contains (hartCore 19) = true ∧
      after (.coreDrainTimeout 19 400) b (fun t => (getHart t 19).sb == [] && !(getDie t 0).draining.contains 19 &&
        fget t (FCD_CORE_DRAIN 0 19) FCD_CORE_DRAIN_LAST_DRAIN == 400) = true ∧
      same (.coreDrainTimeout 18 400) b = true := by decide +kernel

theorem test_evacuation_done :
    let b := updDie rig 0 fun d => { d with evacuating := true }
    evacuated b 0 = true ∧ linkState b (hubEnd 0) ≠ 0 ∧
      after (.evacuationDone 0) b (fun t => getDie t 0 == {} && getHart t 0 == {} && linkState t (hubEnd 0) == 7 &&
        fget t (FCD_RESET_STATUS 0) FCD_RESET_STATUS_EVACUATED == 1 &&
        fget t (FCD_RESET_STATUS 0) FCD_RESET_STATUS_LAST_SCOPE == 3) = true ∧
      same (.evacuationDone 0) rig = true := by decide +kernel

theorem test_evacuation_timeout :
    let b := updDie rig 0 fun d => { d with evacuating := true }
    after (.evacuationTimeout 0) b (fun t => !(getDie t 0).evacuating && getRun t 0 == 8 && t.regs == b.regs) = true ∧
      same (.evacuationTimeout 0) rig = true := by decide +kernel

theorem test_reset_hold_expiry :
    let b := setRun rig 11 4
    getRun b 11 / 2 = 2 ∧ (getDie b 11).inReset = true ∧
      after (.resetHoldExpiry 11) b (fun t => !(getDie t 11).inReset && t.pkg.admitted.contains 11 && linkState t (.die 11) == 1) = true ∧
      same (.resetHoldExpiry 11) rig = true ∧
      after (.resetHoldExpiry 13) (setRun (fset rig (SPUR_GUEST_CTRL .s) SPUR_GUEST_CTRL_RESET 1) 13 4) (fun t =>
        fget t (SPUR_GUEST_CTRL .s) SPUR_GUEST_CTRL_RESET == 0 && t.pkg.admitted.contains 13 && getRun t 13 == 6) = true := by
  decide +kernel

theorem test_undirected_die_reset : (getDie rig 0).inReset = false ∧
    after (.undirectedDieReset 0) rig (fun t => !(getDie t 0).inReset && getHart t 0 == {} && linkState t (.die 0) == 1 &&
      fget t (FCD_RESET_STATUS 0) FCD_RESET_STATUS_CORE_HELD == 0xFFFFF &&
      fget t (FCD_RESET_STATUS 0) FCD_RESET_STATUS_LAST_SCOPE == 3) = true ∧
    same (.undirectedDieReset 11) rig = true := by decide +kernel

/-- The secure world of core 0 of die 0. -/
def core0 : Source := .hart 0

theorem test_core0_may_write : accepts rig (callerOf rig core0) (HUB_JCT_TIMEOUT .n) true = true ∧
    (callerOf rig core0).world = true := by decide +kernel

/-- `rig` with the site of HUB-S assigned to partition 0 and held in reset. -/
def rigSite : Block := wr rig (SPUR_GUEST_CTRL .s) (2 ^ 19 + 256)

theorem test_guest_reset :
    let r := SPUR_GUEST_CTRL .s
    accepts rigSite (callerOf rigSite core0) r true = true ∧ (callerOf rigSite core0).world = true ∧ fon rigSite r SPUR_GUEST_CTRL_RESET = true ∧
      (getSpur rigSite .s).powerGood = true ∧ linkState rigSite (.hub .s 6) = 0 ∧
      same (.guestReset core0 .s true) rigSite = true ∧
      after (.guestReset core0 .s false) rigSite (fun t =>
        fget t r SPUR_GUEST_CTRL_RESET == 0 && (getSpur t .s).fresh && linkState t (.hub .s 6) == 1) = true := by decide +kernel

theorem test_guest_reset_sets :
    let r := SPUR_GUEST_CTRL .s
    let b := fset rigSite r SPUR_GUEST_CTRL_RESET 0
    fon b r SPUR_GUEST_CTRL_RESET = false ∧ accepts b (callerOf b core0) r true = true ∧
      after (.guestReset core0 .s true) b (fun t => t == fset b r SPUR_GUEST_CTRL_RESET 1) = true ∧
      same (.guestReset core0 .s false) b = true ∧
      after (.gstPgFall .s) b (fun t => !(getSpur t .s).powerGood && fget t r SPUR_GUEST_CTRL_RESET == 1) = true := by decide +kernel

theorem test_partition_release :
    let b := { rig with pkg := { rig.pkg with releaseDue := [0] } }
    releaseReady b 0 = true ∧ b.pkg.resumePk5 = false ∧ diePart b 0 = some 0 ∧
      after (.partitionRelease 0) b (fun t => partState t .n 0 == 2 && !t.pkg.releaseDue.contains 0 &&
        (getHart t 19).pc == 0x2000000000 && (getHart t 19).priv == .m && hartWorld t 19) = true ∧
      same (.partitionRelease 0) rig = true := by decide +kernel

/-- Die 0 was lost in epoch 0, is admitted and its feeder is ACTIVE in a new epoch. -/
def rigBack : Block :=
  let b := forEach [Hub.n, Hub.s] (fun h b => fset b (HUB_JCT_LOST h) HUB_JCT_LOST_LOST 1) rig
  let b := setEndMilepost b .n 0 false
  { b with pkg := { b.pkg with admitted := [0], lostEpoch := b.pkg.lostEpoch.set 0 0 255 } }

theorem test_agent_rejoin : mayRejoin rigBack 0 = true ∧ lostHubs rigBack 0 = [.n, .s] ∧
    after (.agentRejoin 0) rigBack (fun t => !bitOf (fget t (HUB_JCT_LOST .s) HUB_JCT_LOST_LOST) 0 && endMilepost t .n 0 &&
      !t.pkg.admitted.contains 0 && getRun t 0 == 0) = true ∧
    mayRejoin rig 0 = false ∧ same (.agentRejoin 0) rig = true := by decide +kernel

/-! ## Links, training, spurs -/

/-- The hub's end of die 0's feeder, the die's end, and HUB-N's end of the causeway. -/
def hubEnd0 : LinkId := .hub .n 0
def dieEnd0 : LinkId := .die 0
def way7 : LinkId := .hub .n 7

/-- `rig` with an end in a state. -/
def rigAt (e : LinkId) (st : Nat) : Block := setLinkState rig e st

theorem test_link_cap_write : accepts rig (callerOf rig core0) (LINK_CTRL hubEnd0) true = true ∧
    after (.linkCapWrite core0 hubEnd0 1 1) rig (fun t => fget t (LINK_CTRL hubEnd0) LINK_CTRL_WIDTH_CAP == 1 &&
      fget t (LINK_CTRL hubEnd0) LINK_CTRL_SEGMENT == 1) = true ∧
    after (.linkCapWrite core0 hubEnd0 1 2) rig (fun t => bitOf (rd t (LINK_ERR hubEnd0)) 8 &&
      rd t (LINK_CTRL hubEnd0) == 0x00321480) = true := by decide +kernel

theorem test_link_start : after (.linkStart core0 hubEnd0) (rigAt hubEnd0 7) (fun t =>
    linkState t hubEnd0 == 1 && rd t (CNT_ATTEMPTS hubEnd0) == 1) = true ∧ same (.linkStart core0 hubEnd0) rig = true := by
  decide +kernel

theorem test_link_retrain :
    let b := updLink rig hubEnd0 fun l => { l with survives := true }
    after (.linkRetrain core0 hubEnd0) b (fun t => linkState t hubEnd0 == 1 && (getLink t hubEnd0).att.resume &&
      fget t (LINK_STATUS hubEnd0) LINK_STATUS_LAST_RETRAIN_CAUSE == 5) = true ∧
    after (.linkRestart core0 hubEnd0) b (fun t => linkState t hubEnd0 == 1 && !(getLink t hubEnd0).att.resume) = true ∧
    same (.linkRetrain core0 hubEnd0) (rigAt hubEnd0 4) = true ∧ same (.linkRestart core0 hubEnd0) (rigAt hubEnd0 7) = true := by
  decide +kernel

theorem test_link_take_down : after (.linkTakeDown core0 hubEnd0) rig (fun t => linkState t hubEnd0 == 7 &&
    fget t (LINK_STATUS hubEnd0) LINK_STATUS_DOWN_REASON == 1 && bitOf (rd t (LINK_ERR hubEnd0)) 5) = true ∧
    same (.linkTakeDown core0 hubEnd0) (rigAt hubEnd0 0) = true := by decide +kernel

theorem test_flit_send_states : same (.flitSend hubEnd0) (rigAt hubEnd0 3) = true ∧
    after (.flitSend hubEnd0) (updLink rig hubEnd0 fun l => { l with parking := true }) (fun t => linkState t hubEnd0 == 6) = true ∧
    after (.flitSend hubEnd0) rig (fun t => (getLink t hubEnd0).wire == [mkFlit 0 4095 0 1 0 [] []] && t.regs == rig.regs) = true := by
  decide +kernel

theorem test_flit_send_control :
    let c := mkCtl ctlRetryReq 0 0 0 0 false
    after (.flitSend hubEnd0) (updLink rig hubEnd0 fun l => { l with ctl := [c] }) (fun t =>
      (getLink t hubEnd0).wire == [mkFlit 0 4095 0 2 0 [] [c]] && (getLink t hubEnd0).ctl == []) = true := by decide +kernel

/-- A Comp from HUB-N's home to die 0. -/
def compMsg : Msg := { hdr := mkComp true 0 16 5 0 0 0 }

theorem test_flit_send_slots :
    let slot : TxSlot := { bits := compMsg.hdr, use := 1, last := some compMsg.hdr }
    after (.flitSend hubEnd0) (updLink rig hubEnd0 fun l => { l with txSlots := List.replicate 7 slot, nextFsn := 4095 }) (fun t =>
      (getLink t hubEnd0).nextFsn == 0 && (getLink t hubEnd0).replay.length == 1 && (getLink t hubEnd0).txSlots == []) = true := by
  decide +kernel

/-- A flit on the wire from die 0 to HUB-N. -/
def wireAt (f : FlitBits) : Block := updLink rig dieEnd0 fun l => { l with wire := [f] }

theorem test_flit_received_damaged : partner hubEnd0 = some dieEnd0 ∧ flitGood 0 = false ∧
    fget (wireAt 0) (LINK_CTRL hubEnd0) LINK_CTRL_RETRY_LIMIT = 8 ∧
    after (.flitReceived hubEnd0 .intact) (wireAt 0) (fun t => (getLink t dieEnd0).wire == [] && rd t (CNT_CRC_ERR hubEnd0) == 1 &&
      (getLink t hubEnd0).ctl == [mkCtl ctlRetryReq 0 0 0 0 false] && (getLink t hubEnd0).retryWait) = true := by decide +kernel

theorem test_flit_received_idle :
    let f := mkFlit 0 5 0 1 0 [] []
    let b := updLink (wireAt f) hubEnd0 fun l => { l with nextFsn := 8, replay := [⟨0, []⟩, ⟨1, []⟩, ⟨2, []⟩] }
    flitGood f = true ∧ flitKind f = 1 ∧ flitUses f = 0 ∧ flitAck f + 1 ≤ 8 ∧
      after (.flitReceived hubEnd0 .intact) b (fun t => (getLink t hubEnd0).replay == [⟨1, []⟩, ⟨2, []⟩] && t.regs == rig.regs) = true := by
  decide +kernel

theorem test_flit_received_message :
    let f := mkFlit 0 4095 0 0 0 [] []
    flitGood f = true ∧ flitKind f = 0 ∧ flitAck f = 4095 ∧ flitFsn f = 0 ∧
      after (.flitReceived hubEnd0 .intact) (wireAt f) (fun t => (getLink t hubEnd0).expect == 1 && t.regs == rig.regs) = true := by
  decide +kernel

theorem test_retry_timer_expiry :
    let b := updLink rig hubEnd0 fun l => { l with retryWait := true, stable := true }
    after (.retryTimerExpiry hubEnd0) b (fun t => (getLink t hubEnd0).retryCount == 1 && (getLink t hubEnd0).ctl.length == 1) = true ∧
    after (.retryTimerExpiry hubEnd0) (updLink b hubEnd0 fun l => { l with retryCount := 8 }) (fun t =>
      linkState t hubEnd0 == 1 && fget t (LINK_STATUS hubEnd0) LINK_STATUS_LAST_RETRAIN_CAUSE == 2 &&
        bitOf (rd t (LINK_ERR hubEnd0)) 1) = true ∧
    same (.retryTimerExpiry hubEnd0) rig = true := by decide +kernel

theorem test_toll_return_timeout :
    let b := takeTolls rig hubEnd0 0 false
    pendOf (freeTolls b hubEnd0 0 false) hubEnd0 (0, 0) ≠ 0 ∧
      after (.tollReturnTimeout hubEnd0) (freeTolls b hubEnd0 0 false) (fun t => (getLink t hubEnd0).nextFsn == 1 &&
        (getLink t hubEnd0).replay.length == 1 && (getLink t hubEnd0).wire.length == 1) = true ∧
      same (.tollReturnTimeout hubEnd0) (rigAt hubEnd0 1) = true := by decide +kernel

theorem test_crc_window : after (.crcWindow hubEnd0) (updLink rig hubEnd0 fun l => { l with crcCount := 7, crcOver := true })
    (fun t => t == rig) = true := by decide +kernel

theorem test_lock_done : after (.lockDone hubEnd0) (rigAt hubEnd0 1) (fun t => linkState t hubEnd0 == 2) = true ∧
    same (.lockDone hubEnd0) rig = true := by decide +kernel

/-- Both ends of die 0's feeder in OFFER, the die's with a width cap. -/
def offering (w g : Nat) : Block :=
  fset (fset (setLinkState (rigAt hubEnd0 2) dieEnd0 2) (LINK_CTRL dieEnd0) LINK_CTRL_WIDTH_CAP w)
    (LINK_CTRL dieEnd0) LINK_CTRL_SEGMENT g

def anyOffer : LinkOffer := { width := 0, segment := 0, kind := 1, agent := 0 }

theorem test_offer_accepted : partnerOffer (offering 1 1) hubEnd0 anyOffer = some (1, 1) ∧ offerValid 1 1 = true ∧
    minimumRule 0 0 1 1 = some (1, 1) ∧
    after (.offerAccepted hubEnd0 anyOffer) (offering 1 1) (fun t => linkState t hubEnd0 == 3 &&
      (getLink t hubEnd0).att.agreed == some (1, 1)) = true ∧
    same (.offerAccepted hubEnd0 anyOffer) rig = true := by decide +kernel

theorem test_offer_without_agreement :
    let b := fset (fset (offering 1 1) (LINK_CTRL hubEnd0) LINK_CTRL_WIDTH_CAP 1) (LINK_CTRL hubEnd0) LINK_CTRL_SEGMENT 0
    minimumRule 1 0 1 1 = none ∧ after (.offerAccepted hubEnd0 anyOffer) b (fun t => linkState t hubEnd0 == 1 &&
      fget t (LINK_STATUS hubEnd0) LINK_STATUS_LAST_TRAIN_FAIL == 3 &&
      fget t (LINK_STATUS hubEnd0) LINK_STATUS_FAILED_ATTEMPTS == 1) = true := by decide +kernel

/-- The hub's end in TEST with a width agreed. -/
def testing : Block := updLink (rigAt hubEnd0 3) hubEnd0 fun l => { l with att := { l.att with agreed := some (2, 3) } }

theorem test_lane_test_done : resultHere testing hubEnd0 = true ∧
    after (.laneTestDone hubEnd0 [] 0) testing (fun t => linkState t hubEnd0 == 4 && linkWidth t hubEnd0 == 2 &&
      fget t (LINK_STATUS hubEnd0) LINK_STATUS_SEGMENT == 3 && fget t (LINK_LANE_TEST hubEnd0) LINK_LANE_TEST_QTESTED == 8) = true ∧
    after (.laneTestDone hubEnd0 [255] 0) testing (fun t => linkState t hubEnd0 == 1 &&
      fget t (LINK_STATUS hubEnd0) LINK_STATUS_LAST_TRAIN_FAIL == 4) = true ∧
    same (.laneTestDone hubEnd0 [] 0) rig = true := by decide +kernel

theorem test_active_stable : after (.activeStable hubEnd0) rig (fun t => (getLink t hubEnd0).stable) = true ∧
    same (.activeStable hubEnd0) (rigAt hubEnd0 4) = true := by decide +kernel

theorem test_train_timeout :
    after (.trainTimeout hubEnd0) (rigAt hubEnd0 3) (fun t => linkState t hubEnd0 == 1 &&
      fget t (LINK_STATUS hubEnd0) LINK_STATUS_LAST_TRAIN_FAIL == 8 && bitOf (rd t (LINK_ERR hubEnd0)) 4 &&
      fget t (LINK_STATUS hubEnd0) LINK_STATUS_FAILED_ATTEMPTS == 1) = true ∧
    after (.trainTimeout hubEnd0) (fset (rigAt hubEnd0 4) (LINK_STATUS hubEnd0) LINK_STATUS_FAILED_ATTEMPTS 2) (fun t =>
      linkState t hubEnd0 == 7 && fget t (LINK_STATUS hubEnd0) LINK_STATUS_DOWN_REASON == 2 &&
      fget t (LINK_STATUS hubEnd0) LINK_STATUS_LAST_TRAIN_FAIL == 5) = true ∧
    same (.trainTimeout hubEnd0) rig = true := by decide +kernel

theorem test_partner_lock_seen :
    let b := setLinkState rig dieEnd0 1
    partnerLocks b hubEnd0 = true ∧
      after (.partnerLockSeen hubEnd0) (setLinkState b hubEnd0 4) (fun t => linkState t hubEnd0 == 1) = true ∧
      after (.partnerLockSeen hubEnd0) (updLink b hubEnd0 fun l => { l with stable := true }) (fun t => linkState t hubEnd0 == 1 &&
        fget t (LINK_STATUS hubEnd0) LINK_STATUS_LAST_RETRAIN_CAUSE == 4) = true ∧
      same (.partnerLockSeen hubEnd0) rig = true := by decide +kernel

theorem test_parking : nothingToSend rig hubEnd0 = true ∧
    after (.parkRequest hubEnd0) rig (fun t => (getLink t hubEnd0).parkReq && (getLink t hubEnd0).ctl.length == 1) = true ∧
    after (.parkRetry hubEnd0) (updLink rig hubEnd0 fun l => { l with parkReq := true }) (fun t =>
      (getLink t hubEnd0).ctl.length == 1) = true ∧
    same (.parkRequest hubEnd0) (rigAt hubEnd0 4) = true ∧ same (.parkRetry hubEnd0) (rigAt hubEnd0 4) = true ∧
    after (.parkExit hubEnd0) (rigAt hubEnd0 6) (fun t => linkState t hubEnd0 == 1 &&
      fget t (LINK_STATUS hubEnd0) LINK_STATUS_LAST_RETRAIN_CAUSE == 7) = true ∧
    same (.parkExit hubEnd0) rig = true := by decide +kernel

/-- The spur end of HUB-N in a state, its site free of regions. -/
def spurAt (st : Nat) : Block := rigAt (.hub .n 6) st

/-- A guest's OFFER: full width, kind 2, agent 12, revision 1, class B (R101, R235). -/
def guestOffer : Word := BitVec.ofNat 64 (1 + place 2 9 8 + place 12 14 10 + place 1 19 16)

theorem test_guest_offer : sbReserved guestOffer = false ∧
    after (.offer .n guestOffer) (spurAt 2) (fun t => (getSpur t .n).offer == some guestOffer &&
      fget t (SPUR_BRINGUP .n) SPUR_BRINGUP_OFFER_SEEN == 1 && fget t (SPUR_BRINGUP .n) SPUR_BRINGUP_REVISION == 1) = true := by
  decide +kernel

theorem test_guest_allot :
    let p := BitVec.ofNat 64 (2 + place 0 6 4 + place 8 19 8)
    sbReserved p = false ∧ after (.allot .n p) (updSpur (spurAt 2) .n fun x => { x with offer := some guestOffer }) (fun t =>
      (getSpur t .n).allots == [(8, 0)] && t.regs == (spurAt 2).regs) = true := by decide +kernel

theorem test_guest_result :
    let p := BitVec.ofNat 64 (3 + place 15 7 4)
    sbReserved p = false ∧ after (.result .n p) (spurAt 3) (fun t => (getSpur t .n).result &&
      fget t (LINK_LANE_TEST (.hub .n 6)) LINK_LANE_TEST_PARTNER_QTESTED == 15) = true := by decide +kernel

theorem test_guest_power :
    let b := updSpur rig .n fun x => { x with pwrReq := some (3, 9) }
    let p := BitVec.ofNat 64 (5 + place 1 7 4 + place 9 15 8 + place 4 23 16)
    sbReserved p = false ∧ after (.pwrRsp .n p) b (fun t => (getSpur t .n).pwrReq == none &&
        (getSpur t .n).pwrAns == some (1, 4)) = true ∧
      after (.pwrRspTimeout .n) b (fun t => (getSpur t .n).pwrAns == some (2, 0xFF) && rd t (CNT_SPUR .n 5) == 1) = true ∧
      same (.pwrRspTimeout .n) rig = true := by decide +kernel

theorem test_sb_fault : sbReserved 7 = true ∧ after (.sbFault .n 7 true) rig (fun t => rd t (CNT_SPUR .n 2) == 1) = true ∧
    sbReserved guestOffer = false ∧ same (.sbFault .n guestOffer true) rig = true := by decide +kernel

theorem test_message_forward :
    let b := updLink rig dieEnd0 fun l => { l with rxq := l.rxq.set [] 2 [compMsg] }
    let c := updLink rig way7 fun l => { l with rxq := l.rxq.set [] 2 [compMsg] }
    after (.messageForward dieEnd0 2) b (fun t => getBox t (boxDie 0) 2 == [compMsg] && (getLink t dieEnd0).rxq.get [] 2 == []) = true ∧
      hubHop c (endHub way7) (hDst compMsg.hdr) = .link hubEnd0 ∧ onHighway hubEnd0 = false ∧
      nextHolds c hubEnd0 2 compMsg = false ∧ same (.messageForward way7 2) c = true := by decide +kernel

/-- `rig` whose hub end of die 0's feeder holds one header toll of RSP. -/
def tolled : Block := applyRet hubEnd0 (tollRet 1 0 2) (forEach (List.range 6) (restartLedger hubEnd0) rig)

theorem test_message_forward_on :
    let c := updLink tolled way7 fun l => { l with rxq := l.rxq.set [] 2 [compMsg] }
    nextHolds c hubEnd0 2 compMsg = true ∧ after (.messageForward way7 2) c (fun t =>
      (getLink t hubEnd0).txq.get [] 2 == [compMsg] && (getLink t way7).rxq.get [] 2 == []) = true := by decide +kernel

/-! ## The Tollhouse interface -/

/-- Bytes of a list of numbers. -/
def bytes (l : List Nat) : List Byte := l.map (BitVec.ofNat 8)

/-- Page `m` runs a secure-world request: command code, payload, handle and DRY_RUN. -/
def ask (b : Block) (m code : Nat) (pay : List Byte) (handle : Nat := 0) (dry : Bool := false) : Block :=
  updMbx (fset b (TH_MBX_STATE m) TH_MBX_STATE_STATE 1) m fun x => { x with
    req0 := BitVec.ofNat 64 (code + place 1 31 16 + place pay.length 47 32 + if dry then 2 ^ 49 else 0)
    req1 := BitVec.ofNat 64 handle, payload := pay, world := true, order := 1 }

/-- The hypotheses of `Passes`, as a test. -/
def passes (b : Block) (m : Nat) (k : Card) (check : Block → Call → Option (Nat × Nat)) : Bool :=
  mayBegin b m k.code && (cardFault b (callOf b m) k).isNone && (check b (callOf b m)).isNone && !(callOf b m).dry

/-- The answer of a page. -/
def answerOf (b : Block) (m : Nat) : Option (Nat × Nat × Nat × List Byte) := (getMbx b m).result

/-- The status that a page's command has got. -/
def statusOf (b : Block) (m : Nat) : Option Nat := (answerOf b m).map (·.1)

theorem test_passes_means (b : Block) (m : Nat) (k : Card) (check : Block → Call → Option (Nat × Nat))
    (h : passes b m k check = true) : Passes (onBlk b) m k check := by
  simp only [passes, Bool.and_eq_true, Option.isNone_iff_eq_none, Bool.not_eq_true'] at h
  exact ⟨h.1.1.1, h.1.1.2, h.1.2, h.2⟩

theorem test_ring : accepts rig (callerOf rig core0) (TH_MBX_DOORBELL 16) true = true ∧ mbxBusy rig 16 = false ∧
    after (.ring core0 16) (wr rig (TH_MBX_REQ_HDR0 16) (2 + place 2 47 32)) (fun t => mbxState t 16 == 1 &&
      (getMbx t 16).payload == [0, 0] && (getMbx t 16).world && (getMbx t 16).order == 1) = true ∧
    after (.ring core0 16) (ask rig 16 2 []) (fun t => bitOf (rd t (TH_MBX_STATE 16)) 2 && (getMbx t 16).order == 1) = true := by
  decide +kernel

theorem test_abort : thServes rig (pageServer rig 16) = true ∧ notAbortable.contains 0x301 = false ∧
    after (.abort core0 16) (ask rig 16 0x301 []) (fun t => answerOf t 16 == some (0xB, 0, 0, [])) = true ∧
    same (.abort core0 16) rig = true ∧ same (.abort core0 16) (ask rig 16 0x104 []) = notAbortable.contains 0x104 := by
  decide +kernel

theorem test_header_write : after (.mbxHeaderWrite core0 16 0x20 8 0x123) rig (fun t => rd t (TH_MBX_REQ_HDR0 16) == 0x123) = true ∧
    after (.mbxHeaderWrite core0 16 0x28 8 0x1_0000_0005) rig (fun t => rd t (TH_MBX_REQ_HDR1 16) == 5) = true ∧
    after (.mbxHeaderWrite core0 16 0x40 8 0x0070_0000_0000_0009) rig (fun t => fget t (TH_MBX_MSI 16) TH_MBX_MSI_ADDR == 9 &&
      fget t (TH_MBX_MSI 16) TH_MBX_MSI_DATA == 0x700) = true := by decide +kernel

theorem test_window_write : after (.mbxHeaderWrite core0 16 0x1FF8 8 0x0201) rig (fun t => winByte (getMbx t 16) 4088 == 1 &&
      winByte (getMbx t 16) 4089 == 2 && winByte (getMbx t 16) 4087 == 0) = true ∧
    after (.mbxHeaderWrite core0 16 0x1FF8 8 0x0201) (ask rig 16 2 []) (fun t => bitOf (rd t (TH_MBX_STATE 16)) 2 &&
      winByte (getMbx t 16) 4088 == 0) = true := by decide +kernel

theorem test_command_complete :
    let b := reply (ask rig 16 2 (bytes [9])) 16 thOk 3 0 (bytes [9])
    after (.commandComplete 16) b (fun t => mbxState t 16 == 2 && bitsOf (rd t (TH_MBX_RSP_HDR0 16)) 31 16 == 1 &&
      bitsOf (rd t (TH_MBX_RSP_HDR0 16)) 61 48 == 3 && fget t (TH_MBX_STATE 16) TH_MBX_STATE_LAST_SEQ == 1 &&
      (getMbx t 16).storedPayload == bytes [9]) = true ∧
    after (.commandComplete 16) (ask rig 16 0x999 []) (fun t => mbxState t 16 == 2 &&
      bitsOf (rd t (TH_MBX_RSP_HDR0 16)) 15 0 == 1) = true := by decide +kernel

theorem test_command_replayed :
    let b := fset (fset (ask rig 16 2 []) (TH_MBX_STATE 16) TH_MBX_STATE_HAVE_LAST 1) (TH_MBX_STATE 16) TH_MBX_STATE_LAST_SEQ 1
    isReplay b 16 = true ∧ after (.commandComplete 16) (updMbx b 16 fun x => { x with stored0 := 0x10005 }) (fun t =>
      bitOf (rd t (TH_MBX_RSP_HDR0 16)) 63 && bitsOf (rd t (TH_MBX_RSP_HDR0 16)) 62 0 == 0x10005) = true := by decide +kernel

theorem test_command_timeout : after (.commandTimeout 16) (await (ask rig 16 0x302 []) 16 0 0) (fun t => mbxState t 16 == 2 &&
      bitsOf (rd t (TH_MBX_RSP_HDR0 16)) 15 0 == thTimeout && fget t (TH_MBX_STATE 16) TH_MBX_STATE_LAST_SEQ == 1) = true ∧
    same (.commandTimeout 16) rig = true := by decide +kernel

theorem test_i3c_transfer : after (.i3cTransfer (.write (bytes [0x20, 0, 1, 2, 3, 4]))) rig (fun t =>
      rd t (TH_MBX_REQ_HDR0 17) == 0x04030201 && (getMbx t 17).pointer == 0x24) = true ∧
    after (.i3cTransfer (.read 4)) (updMbx rig 17 fun x => { x with pointer := 8 }) (fun t =>
      t.outbox == [.i3cBytes (bytes [0, 0, 0, 0])] && (getMbx t 17).pointer == 12) = true ∧
    after (.i3cTransfer (.write (bytes [0x20, 0, 1]))) rig (fun t => t.regs == rig.regs && (t.evPath.get [] 0).length == 1) = true := by
  decide +kernel

theorem test_i3c_address_match : same (.i3cAddressMatch .bmc .i3c false) rig = true ∧
    after (.i3cAddressMatch .platform .i3c true) rig (fun t => t.outbox == [.i3cAck .platform true]) = true ∧
    after (.i3cAddressMatch .bmc .i3c true) { rig with power := { rig.power with pk := 3, window := true } } (fun t =>
      t.power.matchBmc && t.outbox == [.i3cAck .bmc false]) = true := by decide +kernel

/-- Checks decide the status: a wrong LENGTH, a reserved field, a dry run, and a page that may not begin (R59, R60). -/
theorem test_checks : after (.thPoolQuery 16) (ask rig 16 3 (bytes [0])) (fun t => statusOf t 16 == some 2) = true ∧
    after (.thPoolQuery 16) (ask rig 16 3 (bytes [9, 0, 0, 0])) (fun t => statusOf t 16 == some 3) = true ∧
    after (.thPoolQuery 16) (ask rig 16 3 (bytes [0, 0, 0, 0]) 0 true) (fun t => answerOf t 16 == some (0, 0, 0, [])) = true ∧
    after (.thPoolQuery 16) (ask rig 16 3 (bytes [1, 0, 0, 0])) (fun t => statusOf t 16 == some 3) = true ∧
    same (.thPoolQuery 16) rig = true := by decide +kernel

theorem test_echo : (callOf (ask rig 16 2 (bytes [7, 8])) 16).len = 2 ∧ passes (ask rig 16 2 (bytes [7, 8])) 16 (echoCard 2) noCheck = true ∧
    after (.thEchoPayload 16) (ask rig 16 2 (bytes [7, 8])) (fun t => answerOf t 16 == some (0, 0, 0, bytes [7, 8])) = true := by
  decide +kernel

theorem test_identity : (getTh rig .n).recovery = false ∧ passes (ask rig 16 1 []) 16 identityCard noCheck = true ∧
    after (.thIdentityGet 16) (ask rig 16 1 []) (fun t => statusOf t 16 == some 0) = true ∧
    same (.thIdentityGet 16) (updTh (ask rig 16 1 []) .n fun x => { x with recovery := true, running := false }) = true := by
  decide +kernel

theorem test_pool_query : passes (ask rig 16 3 (bytes [0, 0, 0, 0])) 16 poolCard poolCheck = true ∧
    after (.thPoolQuery 16) (ask rig 16 3 (bytes [0, 0, 0, 0])) (fun t => (answerOf t 16).map (fun r => (r.1, (r.2.2.2.take 4))) ==
      some (0, bytes [0, 8, 0, 8])) = true := by decide +kernel

/-- `rig` with the region at index 0 of HUB-N created, its handle 0x5001_0000 with the partition field of all. -/
def withRegion : Block := { rig with objs := rig.objs.set {} (objKey 5 0) { gen := 1, live := true, part := 15 } }

theorem test_handle_query : passes (ask withRegion 16 4 [] (handleOf withRegion 5 0)) 16 handleCard handleCheck = true ∧
    after (.thHandleQuery 16) (ask withRegion 16 4 [] (handleOf withRegion 5 0)) (fun t => statusOf t 16 == some 0) = true := by
  decide +kernel

theorem test_link_status_get : passes (ask rig 16 0x801 (bytes [1, 7, 0, 0])) 16 linkStatusCard linkStatusCheck = true ∧
    after (.thLinkStatusGet 16) (ask rig 16 0x801 (bytes [1, 7, 0, 0])) (fun t =>
      (answerOf t 16).map (fun r => (r.1, r.2.2.2.length)) == some (0, 64)) = true := by decide +kernel

theorem test_plan_get : passes (ask rig 16 0x102 []) 16 planGetCard noCheck = true ∧
    after (.thPartitionPlanGet 16) (ask rig 16 0x102 []) (fun t => answerOf t 16 == some (0, 0, 0, planBytes rig.pkg.plan)) = true := by
  decide +kernel

theorem test_freeze_dump :
    passes (ask rig 16 0x702 (bytes [1, 7, 0, 0])) 16 dumpCard (fun b c => need (chanAllowed b c) thDenied none) = true ∧
    after (.thMcFreezeDump 16) (ask rig 16 0x702 (bytes [1, 7, 0, 0])) (fun t =>
      (answerOf t 16).map (fun r => (r.1, r.2.2.2.length)) == some (0, 3136)) = true := by decide +kernel

theorem test_link_train : let b := ask rig 16 0x802 (bytes [0, 0, 3, 0, 0, 0, 0, 0])
    passes b 16 linkTrainCard linkTrainCheck = true ∧
      after (.thLinkTrain 16) b (fun t => (getMbx t 16).waiting && linkState t hubEnd0 == 7) = true := by decide +kernel

/-- 24 bytes: 8 single bytes and two 8-byte fields. -/
def pay24 (l : List Nat) (x y : Nat) : List Byte := bytes l ++ natToBytes 8 x ++ natToBytes 8 y

theorem test_sc_lock : let b := ask rig 16 0xA01 (pay24 [0, 8, 0, 0, 0, 0, 0, 0] 0 0)
    passes b 16 scLockCard scLockCheck = true ∧ partSlices b 0 ≠ [] ∧
      after (.thScLock 16) b (fun t => (getMbx t 16).waiting && fget t (HUB_SC_LOCK .s) HUB_SC_LOCK_WAYS_HI == 8) = true := by
  decide +kernel

theorem test_sc_maint : let b := ask rig 16 0xA02 (bytes [0, 3, 0, 0])
    passes b 16 scMaintCard scMaintCheck = true ∧ after (.thScMaint 16) b (fun t => (getMbx t 16).waiting && t.harts == b.harts) = true := by
  decide +kernel

theorem test_region_create : let b := ask rig 16 0x901 (pay24 [0, 1, 0, 0, 0, 0, 0, 0] 0x2000001000 0x1000)
    passes b 16 regionCreateCard regionCreateCheck = true ∧ regionIndex b (callOf b 16) = some 0 ∧
      after (.thWorldRegionCreate 16) b (fun t => (getMbx t 16).waiting && (t.objs.get {} (objKey 5 0)).live &&
        inRegion t .n 0 0x2000001FFF && !inRegion t .n 0 0x2000002000) = true := by decide +kernel

theorem test_region_destroy : let b := ask withRegion 16 0x902 [] (handleOf withRegion 5 0)
    passes b 16 regionDestroyCard noCheck = true ∧ after (.thWorldRegionDestroy 16) b (fun t => (getMbx t 16).waiting &&
      rd t (HUB_WORLD_REGION_BASE .n 0) == 0 && (t.objs.get {} (objKey 5 0)).destroying) = true := by decide +kernel

theorem test_world_claim : passes (ask rig 16 0x903 (bytes [0, 1, 31, 0, 1, 0, 0, 0])) 16 claimCard noCheck = true ∧
    after (.thWorldClaim 16) (ask rig 16 0x903 (bytes [0, 1, 31, 0, 1, 0, 0, 0])) (fun t => bitOf (rd t (HUB_PIN_WORLD .s)) 31) = true ∧
    after (.thWorldClaim 16) (ask rig 16 0x903 (bytes [5, 1, 0, 0, 1, 0, 0, 0])) (fun t => (getSpur t .s).claimed) = true := by
  decide +kernel

theorem test_retain_set : let b := ask rig 16 0x701 (bytes [0, 0, 1, 0])
    passes b 16 retainCard retainCheck = true ∧ after (.thMcRetainSet 16) b (fun t => statusOf t 16 == some 0 &&
      (getChan t 15).retain == 1) = true := by decide +kernel

theorem test_mc_release : let b := ask (fset rig (MC_FREEZE_STATUS .s 7) MC_FREEZE_STATUS_FROZEN 1) 16 0x703 (bytes [1, 7, 0, 0, 0, 0, 0, 0])
    passes b 16 releaseCard releaseCheck = true ∧ after (.thMcRelease 16) b (fun t => (getMbx t 16).waiting &&
      (getChan t 15).training) = true := by decide +kernel

theorem test_mc_retrain : let b := ask rig 16 0x704 (bytes [1, 7, 0, 0])
    passes b 16 retrainCard retrainCheck = true ∧ after (.thMcRetrain 16) b (fun t => (getMbx t 16).waiting &&
      (getChan t 15).training && (getChan t 15).rows == {}) = true := by decide +kernel

/-- `rig` with 16 GiB behind every channel. -/
def rigMem : Block := forEach (List.range 16) (fun c b => updChan b c fun ch => { ch with capacity := 2 ^ 34 }) rig

/-- A plan: quarters of HUB-N to partition 0, of HUB-S to partition 1, in mode U. -/
def newPlan : Plan :=
  { ents := [{ qmask := 3, memBase := 128, vector := 0x2000000000 }, { qmask := 12, memBase := 128, vector := 0x2000000000 }, {}, {}] }

/-- The request to store a plan, with APPLY_NOW. -/
def planAsk (p : Plan) (apply : Nat) : List Byte := bytes [1, apply] ++ (planBytes p).drop 2

theorem test_plan_set : let b := ask rigMem 16 0x101 (planAsk newPlan 0)
    passes b 16 planSetCard planSetCheck = true ∧ after (.thPartitionPlanSet 16) b (fun t => statusOf t 16 == some 0 &&
      t.pkg.plan == newPlan && t.pkg.running == rig.pkg.running && t.regs == b.regs) = true := by decide +kernel

/-- R398: a plan without memory behind it, and one that needs the running partition HELD. -/
theorem test_plan_refused : let b := ask rigMem 16 0x101 (planAsk newPlan 1); let bad := ask rig 16 0x101 (planAsk newPlan 1)
    planValid bad newPlan = false ∧ mayBegin bad 16 0x101 = true ∧ cardFault bad (callOf bad 16) planSetCard = none ∧
      after (.thPartitionPlanSet 16) bad (fun t => statusOf t 16 == some thBadField && t.pkg.plan == rig.pkg.plan) = true ∧
      (mustBeHeld b newPlan).contains 0 = true ∧ planValid b newPlan = true ∧ partState b .n 0 ≠ 1 ∧
      after (.thPartitionPlanSet 16) b (fun t => statusOf t 16 == some thBusy && t.pkg.plan == rig.pkg.plan) = true := by
  decide +kernel

/-- A TH_RESET request. -/
def resetAsk (b : Block) (l : List Nat) : Block := ask b 16 codeReset (bytes (l ++ List.replicate (16 - l.length) 0))

theorem test_th_reset_package : let b := resetAsk rig [1, 0]
    passes b 16 resetCard resetCheck = true ∧ after (.thReset 16) b (fun t =>
      answerOf t 16 == some (0, 0, 0, natToBytes 8 0) && t.regs == b.regs && t.pkg == b.pkg) = true := by decide +kernel

theorem test_th_reset_core : let b := resetAsk rig [4, 0, 0, 0, 19]
    passes b 16 resetCard resetCheck = true ∧ after (.thReset 16) b (fun t => coreIsHeld t 19 && drains t 19 && !drains t 18 &&
      fget t (FCD_RESET_STATUS 0) FCD_RESET_STATUS_LAST_SCOPE == 4) = true := by decide +kernel

theorem test_th_reset_die : let b := resetAsk rig [3, 1, 1, 0]
    passes b 16 resetCard resetCheck = true ∧ after (.thReset 16) b (fun t => agentLost t .n 0 && !(getDie t 0).inReset &&
      getRun t 0 == 7) = true := by decide +kernel

theorem test_th_reset_partition : let b := resetAsk rig [2, 1, 0, 0]
    passes b 16 resetCard resetCheck = true ∧ after (.thReset 16) b (fun t => partState t .n 0 == 3 && partState t .s 0 == 3) = true := by
  decide +kernel

theorem test_th_reset_release :
    let b := resetAsk (fset (fset rig (HUB_PART_STATE .n) HUB_PART_STATE_STATE 1) (HUB_PART_STATE .s) HUB_PART_STATE_STATE 1) [2, 2, 0, 0]
    passes b 16 resetCard resetCheck = true ∧ after (.thReset 16) b (fun t => t.pkg.releaseDue.contains 0 && t.regs == b.regs) = true := by
  decide +kernel

theorem test_clock_source_set :
    let r := fset rig (HUB_CLK_STATUS .n) HUB_CLK_STATUS_FALLBACK_OK 1
    let b := ask r 16 codeClock (bytes [1, 0, 0, 0])
    let c := ask (fset r (HUB_CLK_STATUS .n) HUB_CLK_STATUS_SOURCE 1) 16 codeClock (bytes [1, 0, 0, 0])
    passes b 16 clockCard clockCheck = true ∧ after (.thClockSourceSet 16) b (fun t => (getMbx t 16).waiting &&
      fget t (FCD_CLK_STATUS 11) HUB_CLK_STATUS_SOURCE == 1) = true ∧
      after (.thClockSourceSet 16) c (fun t => statusOf t 16 == some 0) = true := by decide +kernel

theorem test_split_end :
    let s := forEach [Hub.n, Hub.s] (fun h b => fset b (HUB_SPLIT_STATUS h) HUB_SPLIT_STATUS_SPLIT 1) rig
    let b := ask (fset (fset s (HUB_PART_STATE .n) HUB_PART_STATE_STATE 1) (HUB_PART_STATE .s) HUB_PART_STATE_STATE 1) 16 0x105 []
    passes b 16 splitEndCard splitEndCheck = true ∧ after (.thSplitEnd 16) b (fun t => statusOf t 16 == some 0 && !isSplit t) = true := by
  decide +kernel

theorem test_pkg_state_set : let b := ask rig 16 0x201 (bytes [0, 3, 0, 0, 0, 0, 0, 0] ++ natToBytes 8 0x2000001000)
    passes b 16 pkgStateCard pkgStateCheck = true ∧ after (.thPkgStateSet 16) b (fun t => statusOf t 16 == some 0 &&
      t.power.partCeil.get {} 0 == { deepest := 3, secure := true, resume := 0x2000001000 }) = true := by decide +kernel

theorem test_power_limit_set :
    let b := ask rig 16 0x202 (natToBytes 2 600 ++ natToBytes 2 1100 ++ natToBytes 2 10000 ++ bytes [0, 0])
    passes b 16 powerLimitCard noCheck = true ∧ after (.thPowerLimitSet 16) b (fun t => t.power.sustained == 600 &&
      t.power.fast == 1100 && t.power.windowMs == 10000 && t.regs == b.regs) = true ∧
    after (.thPowerLimitSet 16) (ask rig 16 0x202 (natToBytes 2 599 ++ natToBytes 2 1100 ++ natToBytes 2 10000 ++ bytes [0, 0]))
      (fun t => statusOf t 16 == some thBadField && t.power.sustained == 900) = true := by decide +kernel

theorem test_channel_create : let b := ask rig 16 0x301 (bytes ([0, 0, 15, 0, 0, 0, 0, 0, 0xFF, 0xFF] ++ List.replicate 6 0))
    passes b 16 chanCreateCard chanCreateCheck = true ∧ chanCreatePick b (callOf b 16) = some (1024, 15) ∧
      after (.thChannelCreate 16) b (fun t => (t.objs.get {} (objKey 1 1024)).live && (getChanDm t .n 1024).engine == 15 &&
        (getChanDm t .n 1024).part == some 0) = true := by decide +kernel

/-- `rig` with channel 5 of HUB-N, on engine 2 of partition 0, in a state; its engine is up. -/
def withChan (st : Nat) : Block :=
  let b := { rig with objs := rig.objs.set {} (objKey 1 5) { live := true } }
  let b := wr b (HUB_MILEPOST_DM .n) 4
  setChanState (updChanDm b .n 5 fun x => { x with live := true, part := some 0, engine := 2 }) .n 5 st

theorem test_channel_destroy : let b := ask (withChan 1) 16 codeChanDestroy [] (handleOf (withChan 1) 1 5)
    passes b 16 (dmCard codeChanDestroy 0) (fun b c => dmCheck b c (need (dmNamed b c).fn.isNone thBusy none)) = true ∧
      after (.thChannelDestroy 16) b (fun t => (getMbx t 16).waiting && !(getChanDm t .n 5).live &&
        !(t.objs.get {} (objKey 1 5)).live) = true := by decide +kernel

theorem test_dirty_log :
    let b := ask (withChan 1) 16 codeDirtyLog (bytes [1, 0, 0, 0, 0, 0, 0, 0] ++ natToBytes 8 0x2000000000 ++ natToBytes 8 0x1000 ++
      natToBytes 4 64 ++ natToBytes 4 0) (handleOf (withChan 1) 1 5)
    passes b 16 dirtyCard dirtyCheck = true ∧ (callOf b 16).u8 0 = 1 ∧ after (.thChannelDirtyLog 16) b (fun t =>
      (getChanDm t .n 5).log == some (0x1000, 64, 0x2000000000) && answerOf t 16 == some (0, 0, 0, natToBytes 8 0)) = true := by
  decide +kernel

theorem test_channel_freeze : let b := ask (withChan 1) 16 codeFreeze (bytes [0, 0, 0, 0]) (handleOf (withChan 1) 1 5)
    let z := ask (updChanDm (withChan 3) .n 5 fun x => { x with before := 2 }) 16 codeFreeze (bytes [1, 0, 0, 0]) (handleOf (withChan 3) 1 5)
    passes b 16 freezeCard freezeCheck = true ∧ after (.thChannelFreeze 16) b (fun t => (getMbx t 16).waiting) = true ∧
      passes z 16 freezeCard freezeCheck = true ∧ after (.thChannelFreeze 16) z (fun t => statusOf t 16 == some 0 &&
        chanState t .n 5 == 2) = true := by decide +kernel

/-- A save record of a stopped channel: ORDER 4, HEAD 3, TAIL 5, no progress. -/
def saveRecord : List Byte :=
  let p := bytes [1, 2, 0, 4, 0, 0, 0, 0] ++ natToBytes 4 3 ++ natToBytes 4 5 ++ natToBytes 8 0x2000000000 ++ List.replicate 228 0
  p ++ natToBytes 4 (crc32c p)

theorem test_channel_restore : let b := ask (withChan 0) 16 0x304 saveRecord (handleOf (withChan 0) 1 5)
    passes b 16 (dmCard 0x304 256) restoreCheck = true ∧ after (.thChannelRestore 16) b (fun t => statusOf t 16 == some 0 &&
      chanState t .n 5 == 2 && fget t (DM_CH_STATUS .n 5) DM_CH_STATUS_HEAD == 3 &&
      fget t (DM_CH_DOORBELL .n 5) DM_CH_DOORBELL_TAIL == 5 && (getChanDm t .n 5).prog == {}) = true := by decide +kernel

/-- Payload of TH_EVENT_RING_CREATE: a first-in, first-out ring of 16 records for partition 0 on HUB-S. -/
def ringPay : List Byte := bytes [0, 1, 0, 4, 0xFF, 0x3F, 0x1F, 0] ++ List.replicate 16 0 ++ natToBytes 4 1 ++ natToBytes 4 0

theorem test_ring_create : let b := ask rig 16 0x401 ringPay
    passes b 16 ringCreateCard ringCreateCheck = true ∧ ringPick b (callOf b 16) = some 64 ∧
      after (.thEventRingCreate 16) b (fun t => answerOf t 16 == some (0, 0, handleOf t 2 64, []) &&
        fon t (HUB_EVR_STATUS (.ring .s 0)) HUB_EVR_STATUS_CREATED && (getRing t 64).classMask == 0x3FFF) = true := by decide +kernel

/-- `rig` with ring 0 of HUB-S as `test_ring_create` makes it. -/
def withRing : Block := ringCreateAct (ask rig 16 0x401 ringPay) (callOf (ask rig 16 0x401 ringPay) 16)

theorem test_ring_destroy : let b := ask (updMbx withRing 16 fun _ => {}) 16 codeRingDestroy [] (handleOf withRing 2 64)
    passes b 16 ringDestroyCard (fun b c => need (!objEnds b c 2) thStale none) = true ∧ after (.thEventRingDestroy 16) b (fun t =>
      (getMbx t 16).waiting && (t.objs.get {} (objKey 2 64)).destroying && t.rings == b.rings) = true := by decide +kernel

/-- A record, and `rig` whose always-on ring 1 of HUB-S holds three. -/
def ev (n : Nat) : EvRec := { w0 := BitVec.ofNat 64 n, w1 := 0, w2 := 0, w3 := BitVec.ofNat 64 n }
def withAo : Block := updRing rig (ringKey (.ao .s 1)) fun x => { x with head := [ev 1, ev 2, ev 3] }

theorem test_ao_read : let b := ask withAo 16 0x403 (bytes [1, 1, 2, 0])
    passes b 16 aoReadCard noCheck = true ∧ after (.thEventAoRead 16) b (fun t => statusOf t 16 == some 0 &&
      (getRing t (ringKey (.ao .s 1))).held == [ev 3]) = true := by decide +kernel

theorem test_port_config : let b := ask rig 16 0x501 (bytes [0, 1, 2, 3, 0, 0, 0, 0])
    passes b 16 portConfigCard noCheck = true ∧ after (.thPortConfigSet 16) b (fun t => statusOf t 16 == some 0 &&
      t.pkg.portModes == [0, 1, 2, 3, 0, 0, 0, 0] && t.pkg.modesNow == rig.pkg.modesNow) = true := by decide +kernel

/-- `rig` with HUB-N's lane group 0 an endpoint. -/
def epRig : Block := { rig with pkg := { rig.pkg with modesNow := [4, 0, 0, 0, 0, 0, 0, 0] } }

/-- Payload of TH_EP_FUNCTION_CREATE for the PF. -/
def pfPay : List Byte := bytes ([0, 0, 0, 20, 1, 0, 8, 0, 21] ++ List.replicate 7 0)

theorem test_fn_create : let b := ask epRig 16 0x502 pfPay
    passes b 16 fnCreateCard fnCreateCheck = true ∧ after (.thEpFunctionCreate 16) b (fun t => statusOf t 16 == some 0 &&
      (getFn t .n 0).live && (getFn t .n 0).vectors == 8 && fnExists t .n 0) = true := by decide +kernel

/-- `epRig` with its PF. -/
def withPf : Block := updMbx (fnCreateAct (ask epRig 16 0x502 pfPay) (callOf (ask epRig 16 0x502 pfPay) 16)) 16 fun _ => {}

theorem test_fn_destroy : let b := ask withPf 16 codeFnDestroy [] (handleOf withPf 3 0)
    passes b 16 fnDestroyCard fnDestroyCheck = true ∧ after (.thEpFunctionDestroy 16) b (fun t => (getMbx t 16).waiting &&
      !(getFn t .n 0).live) = true := by decide +kernel

theorem test_ep_lend :
    let b := ask epRig 16 codeLend (pay24 [0, 0, 0, 0, 0, 0, 0, 0] 0 0)
    let l := ask epRig 16 codeLend (pay24 [0, 1, 0, 0, 0, 0, 0, 0] 0x2000000000 0x10000000)
    passes b 16 lendCard lendCheck = true ∧ after (.thEpLendSet 16) b (fun t => (getMbx t 16).waiting && t.io == b.io) = true ∧
      passes l 16 lendCard lendCheck = true ∧ after (.thEpLendSet 16) l (fun t => (getMbx t 16).waiting &&
        (getIo t .n).ep.lent == none) = true := by decide +kernel

/-- Payload of TH_FABRIC_PLAN_SET: one package alone. -/
def fabricPay (apply : Nat) : List Byte := bytes ([1, apply, 0, 1, 0, 0, 0, 0] ++ List.replicate 8 0xFF)

theorem test_fabric_plan_set : let b := ask rig 16 codePlanSet (fabricPay 0); let z := ask rig 16 codePlanSet (fabricPay 1)
    passes b 16 fabricPlanCard fabricPlanCheck = true ∧ after (.thFabricPlanSet 16) b (fun t => statusOf t 16 == some 0 &&
        t.pkg.fabricPlan.members == 1 && t.pkg.rolling == 0) = true ∧
      passes z 16 fabricPlanCard fabricPlanCheck = true ∧ after (.thFabricPlanSet 16) z (fun t => (getMbx t 16).waiting &&
        t.pkg.rolling == 2) = true := by decide +kernel

theorem test_route_select :
    let b := ask (fset rig (HWY_FABRIC_STATUS .n) HWY_FABRIC_STATUS_FORMED 1) 16 codeRouteSelect (bytes [1, 0, 0, 0])
    passes b 16 routeSelectCard routeSelectCheck = true ∧ after (.thFabricRouteSelect 16) b (fun t => (getMbx t 16).waiting &&
      t.pkg.draining == some 1) = true := by decide +kernel

theorem test_wave_run : let b := ask rig 16 codeWaveRun (bytes [0, 0, 0, 0])
    passes b 16 waveRunCard waveRunCheck = true ∧ inWave b way7 = true ∧ after (.thWaveRun 16) b (fun t => (getMbx t 16).waiting &&
      t.wave.running && t.wave.number == 1 && fget t (HWY_WAVE_STATUS .s) HWY_WAVE_STATUS_STATE == 1 &&
      (getLink t way7).way.isSome) = true := by decide +kernel

/-! ## Register writes, maps, event rings -/

/-- A hart in the normal world: core 0 after it has left the secure world. -/
def rigNormal : Block := cset rig 0 FCD_WORLD FCD_WORLD_WORLD 0

theorem test_callers : (callerOf rig core0).world = true ∧ (callerOf rigNormal core0).world = false ∧
    (callerOf rig core0).bmc = false ∧ (callerOf rig (.tollhouse .n)).th = true ∧
    accepts rigNormal (callerOf rigNormal core0) (HUB_COH_CTRL .n) true = true ∧
    accepts rig (callerOf rig (.tollhouse .n)) (HUB_LOCK .n) true = true := by decide +kernel

theorem test_register_write_fields :
    after (.registerWrite core0 (.space (HUB_COH_CTRL .n)) 4 0xFFFFFFFF) rig (fun t =>
      rd t (HUB_COH_CTRL .n) == rd rig (HUB_COH_CTRL .n) / 4 * 4 + 3) = true ∧
    after (.registerWrite core0 (.space (HUB_COH_CTRL .n)) 4 3) rigNormal (fun t => t.regs == rigNormal.regs &&
      (t.evPath.get [] 0).length == 1) = true ∧
    after (.registerWrite core0 (.space (HUB_MILEPOST_DIES .n)) 4 0) rig (fun t => t.regs == rig.regs) = true ∧
    after (.registerWrite core0 (.space (HUB_WAKE_TIMER .n + 4)) 4 0x89ABCDEF) (wr rig (HUB_WAKE_TIMER .n) 5) (fun t =>
      rd t (HUB_WAKE_TIMER .n) == 0x89ABCDEF00000005) = true ∧
    [1, 2, 8].all (fun size => after (.registerWrite core0 (.space (HUB_COH_CTRL .n)) size 3) rig fun t =>
      t.regs == rig.regs && (t.evPath.get [] 0).length == 1) = true ∧
    after (.registerWrite (.tollhouse .n) (.space (HUB_LOCK .n)) 4 1) rig (fun t => rd t (HUB_LOCK .n) == 1) = true := by
  decide +kernel

theorem test_status_bit_clear :
    let r := LINK_ERR hubEnd0
    let b := { wr rig r 0x1FF with coal := rig.coal.set 0 (r * 64 + 8) 4 }
    after (.statusBitClear core0 r 8 false) b (fun t => rd t r == 0xFF && t.coal.get 0 (r * 64 + 8) == 0 && t.evPath == b.evPath) = true ∧
    after (.statusBitClear core0 r 8 true) b (fun t => rd t r == 0x1FF && t.coal.get 0 (r * 64 + 8) == 5 && t.evPath != b.evPath) = true ∧
    same (.statusBitClear core0 r 9 false) (wr rig r 0x1FF) = true := by decide +kernel

theorem test_cnt_clear :
    let b := wr (wr rig (CNT_CRC_ERR hubEnd0) 7) (CNT_CRC_ERR hubEnd0 + 32) 9
    let n := wr rigNormal (CNT_CRC_ERR hubEnd0) 7
    after (.cntClear core0 (LINK_CTRL hubEnd0)) b (fun t => (List.range 9).all fun i => rd t (CNT_CRC_ERR hubEnd0 + 4 * i) == 0) = true ∧
    after (.cntClear core0 (LINK_CTRL hubEnd0)) n (fun t => t.regs == n.regs) = true := by decide +kernel

theorem test_home_group_write :
    let v : Word := BitVec.ofNat 64 (place 1 58 56 + place 0xF 55 52 + place 300 51 30 + place 3 17 16 + 2)
    let bad : Word := BitVec.ofNat 64 (place 0xE 55 52 + 2)
    after (.homeGroupWrite core0 .n 31 v) rig (fun t => rd t (HUB_HOME_GROUP .n 31) == v.toNat && t.evPath == rig.evPath) = true ∧
    qmaskValid 0xE = false ∧ after (.homeGroupWrite core0 .n 0 bad) rig (fun t => t.evPath != rig.evPath) = true ∧
    after (.homeGroupWrite core0 .n 0 v) (wr rig (HUB_LOCK .n) 1) (fun t => t.evPath != rig.evPath &&
      rd t (HUB_HOME_GROUP .n 0) == rd rig (HUB_HOME_GROUP .n 0)) = true := by decide +kernel

theorem test_hpw_write :
    let v : Word := BitVec.ofNat 64 (2 ^ 63 + place 3 59 58 + place 2 55 52 + place 0xABCDE 51 12)
    accepts rig (callerOf rig core0) (HUB_HPW_BASE .n 63) true = true ∧
    after (.hpwWrite core0 .n 63 false v) rig (fun t => rd t (HUB_HPW_BASE .n 63) == v.toNat) = true ∧
    after (.hpwWrite core0 .n 63 true (BitVec.ofNat 64 (2 ^ 40 + 77))) rig (fun t =>
      fget t (HUB_HPW_SIZE .n 63) HUB_HPW_SIZE_PAGES == 77) = true := by decide +kernel

/-- A device below port 0 of HUB-N, and `rig` with HUB-N in no partition: every rule of R550 turns the device away. -/
def port0 : Source := .device .n 0
def rigNone : Block := wr rig (HUB_PART_STATE .n) 0

theorem test_refused_writes_are_lost :
    let c := callerOf rigNone port0
    let gone (i : Instr) := after i rigNone fun t => t.regs == rigNone.regs && t.mbx == rigNone.mbx && t.evPath != rigNone.evPath &&
      lostOf t 0 c.node (myNode rigNone (agIo c.hub)) == lostOf rigNone 0 c.node (myNode rigNone (agIo c.hub)) + 1
    c.plain = true ∧ [HUB_COH_CTRL .n, HUB_HOME_GROUP .n 0, HUB_HPW_SIZE .n 0, TH_MBX_DOORBELL 16, TH_MBX_DOORBELL 16 + 0x20,
        LINK_CTRL hubEnd0, HUB_EVR_CTRL (.ao .n 0)].all (fun o => !accepts rigNone c o true) = true ∧
      gone (.registerWrite port0 (.space (HUB_COH_CTRL .n)) 4 3) = true ∧ gone (.statusBitClear port0 (HUB_COH_CTRL .n) 8 false) = true ∧
      gone (.cntClear port0 (HUB_COH_CTRL .n)) = true ∧ gone (.homeGroupWrite port0 .n 0 1) = true ∧
      gone (.hpwWrite port0 .n 0 true 1) = true ∧ gone (.ring port0 16) = true ∧ gone (.abort port0 16) = true ∧
      gone (.mbxHeaderWrite port0 16 0x20 8 1) = true ∧ gone (.linkStart port0 hubEnd0) = true ∧
      gone (.linkRetrain port0 hubEnd0) = true ∧ gone (.linkRestart port0 hubEnd0) = true ∧
      gone (.linkTakeDown port0 hubEnd0) = true ∧ gone (.take port0 (.ao .n 0)) = true := by decide +kernel

/-- `rig` with one record on HUB-S's event path. -/
def withEv (n : Nat) (ao : Bool) (b : Block := rig) : Block :=
  { b with evPath := b.evPath.set [] 1 [{ ev := ev n, aoOnly := ao, owner := none }] }

theorem test_event_record_ao :
    same (.eventRecord .s) rig = true ∧
    after (.eventRecord .s) (withEv 5 true) (fun t => (getRing t (ringKey (.ao .s 0))).head == [ev 5] && t.evPath.get [] 1 == [] &&
      rd t (CNT_EVR (.ao .s 0) 0) == 1 && rd t (CNT_EVR (.ao .s 0) 2) == 0) = true ∧
    after (.eventRecord .s) (withEv 5 true (updRing rig (ringKey (.ao .s 0)) fun x => { x with head := List.replicate 16 (ev 1) }))
      (fun t => rd t (CNT_EVR (.ao .s 0) 2) == 1 && bitOf (rd t (HUB_EVR_STATUS (.ao .s 0))) 5 &&
        (getRing t (ringKey (.ao .s 0))).head.length == 16) = true ∧
    allRings.find? (ringAdmits (withEv 0x40 false) .s { ev := ev 0x40, aoOnly := false, owner := none }) = none ∧
    after (.eventRecord .s) (withEv 0x40 false) (fun t => (getRing t (ringKey (.ao .s 1))).head == [ev 0x40] &&
      bitOf (rd t (HUB_ERR_STATUS .s)) 1) = true := by decide +kernel

theorem test_take :
    let b := updRing rig (ringKey (.ao .s 1)) fun x => { x with head := [ev 1, ev 2, ev 3] }
    accepts rig (callerOf rig core0) (HUB_EVR_CTRL (.ao .s 1)) true = true ∧
    after (.take core0 (.ao .s 1)) b (fun t => (getRing t (ringKey (.ao .s 1))).held == [ev 3] &&
      fget t (HUB_EVR_STATUS (.ao .s 1)) HUB_EVR_STATUS_WIN_VALID == 64 && rd t (HUB_EVR_WIN (.ao .s 1) 0) == 1 &&
      rd t (HUB_EVR_WIN (.ao .s 1) 7) == 2 && rd t (CNT_EVR (.ao .s 1) 1) == 2) = true ∧
    after (.take core0 (.ao .s 1)) rig (fun t => fget t (HUB_EVR_STATUS (.ao .s 1)) HUB_EVR_STATUS_WIN_VALID == 0) = true := by
  decide +kernel

/-- `rig` with ring 0 of HUB-S of the spill kind, 128 records, holding `head`, `lay` lines and `tail`. -/
def spillRing (head lay tail : Nat) : Block :=
  let r : RingId := .ring .s 0
  let b := fset (fset (fset rig (HUB_EVR_STATUS r) HUB_EVR_STATUS_CREATED 1) (HUB_EVR_STATUS r) HUB_EVR_STATUS_KIND 1)
    (HUB_EVR_STATUS r) HUB_EVR_STATUS_CAP_LOG2 7
  let b := updRing b (ringKey r) fun x => { x with
    head := List.replicate head (ev 1), lay := List.replicate lay (ev 2, ev 3), tail := (List.range tail).map ev }
  wr b (CNT_EVR r 0) (head + 2 * lay + tail)

theorem test_layby_spill :
    let r : RingId := .ring .s 0
    ringSpills (spillRing 32 31 32) r = true ∧ laybyLines (spillRing 32 31 32) r = 32 ∧
    after (.laybySpill .s 0 true) (spillRing 32 31 32) (fun t => (getRing t (ringKey r)).tail.length == 30 &&
      (getRing t (ringKey r)).lay.length == 32 && (getRing t (ringKey r)).lay.getLast? == some (ev 0, ev 1)) = true ∧
    after (.laybySpill .s 0 false) (spillRing 32 31 32) (fun t => rd t (CNT_EVR r 2) == 2 && bitOf (rd t (HUB_EVR_STATUS r)) 6 &&
      (getRing t (ringKey r)).lay.length == 31) = true ∧
    same (.laybySpill .s 0 true) (spillRing 32 31 31) = true := by decide +kernel

theorem test_layby_return :
    let r : RingId := .ring .s 0
    after (.laybyReturn .s 0 true) (spillRing 30 1 4) (fun t => (getRing t (ringKey r)).lay == [] &&
      (getRing t (ringKey r)).held == (getRing (spillRing 30 1 4) (ringKey r)).held) = true ∧
    after (.laybyReturn .s 0 false) (spillRing 30 1 4) (fun t => (getRing t (ringKey r)).lay == [] && rd t (CNT_EVR r 2) == 2 &&
      bitOf (rd t (HUB_EVR_STATUS r)) 6) = true ∧
    same (.laybyReturn .s 0 true) (spillRing 31 1 4) = true ∧ same (.laybyReturn .s 0 true) (spillRing 0 0 4) = true := by decide +kernel

theorem test_counts_balance : let r : RingId := .ring .s 0
    ringBalances (spillRing 30 1 4) r = true ∧
      after (.laybyReturn .s 0 false) (spillRing 30 1 4) (fun t => ringBalances t r) = true ∧
      after (.take core0 r) (spillRing 30 1 4) (fun t => ringBalances t r) = true ∧
      after (.laybySpill .s 0 false) (spillRing 32 31 32) (fun t => ringBalances t r) = true ∧
      after (.eventRecord .s) (withEv 5 true) (fun t => ringBalances t (.ao .s 0)) = true := by decide +kernel

/-! ## Memory channels -/

/-- A read and a write of home slice 0 to the media line `ma`. -/
def mcR (ma : Nat) : MemReq := { slice := 0, tracker := none, write := false, ma := ma }
def mcW (ma n : Nat) : MemReq := { slice := 0, tracker := none, write := true, ma := ma, data := BitVec.ofNat 512 n }

/-- `rig` with channel 2 of HUB-N changed; it runs at 6400 MT/s. -/
def chanRig (f : Chan → Chan) (b : Block := rig) : Block :=
  updChan (wr b (MC_CONFIG .n 2) (place 6400 31 16)) 2 f

/-- A channel whose milepost is clear. -/
def downChan (f : Chan → Chan) : Block := chanRig f (wr rig (HUB_MILEPOST_IO .n) 0xFB)

theorem test_mc_read :
    let held := chanRig fun ch => { ch with input := [mcW 64 1, mcR 64, mcR 128] }
    let dup := chanRig fun ch => { ch with input := [mcR 64], writes := [⟨0, mcW 64 9, 0, false⟩] }
    let full := chanRig fun ch => { ch with input := [mcR 64], reads := (List.range 256).map fun i => ⟨i, mcR 4096, 0, false⟩ }
    let down := downChan fun ch => { ch with input := [mcR 64] }
    same (.mcRead .n 2) rig = true ∧
    after (.mcRead .n 2) held (fun t => (getChan t 2).input == [mcW 64 1, mcR 64] &&
      ((getChan t 2).reads.map (·.req)) == [mcR 128] && t.regs == held.regs) = true ∧
    after (.mcRead .n 2) dup (fun t => (getChan t 2).reads == [] && (getChan t 2).writes.length == 1 && (getChan t 2).input == []) = true ∧
    same (.mcRead .n 2) full = true ∧
    after (.mcRead .n 2) down (fun t => (getChan t 2).reads == [] && rd t (CNT_MC .n 2 8) == 1) = true := by decide +kernel

theorem test_mc_write :
    let b := chanRig fun ch => { ch with input := [mcR 0, mcW 64 1, mcW 128 2] }
    let dup := chanRig fun ch => { ch with input := [mcW 64 3], writes := [⟨0, mcW 64 9, 0, false⟩, ⟨1, mcW 0 8, 0, false⟩] }
    let full := chanRig fun ch => { ch with input := [mcW 64 3], writes := (List.range 128).map fun i => ⟨i, mcW 4096 9, 0, false⟩ }
    let down := downChan fun ch => { ch with input := [mcW 64 3] }
    same (.mcWrite .n 2) rig = true ∧
    after (.mcWrite .n 2) b (fun t => ((getChan t 2).writes.map (·.req)) == [mcW 64 1] && (getChan t 2).input == [mcR 0, mcW 128 2]) = true ∧
    after (.mcWrite .n 2) dup (fun t => ((getChan t 2).writes.map (·.req)) == [mcW 64 3, mcW 0 8]) = true ∧
    same (.mcWrite .n 2) full = true ∧
    after (.mcWrite .n 2) down (fun t => (getChan t 2).writes == [] && rd t (CNT_MC .n 2 8) == 1) = true := by decide +kernel

/-- What MC_COMMAND_CHOICE leaves in DRAM. -/
def afterMem (i : Instr) (s : State) (f : Block → Dram → Bool) : Bool :=
  match exec i s with
  | .next t => f t.blk t.dram
  | _ => false

theorem test_command_choice :
    let rows := fun ch : Chan => { ch with reads := [⟨5, mcR 0, 0, false⟩, ⟨6, mcR 128, 0, false⟩, ⟨7, mcR 256, 3, false⟩] }
    let d := chanRig fun ch => { ch with drain := true, drainEmpty := true, writes := [⟨5, mcW 64 0x1234, 0, false⟩] }
    mcServes (chanRig rows) .n 2 = true ∧ (getChan (mcDrain (chanRig rows) .n 2) 2).drain = false ∧
    after (.mcCommandChoice .n 2 [5, 6, 7]) (chanRig rows) (fun t => ((getChan t 2).reads.map fun e => (e.num, e.issued)) ==
      [(5, false), (6, false), (7, true)]) = true ∧
    after (.mcCommandChoice .n 2 [6, 5]) (chanRig rows) (fun t => ((getChan t 2).reads.map fun e => (e.num, e.issued)) ==
      [(6, false), (7, false), (5, true)]) = true ∧
    same (.mcCommandChoice .n 2 [5]) (downChan rows) = true ∧
    (getChan (mcDrain d .n 2) 2).drain = true ∧
    afterMem (.mcCommandChoice .n 2 [5]) (onBlk d) (fun t m => (getChan t 2).writes == [] &&
      m.readLine 2 64 == (BitVec.ofNat 512 0x1234, 0) && m.byte (dramAddr 2 65) == 0x12 && m.byte (dramAddr 2 63) == 0 &&
      m.byte (dramAddr 2 128) == 0) = true := by decide +kernel

theorem test_read_data :
    let b := chanRig fun ch => { ch with reads := [⟨4, mcR 0, 0, false⟩, ⟨5, mcR 64, 0, true⟩], writes := [⟨6, mcW 0 1, 0, false⟩] }
    let poisoned : State := { onBlk b with dram := Dram.writeLine {} 2 64 7 1 }
    same (.mcReadData .n 2 .clean 0) rig = true ∧
    after (.mcReadData .n 2 .clean 0) b (fun t => ((getChan t 2).reads.map (·.num)) == [4] && t.regs == b.regs) = true ∧
    afterMem (.mcReadData .n 2 .clean 0) poisoned (fun t _ => rd t (CNT_MC .n 2 2) == 1) = true ∧
    after (.mcReadData .n 2 .oneDevice 0) b (fun t => rd t (CNT_MC .n 2 0) == 1 && ((getChan t 2).reads.map (·.num)) == [4]) = true ∧
    after (.mcReadData .n 2 .twoDevices 5) b (fun t => rd t (MC_FREEZE_STATUS .n 2) == place 2 40 32 + place 1 31 24 + place 1 3 1 + 1 &&
      !chanReady t .n 2 && (getChan t 2).reads == [] && (getChan t 2).writes.length == 1 && (getChan t 2).dump.syndrome == 5 &&
      rd t (MC_FREEZE_ADDR .n 2) == 2 ^ 63 + 2 ^ 46) = true := by decide +kernel

theorem test_patrol_scrub :
    let b := chanRig id
    fget b (MC_MAINT .n 2) MC_MAINT_SCRUB_HOURS = 24 ∧ same (.patrolScrub .n 2 3 .clean 0) b = true ∧
    after (.patrolScrub .n 2 3 .oneDevice 0) b (fun t => rd t (CNT_MC .n 2 1) == 1 && t.chans == b.chans) = true ∧
    after (.patrolScrub .n 2 3 .twoDevices 0) b (fun t => fget t (MC_FREEZE_STATUS .n 2) MC_FREEZE_STATUS_CAUSE == 2 && !chanReady t .n 2) = true ∧
    same (.patrolScrub .n 2 3 .twoDevices 0) (downChan id) = true := by decide +kernel

theorem test_alert :
    let b := chanRig id
    let z := fset (fset b (MC_FREEZE_STATUS .n 2) MC_FREEZE_STATUS_FROZEN 1) (MC_FREEZE_STATUS .n 2) MC_FREEZE_STATUS_MORE_ERRORS 0xFFFE
    after (.alertN .n 2) b (fun t => fget t (MC_FREEZE_STATUS .n 2) MC_FREEZE_STATUS_CAUSE == 3 && !chanReady t .n 2) = true ∧
    after (.alertN .n 2) z (fun t => fget t (MC_FREEZE_STATUS .n 2) MC_FREEZE_STATUS_MORE_ERRORS == 0xFFFF && t.chans == z.chans) = true ∧
    same (.alertN .n 2) rig = true := by decide +kernel

theorem test_urgency :
    let b := wr (chanRig fun ch => { ch with reads := [⟨4, { mcR 0 with port := 12 }, 2, false⟩] }) (MC_QOS_TARGET_HI .n) (place 9 39 32)
    qosTarget b .n 12 = 9 ∧ after (.urgencyRaise .n 2 4) b (fun t => ((getChan t 2).reads.map (·.urgency)) == [3] &&
      rd t (CNT_MC .n 2 5) == 1) = true ∧ same (.urgencyRaise .n 2 5) b = true := by decide +kernel

theorem test_refresh :
    let n (x : Nat) := chanRig fun ch => { ch with reads := [⟨4, mcR 0, 0, false⟩], postponed := ch.postponed.set 0 0 x }
    let idle := chanRig fun ch => { ch with postponed := ch.postponed.set 0 0 2, rows := ch.rows.set 0 3 8 }
    mcPkgRanks (n 0) .n 2 = 1 ∧ mcRankBusy (n 0) .n 2 0 = true ∧ mcRefreshLimit {} = 4 ∧
    after (.refreshDue .n 2 0) (n 3) (fun t => (getChan t 2).postponed.get 0 0 == 4) = true ∧
    after (.refreshDue .n 2 0) (n 4) (fun t => (getChan t 2).postponed.get 0 0 == 4 && rd t (CNT_MC .n 2 6) == 1) = true ∧
    after (.refreshDue .n 2 0) idle (fun t => (getChan t 2).postponed.get 0 0 == 0 && (getChan t 2).rows == {}) = true ∧
    same (.refreshDue .n 2 0) (downChan id) = true := by decide +kernel

theorem test_channel_timers :
    let b := chanRig fun ch => { ch with rows := (ch.rows.set 0 3 8).set 0 67 9 }
    let p := wr b (MC_MAINT .n 2) 0
    after (.openTimerExpiry .n 2 ⟨1, 0, 0, 3⟩) b (fun t => (getChan t 2).rows.cells == [(3, 8)] && t.regs == b.regs) = true ∧
    after (.mr4Poll .n 2 true) b (fun t => fget t (MC_MAINT .n 2) MC_MAINT_RATE_2X == 1 && t.chans == b.chans) = true ∧
    fget b (MC_MAINT .n 2) MC_MAINT_INTERVAL ≠ 0 ∧
    after (.retrainingPause .n 2 true 100) b (fun t => (getChan t 2).rows == {} && rd t (CNT_MC .n 2 7) == 1 &&
      fget t (MC_MAINT .n 2) MC_MAINT_LAST_PAUSE == 100 && bitOf (rd t (MC_MAINT .n 2)) 40) = true ∧
    same (.retrainingPause .n 2 true 100) p = true := by decide +kernel

theorem test_channel_fill_done :
    let b := chanRig (fun ch => { ch with filling := true, keep := 0 }) (wr rig (HUB_MILEPOST_IO .n) 0xFB)
    let m : Dram := Dram.writeLine (Dram.writeLine {} 2 64 0x55 0) 3 64 0x66 0
    afterMem (.channelFillDone .n 2) { onBlk b with dram := m } (fun t d => !(getChan t 2).filling && chanReady t .n 2 &&
      d.byte (dramAddr 2 64) == 0 && d.byte (dramAddr 3 64) == 0x66) = true ∧
    afterMem (.channelFillDone .n 2) { onBlk (updChan b 2 fun ch => { ch with keep := 1 }) with dram := m } (fun _ d =>
      d.byte (dramAddr 2 64) == 0x55) = true ∧ same (.channelFillDone .n 2) rig = true := by decide +kernel

/-! ## Package states, wake, grants, temperature -/

/-- `rig` at rest, with its power controller changed: partition 0 has quarter 0 alone, and its cores are in C1. -/
def rest (f : Power → Power) : Block :=
  let b := wr (wr rig (HUB_PART_STATE .n) (place 1 23 20 + place 2 1 0)) (HUB_PART_STATE .s) 0
  { b with harts := { cells := (List.range 60).map fun i => (i, { core := .c1 }) }, power := f rig.power }

theorem test_pk1 : noMessages (rest id) = true ∧
    after .pk1Entry (rest id) (fun t => t.power.pk == 1 && fget t HUB_PWR_STATUS HUB_PWR_STATUS_STATE == 1) = true ∧
    same .pk1Entry rig = true ∧ same .pk1Entry (rest fun p => { p with pk := 1 }) = true ∧
    after .pk1Exit (rest fun p => { p with pk := 1 }) (fun t => t.power.pk == 0) = true ∧ same .pk1Exit (rest id) = true := by
  decide +kernel

/-- Ceilings that permit PK3. -/
def deep (f : Power → Power) : Block := rest fun p => f { p with partCeil := p.partCeil.set {} 0 { deepest := 3, secure := true } }

theorem test_attempt_start : powerTarget (deep id) = 3 ∧ powerTarget (rest id) = 1 ∧
    after .powerAttemptStart (deep id) (fun t => t.power.attempt == some (3, 1, []) &&
      fget t HUB_PWR_STATUS HUB_PWR_STATUS_LAST_TARGET == 3) = true ∧
    same .powerAttemptStart (rest id) = true ∧ same .powerAttemptStart (deep fun p => { p with blocked := true }) = true := by
  decide +kernel

/-- An attempt at PK3 that asks rank 1. -/
def asking (f : Power → Power) : Block := deep fun p => f { p with attempt := some (3, 1, []) }

/-- Core 3 has stores in its buffer. -/
def busyCore : Block := updHart (asking id) 3 fun h => { h with sb := [storeB] }

theorem test_block_answers :
    after (.blockAnswer (.core 3) .accept) (asking id) (fun t => t.power.attempt == some (3, 1, [3])) = true ∧
    same (.blockAnswer (.channel 2) .accept) (asking id) = true ∧ same (.blockAnswer (.core 3) .accept) (deep id) = true ∧
    same (.blockAnswer (.core 3) .accept) (asking fun p => { p with attempt := some (3, 1, [3]) }) = true ∧
    after (.blockAnswer (.core 3) .accept) busyCore (fun t => t.power.attempt == none && t.power.blocked &&
      fget t HUB_PWR_STATUS HUB_PWR_STATUS_LAST_OUTCOME == 2 && fget t HUB_PWR_STATUS HUB_PWR_STATUS_BLOCK_INDEX == 3) = true := by
  decide +kernel

theorem test_attempt_ends :
    after .entryLimitExpiry (asking fun p => { p with delays := [(770, 1)] }) (fun t => t.power.attempt == none &&
      fget t HUB_PWR_STATUS HUB_PWR_STATUS_LAST_OUTCOME == 3 && fget t HUB_PWR_STATUS HUB_PWR_STATUS_BLOCK_KIND == 3) = true ∧
    same .entryLimitExpiry (asking id) = true ∧
    after .retryIntervalExpiry (deep fun p => { p with blocked := true, draining := [3] }) (fun t => t == deep id) = true := by
  decide +kernel

theorem test_guest_delay :
    let b := asking fun p => { p with delays := [(1793, 7)] }
    after (.guestDelayExpiry .s) b (fun t => (getSpur t .s).pwrReq == some (3, 0) && t.outbox == [.sideband .s 0x34] &&
      t.regs == b.regs) = true ∧ same (.guestDelayExpiry .s) (deep id) = true := by decide +kernel

/-- The last block of rank 3 accepts, and the package commits to PK3. -/
theorem test_commit :
    let b := deep fun p => { p with attempt := some (3, 3, (List.range 3).map (768 + ·)) }
    after (.blockAnswer (.channel 3) .accept) b (fun t => t.power.pk == 3 && t.power.window && linkState t hubEnd0 == 6 &&
      (getHart t 3).core == .c3 && (getChan t 3).selfRefresh && fget t HUB_PWR_STATUS HUB_PWR_STATUS_LAST_OUTCOME == 1) = true := by
  decide +kernel

/-- Wake sources 9 (a level pin) and 1 (the baseboard controller) of HUB-N. -/
def pin4 : WakeSource := { code := 9, hub := .n, index := 4 }
def bmcWake : WakeSource := { code := 1, hub := .n, index := 0 }

/-- A package in a low state with those sources enabled. -/
def asleep (f : Power → Power) : Block := wr (wr (setLinkState (rest f) hubEnd0 6) (HUB_WAKE_CTRL .n) 0x1FF) (HUB_WAKE_PINS .n) 16

theorem test_wake_event : wakeEnabled (asleep id) pin4 = true ∧ wakeEnabled (wr (asleep id) (HUB_WAKE_CTRL .n) 0xFF) pin4 = false ∧
    same (.wakeEvent pin4) (wr (asleep fun p => { p with pk := 3 }) (HUB_WAKE_CTRL .n) 0xFF) = true ∧
    after (.wakeEvent { code := 0, hub := .n, index := 0 }) (asking id) (fun t => t.power.attempt == none &&
      fget t HUB_PWR_STATUS HUB_PWR_STATUS_LAST_OUTCOME == 4) = true ∧
    same (.wakeEvent pin4) (asleep fun p => { p with pk := 3, window := true }) = true ∧
    after (.wakeEvent pin4) (asleep fun p => { p with pk := 3 }) (fun t => t.power.pk == 0 && linkState t hubEnd0 == 1 &&
      fget t HUB_PWR_STATUS HUB_PWR_STATUS_WAKE_SOURCE == 9) = true ∧
    after (.wakeEvent pin4) (asleep fun p => { p with pk := 5, enMain := false }) (fun t => t.power.enMain && t.pkg.wakeCode == 9) = true ∧
    same (.wakeEvent pin4) (asleep fun p => { p with pk := 5, enMain := false, needPulse := true }) = true := by decide +kernel

theorem test_wake_window :
    let b := asleep fun p => { p with pk := 3, window := true }
    after (.wakeWindowEnd [9]) b (fun t => t.power.pk == 0 && bitOf (rd t HUB_PWR_STATUS) 51) = true ∧
    after (.wakeWindowEnd [10]) (wr b (HUB_WAKE_CTRL .n) 0x100) (fun t => t.power.pk == 3 && !t.power.window) = true ∧
    same (.wakeWindowEnd [9]) (rest id) = true := by decide +kernel

theorem test_exit_repeat :
    let e : LinkId := .hwy .s 1
    let b := fset (rigAt e 1) (LINK_STATUS e) LINK_STATUS_LAST_RETRAIN_CAUSE 7
    after (.highwayExitRepeat .s 1) b (fun t => t.outbox == [.hwyExit .s 1]) = true ∧ same (.highwayExitRepeat .s 1) rig = true := by
  decide +kernel

theorem test_grants :
    let low := fun p : Power => { p with grants := p.grants.set 0 5 20 }
    let b := withPower id
    let r := { cset rig 5 FCD_CORE_PWR FCD_CORE_PWR_PERF_REQ 38 with power := low rig.power }
    grantHarts rig = List.range 20 ∧ b.power.sustained = 900 ∧
    after (.grantEvaluation { average := 901, fast := 0 }) r (fun t => powerGrant t 4 == 37 && powerGrant t 5 == 20 &&
      t.power.average == 901 && t.regs == r.regs && cget t 5 FCD_CORE_PWR FCD_CORE_PWR_GRANTED == 20) = true ∧
    after (.grantEvaluation { average := 899, fast := 899 }) r (fun t => powerGrant t 4 == 38 && powerGrant t 5 == 21) = true ∧
    after (.grantEvaluation { average := 900, fast := 0 }) r (fun t => powerGrant t 4 == 38 && powerGrant t 5 == 20) = true := by
  decide +kernel

theorem test_thermal :
    let cap (n k : Nat) : Block := withPower fun p => { p with caps := p.caps.set 0 16 n, cooler := p.cooler.set 0 16 k }
    (match exec (.thermalSample (.hub .n) (-41)) (onBlk rig) with | .fault f => f == .belowMinusForty | _ => false) = true ∧
    after (.thermalSample (.die 3) (-40)) rig (fun t => t.power.temps.get 0 3 == 1 && capOf t 3 == 38) = true ∧
    after (.thermalSample (.hub .n) 155) rig (fun t => t.power.clocksStopped && t.evPath != rig.evPath && t.regs == rig.regs) = true ∧
    after (.thermalSample (.hub .n) 106) rig (fun t => capOf t 16 == 34) = true ∧
    after (.thermalSample (.hub .n) 112) (cap 30 9) (fun t => capOf t 16 == 34 && t.power.cooler.get 0 16 == 0) = true ∧
    after (.thermalSample (.hub .n) 112) (cap 30 3) (fun t => capOf t 16 == 30 && t.power.cooler.get 0 16 == 4) = true ∧
    after (.thermalSample (.hub .n) 113) (cap 30 9) (fun t => capOf t 16 == 30 && t.power.cooler.get 0 16 == 0) = true := by
  decide +kernel

/-! ## The fabric, waves, losses, proxies -/

/-- A roll call of two packages in a ring: this one with serial number 9, so number 1, and one with 5 across link 0. -/
def two : RollCall :=
  { serials := [9, 5], plansAgree := true, links := [(0, 1)], far := [some 1, none, none, none], numberBlocked := false
    heldOk := true, groups := [], groupsConflict := false, quarters := [0, 0], timedOut := false }

/-- `rig` without partitions, in a roll call of its command, for a plan of two packages in a ring; its page waits. -/
def rolling (n : Nat) : Block :=
  let b := wr (wr (ask rig 16 codePlanSet (fabricPay 1)) (HUB_PART_STATE .n) 0) (HUB_PART_STATE .s) 0
  let b := { b with pkg := { b.pkg with rolling := n, running := {}, fabricPlan := { topology := 1, members := 2 } } }
  updMbx b 16 fun x => { x with waiting := true, admitted := true }

theorem test_roll_call_forms : rollFault (rolling 2) two = .inr [0, 1] ∧
    after (.rollCall two) (rolling 2) (fun t => statusOf t 16 == some 0 && t.pkg.rolling == 0 &&
      [Hub.n, Hub.s].all fun h => fget t (HWY_FABRIC_STATUS h) HWY_FABRIC_STATUS_FORMED == 1 &&
        fget t (HWY_FABRIC_STATUS h) HWY_FABRIC_STATUS_PKG == 1 && fget t (HWY_FABRIC_STATUS h) HWY_FABRIC_STATUS_MEMBERS == 3 &&
        bitOf (rd t (HUB_MILEPOST_TH h)) 8 && rd t (HWY_ROUTE h 16) == (if h == .n then 0x22 else 0x44) &&
        rd t (HWY_ROUTE h 48) == 0x11) = true := by decide +kernel

theorem test_roll_call_fails : rollFault (rolling 2) { two with plansAgree := false } = .inl 3 ∧
    after (.rollCall { two with plansAgree := false }) (rolling 2) (fun t =>
      answerOf t 16 == some (thRefused, 3, 0, []) && fget t (HWY_FABRIC_STATUS .s) HWY_FABRIC_STATUS_FAIL_REASON == 3 &&
      fget t (HWY_FABRIC_STATUS .s) HWY_FABRIC_STATUS_FORMED == 0 && t.pkg.neighbours == {}) = true := by decide +kernel

theorem test_roll_call_timeout : after .rollCallTimeout (rolling 2) (fun t => answerOf t 16 == some (thRefused, 1, 0, []) &&
    fget t (HWY_FABRIC_STATUS .n) HWY_FABRIC_STATUS_FAIL_REASON == 1) = true ∧ same .rollCallTimeout rig = true ∧
    same (.rollCall two) rig = true := by decide +kernel

/-- The roll call of a package that runs alone, and one that finds a partition not HELD. -/
theorem test_roll_call_alone :
    let b := { rolling 2 with pkg := { (rolling 2).pkg with fabricPlan := {} } }
    after (.rollCall two) b (fun t => statusOf t 16 == some 0 && fget t (HWY_FABRIC_STATUS .n) HWY_FABRIC_STATUS_FORMED == 0 &&
      fget t (HWY_FABRIC_STATUS .n) HWY_FABRIC_STATUS_FAIL_REASON == 0 && rd t (HWY_ROUTE .n 16) == 0x11) = true ∧
    after (.rollCall { two with heldOk := false }) (rolling 2) (fun t => statusOf t 16 == some thBusy && t.pkg.rolling == 0 &&
      t.pkg.fabricPlan == (rolling 2).pkg.fabricOld && t.regs == (rolling 2).regs) = true := by decide +kernel

/-- Routes drain towards alternative 1. -/
def draining : Block :=
  updMbx { ask rig 16 codeRouteSelect (bytes [1, 0, 0, 0]) with pkg := { rig.pkg with draining := some 1 } } 16
    fun x => { x with waiting := true }

theorem test_route_drain : routeDrained draining = true ∧ after .routeDrainDone draining (fun t => statusOf t 16 == some 0 &&
      t.pkg.draining == none && fget t (HWY_FABRIC_STATUS .s) HWY_FABRIC_STATUS_ALT == 1) = true ∧
    after .routeDrainTimeout draining (fun t => answerOf t 16 == some (thRefused, 1, 0, []) && t.pkg.draining == none) = true ∧
    same .routeDrainDone (updLink draining (.hwy .n 0) fun l => { l with replay := [⟨1, []⟩] }) = true ∧
    same .routeDrainDone rig = true ∧ same .routeDrainTimeout rig = true := by decide +kernel

/-- A wave that only HUB-N knows of, with a Waymark of it in HUB-S's end of the causeway. -/
def wave1 : Block :=
  let b := { rig with wave := { running := true, number := 1, known := [16] } }
  let m : Msg := { hdr := mkMgt opWaymark false 17 16 0 (waveArg b.wave) }
  updLink b (.hub .s 7) fun l => { l with rxq := l.rxq.set [] vcMgt [compMsg, m] }

theorem test_waymark : ofWave wave1 (mkMgt opWaymark false 17 16 0 (waveArg wave1.wave)) = true ∧
    after (.waymark (.hub .s 7)) wave1 (fun t => (getLink t (.hub .s 7)).rxq.get [] vcMgt == [compMsg] && t.wave.known == [16, 17] &&
      (getLink t (.hub .s 7)).way.isSome) = true ∧
    after (.waymark (.hub .s 7)) { wave1 with wave := {} } (fun t => t.wave == {} &&
      (getLink t (.hub .s 7)).rxq.get [] vcMgt == [compMsg]) = true ∧ same (.waymark hubEnd0) wave1 = true := by decide +kernel

theorem test_wave_limit : after .waveLimitExpiry wave1 (fun t => !t.wave.running &&
      fget t (HWY_WAVE_STATUS .n) HWY_WAVE_STATUS_STATE == 2 && fget t (HWY_WAVE_STATUS .s) HWY_WAVE_STATUS_STATE == 2 &&
      fget t (HWY_WAVE_STATUS .n) HWY_WAVE_STATUS_RESULT == 3 && (getLink t (.hub .s 7)).way.isNone) = true ∧
    same .waveLimitExpiry rig = true := by decide +kernel

/-- Die 0 is lost, and HUB-N waits. A filter entry of slice 3 names it as sharer. -/
def lost0 : Block :=
  let b := { rig with pkg := { rig.pkg with lostWait := [waitKey .n 0] } }
  updSlice b .n 3 fun s => { s with filter := s.filter.set {} 16 { valid := true, present := 3 } }

theorem test_lost_drain : lostDrained lost0 .n (.agent 0) = true ∧
    after (.lostDrainDone .n (.agent 0)) lost0 (fun t => scrubRuns t .n (.agent 0) && t.pkg.lostWait == []) = true ∧
    same (.lostDrainDone .n (.agent 0)) rig = true ∧
    same (.lostDrainDone .n (.agent 0)) (updLink lost0 hubEnd0 fun l => { l with
      rxq := l.rxq.set [] vcRsp [{ hdr := mkComp true 16 0 5 0 0 0 }] }) = true := by decide +kernel

theorem test_scrub_done :
    let b := setScrub lost0 .n (.agent 0) true
    scrubKeys b .n 3 0 = [16] ∧ scrubKeys b .n 4 0 = [] ∧
    after (.scrubDone .n (.agent 0)) b (fun t => scrubKeys t .n 3 0 == [] && !scrubRuns t .n (.agent 0)) = true ∧
    same (.scrubDone .n (.agent 0)) rig = true := by decide +kernel

/-- A formed fabric of packages 0 and 1; this one is package 0, and its partition 0 joins. -/
def fabric2 : Block :=
  let b := setFabric HWY_FABRIC_STATUS_FORMED 1 rig
  let b := wr b (HUB_HOME_GROUP .n 1) (place 1 58 56 + place 0xF 55 52 + place 256 51 30 + 64)
  { b with pkg := { b.pkg with joinNow := [0, 0], neighbours := b.pkg.neighbours.set 0 0 2, far := b.pkg.far.set 0 0 2 } }

/-- A RdShared of die 1 to the home of package 1, as HUB-N gives it to its proxy; a snoop from that home. -/
def farReq : Msg := { hdr := mkReq opRdShared true 48 1 7 0x100000000 0 0 }
def farSnp : Msg := { hdr := mkSnp opSnpShared true 18 51 9 0x80000000 48 0 false }

theorem test_proxy_request :
    let b := putBox (updIo fabric2 .n fun i => { i with reqs := [{ tag := 2048, line := hLine farReq.hdr }] }) (boxIo .n) vcReq [farReq]
    forProxy b farReq.hdr = true ∧ after (.proxyRequest .n) b (fun t => (getIo t .n).proxyIn == 1 &&
      ((getIo t .n).proxy.map (·.hdr)) == [farReq.hdr] && getBox t (boxIo .n) vcReq == []) = true ∧
    let near : Msg := { hdr := mkReq opRdShared true 18 1 7 0x80000000 0 0 }
    forProxy rig near.hdr = false ∧
    after (.proxyRequest .n) (putBox rig (boxIo .n) vcReq [near]) (fun t => (getIo t .n).proxyIn == 0 &&
      getBox t (boxIo .n) vcReq == []) = true ∧
    same (.proxyRequest .n) rig = true := by decide +kernel

theorem test_proxy_snoop :
    let b := putBox fabric2 (boxIo .n) vcSnp [farSnp]
    let late := updIo b .n fun i => { i with proxyOut := [{ line := 0x80000000, node := 0, tag := 3 }] }
    proxyTargets b = [0] ∧ after (.proxySnoop .n) b (fun t => ((getIo t .n).proxySnoops.map fun x => (x.hdr, x.left)) ==
      [(farSnp.hdr, [0])]) = true ∧ same (.proxySnoop .n) late = true ∧ same (.proxySnoop .n) rig = true := by decide +kernel

/-! ## I/O messages, flushes, invalidations -/

/-- IoWr and IoRd of die 0, node 0, at an agent of HUB-N: address, bytes and value. -/
def ioW (dst pa n v : Nat) (p : Poison := 0) : Msg :=
  { hdr := mkPio opIoWr true dst 0 9 pa n p, data := lineOf (pa % 64) n v }
def ioR (dst pa n : Nat) : Msg := { hdr := mkPio opIoRd true dst 0 9 pa n 0 }

/-- `rig` with one message in a box; a box for the I/O agent of HUB-N; an address in the control space. -/
def boxed (key c : Nat) (m : Msg) (b : Block := rig) : Block := putBox b key c [m]
def atIo (m : Msg) (b : Block := rig) : Block := boxed (boxIo .n) vcPio m b
def ctl (off : Nat) : Nat := ctlBase + off

/-- What waits to leave HUB-N towards die 0. -/
def toDie0 (b : Block) (c : Nat) : List Msg := (getLink b hubEnd0).txq.get [] c

theorem test_io_elsewhere :
    let w := ioW 20 (ctl 0) 4 1; let r := ioR 20 (ctl 0) 4
    after (.ioWr (.dm .n)) (boxed (boxDm .n) vcPio w) (fun t => lostOf t 0 0 20 == 1 && toDie0 t vcRsp == []) = true ∧
    after (.ioRd (.dm .n)) (boxed (boxDm .n) vcPio r) (fun t => (toDie0 t vcRsp).map (fun m => (hStatus m.hdr, hTag m.hdr)) == [(stsError, 9)]) = true ∧
    same (.ioWr (.dm .n)) (boxed (boxDm .n) vcPio r) = true ∧ same (.ioRd (.th .n)) rig = true ∧
    after (.ioWr (.th .n)) (boxed (boxTh .n) vcPio (ioW 22 (ctl 0) 4 1)) (fun t => lostOf t 0 0 22 == 1) = true := by decide +kernel

theorem test_control_space :
    let pa := ctl (HUB_COH_CTRL .n)
    let r := atIo (ioR 18 pa 4); let w := atIo (ioW 18 pa 4 3); let bad := atIo (ioW 18 pa 4 3 1)
    portHolds r .n (ioR 18 pa 4).hdr = false ∧ decodePa r .n 0 pa = .ctl (HUB_COH_CTRL .n) ∧ guestSpace (HUB_COH_CTRL .n) = none ∧
    after (.ioRd (.io .n)) r (fun t => (toDie0 t vcDat).map (fun m => (hOp m.hdr, lineBytes m.data (pa % 64) 4)) == [(opCompData, 3)]) = true ∧
    after (.ioWr (.io .n)) (atIo (ioW 18 pa 4 0)) (fun t => fget t (HUB_COH_CTRL .n) ⟨1, 0⟩ == 0) = true ∧
    after (.ioWr (.io .n)) w (fun t => t.regs == w.regs) = true ∧
    beWords (pioBe (ioW 18 pa 4 3 1).hdr) = 1 ∧
    after (.ioWr (.io .n)) bad (fun t => t.regs == bad.regs && lostOf t 0 0 18 == 1) = true := by decide +kernel

/-- Window 2 of HUB-N: 1 MiB of memory of port 0 at 0x10_0000_0000; the port is up. -/
def winRig : Block :=
  let b := wr (wr rig (HUB_HPW_BASE .n 2) (2 ^ 63 + 0x1000000 * 4096)) (HUB_HPW_SIZE .n 2) 256
  updPort (wr b (HUB_MILEPOST_IO .n) 0x1FF) .n 0 fun p => { p with up := true }

theorem test_host_port_window :
    let m := ioW 18 0x1000000040 4 0x1234
    let b := atIo m winRig
    decodePa b .n 0 0x1000000040 = .win .n 2 0 0 ∧ portReady b .n 0 = true ∧
    after (.ioWr (.io .n)) b (fun t => t.outbox == [.mwr .n (some 0) 0x1000000040 m.data (pioBe m.hdr) 0] &&
      (getIo t .n).wins == [{ src := 0, window := 2, count := 1, last := 0x1000000040 }]) = true := by decide +kernel

/-- MsFlush of die 0. -/
def flushMsg (dst : Nat) : Msg := { hdr := mkFlush true dst 0 9 2 }

theorem test_ms_flush :
    let own (m : Msg) : Bool := (hStatus m.hdr, bitsOf m.hdr.toNat 79 64) == (stsLost, 2)
    let lost (b : Block) (n : Nat) : Block := addLost (addLost b 0 0 n) 0 0 n
    let io := { ioW 16 0x2000000040 4 1 with hdr := (ioW 16 0x2000000040 4 1).hdr }
    after (.msFlush (.dm .n)) (lost (boxed (boxDm .n) vcPio (flushMsg 20)) 20) (fun t => lostOf t 0 0 20 == 0 && (toDie0 t vcRsp).all own) = true ∧
    after (.msFlush (.th .n)) (boxed (boxTh .n) vcPio (flushMsg 22)) (fun t => (toDie0 t vcRsp).map (fun m => hStatus m.hdr) == [stsOk]) = true ∧
    after (.msFlush (.home .n)) (lost (boxed (boxHome .n) vcPio (flushMsg 16)) 16) (fun t => (toDie0 t vcRsp).all own &&
      (toDie0 t vcRsp).length == 1) = true ∧
    slicesOwe (boxed (boxSlice .n 5) vcPio io) .n 0 = true ∧
    same (.msFlush (.home .n)) (boxed (boxHome .n) vcPio (flushMsg 16) (boxed (boxSlice .n 5) vcPio io)) = true ∧
    after (.msFlush (.io .n)) (lost (atIo (flushMsg 18)) 18) (fun t => (getIo t .n).flushes == [] && lostOf t 0 0 18 == 0) = true := by
  decide +kernel

theorem test_flush_read :
    let w := updIo winRig .n fun i => { i with wins := [{ src := 0, window := 2, count := 3, last := 0x1000000040 }] }
    let f : FlushWait := { hdr := (flushMsg 18).hdr, windows := [(2, 3)], cfgs := [], lost := 0 }
    let wait (cfgs : List Nat) := updIo winRig .n fun i => { i with flushes := [{ f with cfgs := cfgs }] }
    after (.msFlush (.io .n)) (atIo (flushMsg 18) w) (fun t => (getIo t .n).flushes == [f] &&
      t.outbox == [.mrd .n (some 0) 0x1000000040 0 0]) = true ∧
    after (.flushReadDone .n 2 .ok) (wait []) (fun t => (getIo t .n).flushes == [] && (toDie0 t vcRsp).map (fun m => hStatus m.hdr) == [stsOk]) = true ∧
    after (.flushReadDone .n 2 .ur) (wait []) (fun t => (toDie0 t vcRsp).map (fun m => hStatus m.hdr) == [stsLost]) = true ∧
    after (.flushReadDone .n 2 .ur) (wait [7]) (fun t => (getIo t .n).flushes == [{ f with windows := [], cfgs := [7], lost := 3 }]) = true := by
  decide +kernel

theorem test_pio_timeout :
    let b := updSpur rig .s fun s => { s with pio := [mkPio opIoRd true 13 24 9 0 4 0, mkPio opIoRd true 13 0 9 0 4 0] }
    after (.pioTimeout .s 0 9) b (fun t => rd t (CNT_SPUR .s 4) == 1 && (getSpur t .s).pio.length == 1) = true ∧
    same (.pioTimeout .s 1 9) b = true := by decide +kernel

/-- A BcastInval of die 0 to the relay of HUB-N, and the MgtMsg of a Tollhouse. -/
def binvMsg (dst : Nat) : Msg := { hdr := mkMgt opBcastInval true dst 0 5 0 }
def mgt : Msg := { hdr := mkMgt opMgtMsg true 22 0 5 77 }

theorem test_mgt_msg : after (.mgtMsg .n) (boxed (boxTh .n) vcMgt mgt) (fun t => (getTh t .n).mail == [mgt] && getBox t (boxTh .n) vcMgt == []) = true ∧
    same (.mgtMsg .n) (boxed (boxTh .n) vcMgt (binvMsg 22)) = true ∧ same (.bcastInval .n) (boxed (boxTh .n) vcMgt mgt) = true := by
  decide +kernel

/-- Where the relay's copies go: the running dies of HUB-N and the relay of HUB-S; tags are free. -/
theorem test_bcast_inval : let b := boxed (boxTh .n) vcMgt (binvMsg 22)
    relayTargets b .n (binvMsg 22).hdr (binvPart b .n (binvMsg 22).hdr) = [0, 1, 2, 3, 4, 5, 23] ∧
      ([0, 1, 2, 3, 4, 5, 23].filter fun n => reachable b .n n) ≠ [] ∧ reachable b .n 0 = true ∧
      (freeTags 0 4095 (thTags (getTh b .n))).length = 4096 ∧ (getTh b .n).relay = [] := by decide +kernel

theorem test_bcast_copy :
    let b := boxed (boxDie 0) vcMgt (binvMsg 0)
    after (.bcastInvalCopy 0) b (fun t => (getDie t 0).copies == [{ hdr := (binvMsg 0).hdr, left := List.range 20 }]) = true ∧
    same (.bcastInvalCopy 0) rig = true := by decide +kernel

theorem test_hart_inval_ack :
    let c (l : List Nat) : BinvCopy := { hdr := (binvMsg 0).hdr, left := l }
    let b (l : List Nat) := updDie rig 0 fun d => { d with copies := [c l, c [3, 4]] }
    after (.hartInvalAck 3) (b [3, 19]) (fun t => (getDie t 0).copies == [c [19], c [3, 4]]) = true ∧
    after (.hartInvalAck 19) (b [19]) (fun t => (getDie t 0).copies == [c [3, 4]]) = true ∧
    same (.hartInvalAck 3) (updHart (b [3]) 3 fun h => { h with sb := [storeB] }) = true := by decide +kernel

theorem test_relay_timeout :
    let o (l : List (Nat × Nat)) : RelayOp := { num := 6, hdr := (binvMsg 22).hdr, part := 0, left := l }
    let b (l : List (Nat × Nat)) := updTh rig .n fun t => { t with relay := [o l] }
    after (.relayTimeout .n 6 23) (b [(0, 1), (23, 2)]) (fun t => (getTh t .n).relay == [o [(0, 1)]] &&
      (toDie0 t vcRsp).length == 6) = true ∧
    after (.relayTimeout .n 6 0) (b [(0, 1)]) (fun t => (getTh t .n).relay == [] &&
      (toDie0 t vcRsp).map (fun m => hStatus m.hdr) == [stsLost, stsOk]) = true ∧
    same (.relayTimeout .n 7 0) (b [(0, 1)]) = true ∧ same (.relayTimeout .n 6 1) (b [(0, 1)]) = true := by decide +kernel

/-! ## Harts -/

/-- Line 0x80000001 (0x20_0000_0040) in core 0's L2 in a state; its bytes 0 to 7 are 0x88…81. -/
def line1 : Nat := 0x80000001
def va1 : Word := 0x2000000040
def withLine (st : Nat) (f : HartSt → HartSt := id) (p : Poison := 0) : Block :=
  updHart rig 0 fun h => f { h with l2 := h.l2.set {} (line1 % 2048 * 16 + 3) { st := st, line := line1, data := 0x8887868584838281, poison := p } }

/-- Core 0 in a mode. -/
def inMode (p : Priv) (f : Block → Block := id) : Block := f (updHart rig 0 fun h => { h with priv := p })

/-- A store in the buffer, an unmet fence, a poisoned fetched instruction, a reset core. -/
def buffered : Block := updHart rig 0 fun h => { h with sb := [storeB], sbNext := 1 }
def fenced (p q : Nat) : Block := updHart buffered 0 fun h => { h with fences := [(p, q)] }
def badFetch : Block := updHart rig 0 fun h => { h with fetched := [{ va := 0x100, poisoned := true }] }
def heldCore : Block := fset rig (FCD_RESET_STATUS 0) FCD_RESET_STATUS_CORE_HELD 1

theorem test_begins : canBegin rig 0 15 = true ∧ fetchPoisoned rig 0 = false ∧ canBegin heldCore 0 0 = false ∧
    canBegin (fenced 1 2) 0 clsR = false ∧ canBegin (fenced 1 2) 0 clsW = true ∧ fetchPoisoned badFetch 0 = true ∧
    same (.load 0 (.x 5 true) va1 .b8 false .clean) heldCore = true ∧ same (.lr 0 5 va1 true) (fenced 1 2) = true ∧
    after (.store 0 va1 .b8 1) badFetch (fun t => rdCsr t 0 csrMcause == excHardware && rdCsr t 0 csrMepc == 0x100 &&
      (getHart t 0).sb == []) = true := by decide +kernel

theorem test_load_fault :
    let b := inMode .hs fun b => cset b 0 0x180 ⟨63, 60⟩ 8
    (match translate b 0 .load 0x8000000000000000 with | (.fault c _, _) => c == 13 | _ => false) = true ∧
    after (.load 0 (.x 5 true) 0x8000000000000000 .b8 false .clean) b (fun t => rdCsr t 0 csrMcause == 13 &&
      rdCsr t 0 csrMtval == 0x8000000000000000 && (getHart t 0).priv == .m) = true := by decide +kernel

theorem test_loads : translate rig 0 .load va1 = (.ok 0x2000000040 .pma, rig) ∧ accType rig 0 0x2000000040 .pma = .pma ∧
    isRegion rig 0 (ctl 1) = true ∧
    after (.load 0 (.x 5 false) (BitVec.ofNat 64 (ctl 1)) .b4 false .clean) rig (fun t => rdCsr t 0 csrMcause == excLoadMisaligned) = true ∧
    after (.load 0 (.x 5 true) va1 .b2 false .clean) (withLine stS) (fun t => getX t 0 5 == 0xFFFFFFFFFFFF8281) = true ∧
    after (.load 0 (.x 5 false) 0x2000000047 .b1 false .clean) (withLine stS) (fun t => getX t 0 5 == 0x88) = true ∧
    after (.load 0 (.x 0 false) va1 .b8 false .clean) (withLine stS) (fun t => getX t 0 0 == 0) = true ∧
    after (.load 0 (.x 5 true) va1 .b1 false .clean) buffered (fun t => getX t 0 5 == 7) = true := by decide +kernel

/-- A load that finds no tag or way waits: the hypotheses of the miss, whose tag is free. -/
theorem test_load_miss : (getHart rig 0).sb = [] ∧ l2Line (getHart rig 0) line1 = none ∧ lineReq rig 0 line1 = none ∧
    secDenies (withLine stS) 0 line1 true = false ∧ fenceHolds rig 0 clsR = false ∧ (l2Line (getHart (withLine stS) 0) line1).isSome = true := by
  decide +kernel

theorem test_store : storeCls .pma = clsW ∧ after (.store 0 va1 .b4 0x12345678) (withLine stS) (fun t => (getHart t 0).sb ==
      [{ id := 0, va := va1, pa := 0x2000000040, len := 4, value := 0x12345678, mtype := .pma, world := true }] &&
      (getHart t 0).l2 == (getHart (withLine stS) 0).l2 && (getHart t 0).sbNext == 1) = true := by decide +kernel

theorem test_drain : mayDrain buffered 0 = true ∧ same (.storeBufferDrain 0) rig = true ∧
    after (.storeBufferDrain 0) (withLine stE fun h => { h with sb := [storeB] }) (fun t => (getHart t 0).sb == [] &&
      (l2Line (getHart t 0) line1).any fun l : L2Line => l.st == Machine.stM && lineBytes l.data 0 8 == 0x8887868584838207) = true ∧
    stWritable stE = true := by decide +kernel

theorem test_atomics :
    after (.amo 0 .add 5 va1 false 1) (withLine stE) (fun t => getX t 0 5 == 0xFFFFFFFF84838281 &&
      (l2Line (getHart t 0) line1).any fun l : L2Line => l.st == Machine.stM && lineBytes l.data 0 8 == 0x8887868584838282) = true ∧
    after (.amo 0 .minu 5 0x2000000041 false 1) rig (fun t => rdCsr t 0 csrMcause == excStoreMisaligned) = true ∧
    after (.lr 0 5 0x2000000042 false) rig (fun t => rdCsr t 0 csrMcause == excLoadMisaligned) = true ∧
    after (.sc 0 5 0x2000000044 true 1) rig (fun t => rdCsr t 0 csrMcause == excStoreMisaligned) = true ∧
    after (.lr 0 5 va1 true) (withLine stE) (fun t => getX t 0 5 == 0x8887868584838281 && (getHart t 0).resv == some line1) = true ∧
    after (.sc 0 5 va1 true 9) (withLine stE) (fun t => getX t 0 5 == 1 && (getHart t 0).l2 == (getHart (withLine stE) 0).l2) = true ∧
    after (.sc 0 5 va1 true 9) (withLine stE fun h => { h with resv := some line1 }) (fun t => getX t 0 5 == 0 &&
      (getHart t 0).resv == none && (l2Line (getHart t 0) line1).any fun l => lineBytes l.data 0 8 == 9) = true := by decide +kernel

theorem test_fetch :
    after (.instructionFetch 0 va1 false .clean) (withLine stS) (fun t => (getHart t 0).fetched.map (fun f => (f.va, f.poisoned)) == [(va1, false)]) = true ∧
    after (.instructionFetch 0 va1 false .clean) (withLine stS id 1) (fun t => (getHart t 0).fetched.map (·.poisoned) == [true]) = true ∧
    same (.instructionFetch 0 va1 false .clean) heldCore = true := by decide +kernel

/-- A core whose L1s hold the line too. -/
def inL1s (p : Poison := 0) : Block := withLine stS (fun h => { h with
  l1d := h.l1d.set 0 (line1 % 128 * 8) (line1 + 1), l1i := h.l1i.set 0 (line1 % 256 * 8) (line1 + 1) }) p

/-- R275, R279: a parity error in the L1D, a poisoned word that a load then consumes, an error in an L1's line that the L2 does
not see, a frozen feeder stop. -/
theorem test_array_errors :
    (l1Find (getHart inL1s 0).l1d (l1dKeys line1) line1).isSome = true ∧
    after (.load 0 (.x 5 false) va1 .b1 true .clean) inL1s (fun t => getX t 0 5 == 0x81 &&
      ((t.evPath.get [] 0).length == (inL1s.evPath.get [] 0).length + 1)) = true ∧
    after (.load 0 (.x 5 false) va1 .b1 false (.word 0)) (withLine stS) (fun t => rdCsr t 0 csrMcause == excHardware &&
      (l2Line (getHart t 0) line1).any fun l => l.poison == 1 && l.st == stS) = true ∧
    after (.load 0 (.x 5 false) va1 .b1 false (.word 0)) inL1s (fun t => getX t 0 5 == 0x81) = true ∧
    after (.load 0 (.x 5 false) va1 .b1 false (.tag 0)) (withLine stS) (fun t => getX t 0 5 == 0x81 && (getDie t 0).frozen) = true ∧
    after (.instructionFetch 0 va1 true (.word 0)) inL1s (fun t => (getHart t 0).fetched.map (·.poisoned) == [true]) = true ∧
    after (.instructionFetch 0 va1 false (.word 0)) inL1s (fun t => (getHart t 0).fetched.map (·.poisoned) == [false]) = true := by
  decide +kernel

/-! ## Fences, milestones, traps, core states -/

theorem test_fences : unperformed buffered 0 = clsW ∧
    after (.fence 0 3 2) buffered (fun t => (getHart t 0).fences == [(3, 2)] && (getHart t 0).sb == [storeB]) = true ∧
    after (.fence 0 2 2) buffered (fun t => (getHart t 0).fences == []) = true ∧
    after (.fenceTso 0) buffered (fun t => (getHart t 0).fences == [(3, 3)]) = true ∧
    same (.fenceI 0) buffered = true ∧
    after (.fenceI 0) (updHart rig 0 fun h => { h with fetched := [⟨0x104, false, 0, false⟩, ⟨0x108, false, 0, false⟩] }) (fun t =>
      (getHart t 0).fetched == [] && (getHart t 0).pc == 0x104) = true := by decide +kernel

theorem test_milestones : Quiet rig 0 ∧ Quiet buffered 0 := by unfold Quiet; decide +kernel

theorem test_milestone :
    let b := updHart rig 0 fun h => { h with x := h.x.set 0 7 0x1F, lost := h.lost.set 0 3 2 }
    let w := cset (updHart rig 0 fun h => { h with ms := some { rd := 5, mask := 8 } }) 0 FCD_BINV FCD_BINV_OUTSTANDING 1
    after (.milestone 0 5 7 1) rig (fun t => rdCsr t 0 csrMcause == excIllegal) = true ∧
    after (.milestone 0 5 7 0) buffered (fun t => (getHart t 0).ms == some { rd := 5, mask := 0 }) = true ∧
    after (.milestone 0 5 7 0) b (fun t => getX t 0 5 == 1 && (getHart t 0).lost.get 0 3 == 0 && (getHart t 0).ms == none) = true ∧
    after (.milestone 0 5 6 0) rig (fun t => getX t 0 5 == 0) = true ∧
    msPending w 0 8 = 8 ∧ after (.milestoneTimeout 0) w (fun t => getX t 0 5 == 2 && (getHart t 0).ms == none) = true ∧
    after (.milestoneTimeout 0) rig (fun t => (getHart t 0).ms == none) = true := by decide +kernel

theorem test_interrupts :
    let cause : Word := BitVec.ofNat 64 (2 ^ 63 + 7)
    let m := wrCsr (wrCsr rig 0 csrMtvec 0x1001) 0 csrMstatus 8
    let s := wrCsr (wrCsr (inMode .hs) 0 csrMideleg 0x80) 0 csrStvec 0x2000
    trapTarget m 0 true 7 = .m ∧ trapTarget s 0 true 7 = .hs ∧
    after (.interruptTaken 0 cause) m (fun t => (getHart t 0).pc == 0x101C && rdCsr t 0 csrMcause == cause.toNat &&
      bitsOf (rdCsr t 0 csrMstatus) 12 11 == 3 && !csrBit t 0 csrMstatus 3 && csrBit t 0 csrMstatus 7) = true ∧
    after (.interruptTaken 0 cause) s (fun t => (getHart t 0).pc == 0x2000 && (getHart t 0).priv == .hs &&
      rdCsr t 0 csrScause == cause.toNat) = true ∧ same (.interruptTaken 0 cause) heldCore = true := by decide +kernel

theorem test_core_states :
    let tw := inMode .hs fun b => wrCsr b 0 csrMstatus (2 ^ 21)
    let c1 := cset (updHart rig 0 fun h => { h with core := .c1, l1d := h.l1d.set 0 3 9 }) 0 FCD_CORE_PWR FCD_CORE_PWR_C3_ENABLE 1
    after (.wfi 0) rig (fun t => (getHart t 0).core == .c1 && t.regs == rig.regs) = true ∧
    after (.wfi 0) tw (fun t => rdCsr t 0 csrMcause == excIllegal && (getHart t 0).core == .c0) = true ∧
    after (.c3Entry 0) c1 (fun t => (getHart t 0).core == .c3 && (getHart t 0).l1d == {}) = true ∧
    same (.c3Entry 0) rig = true ∧ after (.coreWake 0) c1 (fun t => (getHart t 0).core == .c0) = true := by decide +kernel

/-! ## Cache-block operations, hints, translation caches, worlds -/

theorem test_cbo_traps :
    after (.cboClean 0 va1) (inMode .hs) (fun t => rdCsr t 0 csrMcause == excIllegal) = true ∧
    after (.cboInval 0 va1) (inMode .vs fun b => wrCsr b 0 csrMenvcfg 0x10) (fun t => rdCsr t 0 csrMcause == excVirtual) = true ∧
    cbieFlush (inMode .hs fun b => wrCsr b 0 csrMenvcfg 0x10) 0 = true ∧
    after (.cboFlush 0 va1) (cset (updHart (withLine stS) 0 fun h => { h with l2 := h.l2.upd {} (line1 % 2048 * 16 + 3) fun l => { l with sec := true } })
      0 FCD_WORLD FCD_WORLD_WORLD 0) (fun t => rdCsr t 0 csrMcause == excStoreAccess) = true ∧
    cboTrap rig 0 cbcfeOn = none ∧ l2Find (getHart rig 0) line1 = none ∧ missCount rig 0 = 0 := by decide +kernel

theorem test_cbo_zero : after (.cboZero 0 0x2000000047) rig (fun t => (getHart t 0).sb.map (fun e => (e.pa, e.len, e.zero)) ==
    [(0x2000000040, 64, true)]) = true := by decide +kernel

theorem test_hints : hintLine (withLine stE) 0 .load va1 = (some line1, withLine stE) ∧
    after (.prefetchR 0 va1) (withLine stS) (fun t => (l1Find (getHart t 0).l1d (l1dKeys line1) line1).isSome) = true ∧
    after (.prefetchI 0 va1) (withLine stS) (fun t => (l1Find (getHart t 0).l1i (l1iKeys line1) line1).isSome) = true ∧
    after (.prefetchW 0 va1) (withLine stE) (fun t => t == retire (withLine stE) 0) = true ∧
    after (.prefetchR 0 (BitVec.ofNat 64 (ctl 0))) rig (fun t => t == retire rig 0) = true := by decide +kernel

/-- Entries for two address spaces in core 0's TLBs. -/
def tlbs (b : Block) : Block := updHart b 0 fun h => { h with
  itlb := [{ vpn := 5, size := 12, pa := 0, asid := 1, world := true }], dtlb := [{ vpn := 5, size := 12, pa := 0, asid := 2, world := true }, { vpn := 6, size := 12, pa := 0, asid := 2, virt := true, world := true }]
  tlb2 := [{ vpn := 5, size := 12, pa := 0, global := true, world := true }] }

theorem test_sfence :
    after (.sfenceVma 0 (some 0x5000) none) (tlbs rig) (fun t => (getHart t 0).itlb == [] && (getHart t 0).tlb2 == [] &&
      (getHart t 0).dtlb.map (·.vpn) == [6]) = true ∧
    after (.sinvalVma 0 none (some 1)) (tlbs buffered) (fun t => (getHart t 0).itlb == [] && (getHart t 0).dtlb.length == 2 &&
      (getHart t 0).tlb2.length == 1) = true ∧
    same (.sfenceVma 0 none none) (tlbs buffered) = true ∧
    after (.sfenceVma 0 none none) (inMode .vu) (fun t => rdCsr t 0 csrMcause == excVirtual) = true := by decide +kernel

theorem test_hfence :
    after (.hfenceVvma 0 none none) (tlbs rig) (fun t => (getHart t 0).dtlb.map (·.vpn) == [5] && (getHart t 0).itlb.length == 1) = true ∧
    after (.hinvalVvma 0 (some 0x5000) none) (tlbs buffered) (fun t => (getHart t 0).dtlb.length == 2) = true ∧
    after (.hfenceGvma 0 none none) (tlbs rig) (fun t => (getHart t 0).dtlb.map (·.vpn) == [5]) = true ∧
    after (.hinvalGvma 0 none none) (tlbs buffered) (fun t => (getHart t 0).dtlb.map (·.vpn) == [5]) = true ∧
    after (.hfenceGvma 0 none none) (inMode .hs fun b => wrCsr b 0 csrMstatus (2 ^ 20)) (fun t => rdCsr t 0 csrMcause == excIllegal) = true ∧
    same (.hfenceVvma 0 none none) (tlbs buffered) = true := by decide +kernel

theorem test_svinval : after (.sfenceWInval 0) rig (fun t => t == retire rig 0) = true ∧ same (.sfenceWInval 0) buffered = true ∧
    after (.sfenceInvalIr 0) buffered (fun t => t == retire buffered 0) = true ∧
    after (.sfenceInvalIr 0) (inMode .u) (fun t => rdCsr t 0 csrMcause == excIllegal) = true := by decide +kernel

theorem test_world_write :
    after (.worldWrite 0 2) rig (fun t => !hartWorld t 0 && cget t 0 FCD_WORLD FCD_WORLD_COUNT_SECURE == 1) = true ∧
    after (.worldWrite 0 3) rigNormal (fun t => hartWorld t 0 && cget t 0 FCD_WORLD FCD_WORLD_COUNT_SECURE == 0) = true ∧
    same (.worldWrite 0 2) buffered = true ∧
    after (.worldWrite 0 2) (inMode .hs) (fun t => rdCsr t 0 csrMcause == excIllegal && hartWorld t 0) = true := by decide +kernel

theorem test_broadcast_write :
    let four := cset rig 0 FCD_BINV FCD_BINV_OUTSTANDING 4
    let v (op : Nat) : Word := BitVec.ofNat 64 (2 ^ 63 + 5 * 65536 + op)
    after (.broadcastInvalidationWrite 0 0x50003) rig (fun t => cget t 0 FCD_BINV FCD_BINV_OP == 3 &&
      cget t 0 FCD_BINV FCD_BINV_ASID == 5 && t.dies == rig.dies) = true ∧
    after (.broadcastInvalidationWrite 0 (v 12)) rig (fun t => rdCsr t 0 csrMcause == excIllegal) = true ∧
    after (.broadcastInvalidationWrite 0 (v 0)) rig (fun t => rdCsr t 0 csrMcause == excIllegal) = true ∧
    same (.broadcastInvalidationWrite 0 (v 11)) four = true ∧ cget rig 0 FCD_BINV FCD_BINV_OUTSTANDING = 0 ∧
    after (.broadcastInvalidationWrite 0 (v 1)) (inMode .vs) (fun t => rdCsr t 0 csrMcause == excVirtual) = true ∧
    after (.broadcastInvalidationWrite 0 (v 1)) (inMode .u) (fun t => rdCsr t 0 csrMcause == excIllegal) = true := by decide +kernel

theorem test_setway :
    let key := line1 % 2048
    after (.l2SetwayClean 0 (Fin.ofNat 2048 key) 3) rig (fun t => t == retire rig 0) = true ∧
    after (.l2SetwayEvict 0 (Fin.ofNat 2048 key) 3) (inMode .hs) (fun t => rdCsr t 0 csrMcause == excIllegal) = true ∧
    same (.l2SetwayClean 0 (Fin.ofNat 2048 key) 3) (withLine 0 fun h => { h with l2 := h.l2.set {} (key * 16 + 3) { reserved := some 5 } }) = true ∧
    (evictWay (withLine stS) 0 (key * 16 + 3) true).isSome = true ∧
    after (.l2SetwayEvict 0 (Fin.ofNat 2048 key) 3) (withLine stS) (fun t => l2Line (getHart t 0) line1 == none) = true := by decide +kernel

theorem test_miss_resume :
    let w : WaitMiss := { op := opRdOnce, line := line1, hint := 0, world := true, purpose := .nc, accs := [] }
    let b := updHart rig 0 fun h => { h with waiting := [w] }
    Quiet b 0 ∧ missCount b 0 = 0 ∧ freeTags 0 4095 ((getDie b 0).reqs.map (·.tag) ++ (getDie b 0).quarantine) ≠ [] ∧
      same (.l2MissResume 0) rig = true := by unfold Quiet; decide +kernel

theorem test_stream_prefetch :
    let b := updHart rig 0 fun h => { h with streams := [{ last := line1, trained := true }] }
    mayPrefetch b 0 = true ∧ nextPrefetch b 0 = some (line1 + 1, false) ∧ same (.streamPrefetch 0) rig = true ∧
      (l2Victim b 0 (line1 + 1)).isSome = true := by decide +kernel

/-! ## Home slices -/

/-- The line at 0x20_0000_1080, whose home is slice 2 of HUB-N. -/
def line2 : Nat := 0x80000042

/-- A REQ of die 0 for `line2`, and a message in the box of its slice. -/
def reqOf (op : Nat) (rest : Nat := 0) : Msg := { hdr := mkReq op true 16 0 7 line2 0 rest }
def inSlice (vc : Nat) (m : Msg) (b : Block := rig) : Block := boxed (boxSlice .n 2) vc m b

/-- Slice 2 of HUB-N changed. -/
def slice2 (f : Slice → Slice) (b : Block := rig) : Block := updSlice b .n 2 f

/-- What slice 2's trackers are, by opcode of the request. -/
def ops (b : Block) : List Nat := (getSlice b .n 2).trackers.map fun t => hOp t.hdr

theorem test_home : (match decodePa rig .n 0 (line2 * 64) with | .group _ _ x => x.hub * 32 + x.slice | _ => 99) = 2 := by decide +kernel

theorem test_requests_join :
    let goes (i : Instr) (op : Nat) (rest : Nat := 0) : Bool := after i (inSlice vcReq (reqOf op rest)) fun t =>
      ops t == [op] && getBox t (boxSlice .n 2) vcReq == []
    goes (.rdShared .n 2 .clean) opRdShared = true ∧ goes (.rdUnique .n 2) opRdUnique = true ∧ goes (.rdOnce .n 2) opRdOnce = true ∧
    goes (.cleanUnique .n 2) opCleanUnique = true ∧ goes (.wrUnique .n 2) opWrUnique = true ∧
    goes (.atomAdd .n 2) opAtomAdd = true ∧ goes (.atomSwap .n 2) opAtomSwap = true ∧ goes (.atomCas .n 2) opAtomCas = true ∧
    goes (.atomMinMax .n 2) opAtomMinMax = true := by decide +kernel

/-- CMOs of a line that nothing holds, and a WrBack of a holder that the filter does not name, end at once. -/
theorem test_requests_end :
    let ends (i : Instr) (op st : Nat) (rest : Nat := 0) : Bool := after i (inSlice vcReq (reqOf op rest)) fun t =>
      ops t == [] && (toDie0 t vcRsp).map (fun m => (hOp m.hdr, hTag m.hdr)) == [(st, 7)]
    ends (.cmoClean .n 2) opCmoClean opComp = true ∧ ends (.cmoInval .n 2) opCmoInval opComp = true ∧
    ends (.cmoCleanInval .n 2) opCmoCleanInval opComp = true ∧ ends (.wrBack .n 2) opWrBack opWbAck (place stS 92 90) = true := by
  decide +kernel

theorem test_requests_wait :
    let b := inSlice vcReq (reqOf opRdOnce)
    let full := slice2 (fun s => { s with trackers := List.replicate 2048 { id := 0, kind := .maint, line := 0 } }) b
    same (.rdShared .n 2 .clean) b = true ∧ same (.rdOnce .n 2) full = true ∧ same (.rdOnce .n 2) rig = true ∧
    after (.rdOnce .n 5) (boxed (boxHome .n) vcReq (reqOf opRdOnce)) (fun t => getBox t (boxHome .n) vcReq == [] &&
      (toDie0 t vcRsp).map (fun m => hStatus m.hdr) == [stsError]) = true := by decide +kernel

theorem test_requests_denied :
    let b := wr (wr rig (HUB_WORLD_REGION_BASE .n 0) (2 ^ 63 + place 1 59 56 + 0x2000000000)) (HUB_WORLD_REGION_SIZE .n 0) 2
    let m (op : Nat) : Msg := { hdr := mkReq op false 16 0 7 line2 0 0 }
    homeDenies b .n 0 (line2 * 64) (m opRdShared).hdr = true ∧
    after (.rdShared .n 2 .clean) (inSlice vcReq (m opRdShared) b) (fun t => ops t == [] &&
      (toDie0 t vcRsp).map (fun m => hStatus m.hdr) == [stsError]) = true ∧
    after (.wrBack .n 2) (inSlice vcReq (m opWrBack) b) (fun t => ops t == [opWrBack] &&
      (toDie0 t vcRsp).map (fun m => hOp m.hdr) == [opWbGrant]) = true := by decide +kernel

/-- R293: an uncorrectable word is poisoned in place; a way with an uncorrectable tag is not used again. -/
theorem test_slice_errors :
    let key := (scWays (line2 * 64)).getD 4 0
    let b := inSlice vcReq (reqOf opRdShared) (slice2 fun s => { s with sc := s.sc.set {} key { valid := true, line := line2, data := 5 } })
    scFind (getSlice b .n 2) line2 = some key ∧
    (scLine (getSlice (readCheck b .n 2 (.word 3)) .n 2) line2).map (·.poison) = some 8 ∧
    (let t := readCheck b .n 2 (.tag 4)
     (getSlice t .n 2).dead = [key] ∧ scFind (getSlice t .n 2) line2 = none ∧ rd t (HUB_ERR_STATUS .n) = 4 ∧
      (scAvail (getSlice t .n 2) 0 line2).length = 15) ∧
    after (.rdShared .n 2 (.tag 4)) b (fun t => bitOf (rd t (HUB_ERR_STATUS .n)) 2 && (getSlice t .n 2).dead == [key]) = true := by
  decide +kernel

theorem test_io_requests :
    let w := { ioW 16 0x2000001084 4 0x55 with data := lineOf 4 4 0x55 }
    after (.ioWr (.slice .n 2)) (inSlice vcPio w) (fun t => ops t == [opIoWr]) = true ∧
    after (.ioRd (.slice .n 2)) (inSlice vcPio (ioR 16 0x2000001084 4)) (fun t => ops t == [opIoRd]) = true ∧
    same (.ioRd (.slice .n 2)) (inSlice vcPio w) = true := by decide +kernel

/-- A tracker of die 0's request `op` for `line2`, active, with a snoop of die 1 out. -/
def tr0 (op : Nat) (f : Tracker → Tracker := id) : Tracker :=
  f { id := 0, kind := .req, line := line2, hdr := (reqOf op).hdr, active := true, looked := true
      snoops := [{ node := 1, op := opSnpShared, fwd := true, sent := true }] }
def withTr (t : Tracker) (f : Slice → Slice := id) : Block := slice2 fun s => f { s with trackers := [t], nextId := 1 }

/-- The filter's entry of `line2`. -/
def entry1 (e : FEnt) (s : Slice) : Slice :=
  { s with filter := s.filter.set {} (fSet (line2 * 64) * 16) { e with valid := true, tag := fTag (line2 * 64) } }

theorem test_way_available :
    let t := tr0 opRdShared fun t => { t with snoops := [], needWay := true, looked := false }
    same (.wayAvailable .n 2) (withTr (tr0 opRdShared)) = true ∧
    after (.wayAvailable .n 2) (withTr t) (fun b => (fEntry (getSlice b .n 2) (line2 * 64)).isSome &&
      ((getSlice b .n 2).trackers.map fun x => (x.needWay, x.reading)) == [(false, true)]) = true ∧
    after (.wayAvailable .n 2) (withTr { t with active := false }) (fun b => (getSlice b .n 2).trackers.map (·.active) == [true]) = true := by
  decide +kernel

theorem test_delivery_report :
    let b := { slice2 (fun s => { s with handovers := [⟨line2, 0, 7⟩, ⟨5, 1, 7⟩] }) with reports := rig.reports.set [] 0 [(9, 9), (0, 7)] }
    after (.deliveryReport .n 2) b (fun t => (getSlice t .n 2).handovers == [⟨5, 1, 7⟩] && t.reports.get [] 0 == [(9, 9)]) = true ∧
    same (.deliveryReport .n 2) rig = true := by decide +kernel

/-- A SnpResp and a SnpRespData of die 1 to slice 2 for die 0's request. -/
def snpRsp (st : Nat) (fwd : Bool) : Msg := { hdr := mkSnpResp true 16 1 7 0 2 st fwd }
def snpDat (d : Nat) : Msg := { hdr := mkDat opSnpRespData true 16 1 7 0 stsOk 2 beAll 0, data := BitVec.ofNat 512 d }

theorem test_snoop_answers :
    let e := entry1 { present := 2, resp := 1, kind := 1 }
    after (.snpResp .n 2) (inSlice vcRsp (snpRsp stS true) (withTr (tr0 opRdShared) e)) (fun t => ops t == [] &&
      (toDie0 t vcRsp).map (fun m => (hOp m.hdr, hState m.hdr)) == [(opComp, stI)] &&
      (fEntry (getSlice t .n 2) (line2 * 64)).map (fun e => (e.present, e.resp)) == some (3, 0)) = true ∧
    after (.snpRespData .n 2) (inSlice vcDat (snpDat 0x77) (withTr (tr0 opRdShared) e)) (fun t => ops t == [] &&
      (toDie0 t vcDat).map (fun m => (hOp m.hdr, m.data)) == [(opCompData, 0x77)]) = true ∧
    after (.snpResp .n 2) (inSlice vcRsp (snpRsp stS true)) (fun t => t == unknownTag rig (snpRsp stS true)) = true ∧
    after (.snpRespData .n 2) (inSlice vcDat (snpDat 1)) (fun t => t == unknownTag rig (snpDat 1)) = true ∧
    same (.snpResp .n 2) rig = true ∧ same (.wrData .n 2) (inSlice vcDat (snpDat 1)) = true := by decide +kernel

theorem test_second_answer :
    let t := tr0 opRdShared fun t => { t with snoops := t.snoops.map fun n => { n with answered := true }, active := false }
    let m : Msg := { hdr := mkSnpResp false 16 1 7 0 2 stS true }
    after (.snpResp .n 2) (inSlice vcRsp m (withTr t)) (fun b => rd b (CNT_JCT .n 2 7) == 1 && ops b == [opRdShared]) = true := by
  decide +kernel

theorem test_wr_data :
    let m : Msg := { hdr := mkDat opWrData true 16 0 7 0 stsOk 2 (beOf 0 4) 0, data := 0xAABBCCDD }
    let t := tr0 opWrUnique fun t => { t with snoops := [], granted := true, memData := some (0x1122334455667788, 0) }
    after (.wrData .n 2) (inSlice vcDat m (withTr t)) (fun b => ops b == [] && (toDie0 b vcRsp).map (fun m => hOp m.hdr) == [opComp] &&
      (scLine (getSlice b .n 2) line2).map (fun l => (l.dirty, l.data)) == some (true, 0x11223344AABBCCDD)) = true ∧
    after (.wrData .n 2) (inSlice vcDat m) (fun b => b == unknownTag rig m) = true ∧
    same (.snpRespData .n 2) (inSlice vcDat m) = true := by decide +kernel

theorem test_memory_read_done :
    let t := tr0 opRdOnce fun t => { t with snoops := [], reading := true }
    let back (b : Block) := slice2 (fun s => { s with memBack := [(0, some (0x99, 0))] }) b
    after (.memoryReadDone .n 2) (back (withTr t)) (fun b => ops b == [] && (toDie0 b vcDat).map (·.data) == [0x99]) = true ∧
    after (.memoryReadDone .n 2) (back rig) (fun b => (getSlice b .n 2).memBack == [] && (getSlice b .n 2).trackers == []) = true ∧
    same (.memoryReadDone .n 2) rig = true := by decide +kernel

theorem test_next_line :
    let b (f : Slice → Slice) := slice2 fun s => f { s with nextIn := [(line2, 0, true)] }
    after (.nextLineFetch .n 2) (b id) (fun t => (getSlice t .n 2).trackers.map (fun x => (x.kind, x.line, x.reading)) ==
      [(.nextLine, line2, true)] && (getSlice t .n 2).nextIn == []) = true ∧
    after (.nextLineFetch .n 2) (b (entry1 { present := 1 })) (fun t => (getSlice t .n 2).trackers == [] &&
      (getSlice t .n 2).nextIn == []) = true ∧ same (.nextLineFetch .n 2) rig = true := by decide +kernel

theorem test_write_accept :
    let t := tr0 opCmoClean fun t => { t with snoops := [], placed := true, writes := 1, out := some (Machine.compMsg rig .n t stI stsOk) }
    after (.mcWriteAccept .n 2) (withTr t fun s => { s with accepted := [(0, false)] }) (fun b => ops b == [] &&
      (toDie0 b vcRsp).map (fun m => hStatus m.hdr) == [stsError]) = true ∧ same (.mcWriteAccept .n 2) rig = true := by decide +kernel

theorem test_answer_timeout :
    let far := tr0 opRdOnce fun t => { t with snoops := [{ node := 18, op := opSnpClean, fwd := false, sent := true }] }
    after (.answerTimeout .n 2 0 1) (withTr (tr0 opRdShared)) (fun b => agentLost b .n 1 && agentLost b .s 1) = true ∧
    after (.answerTimeout .n 2 0 18) (withTr far) (fun b => (getSlice b .n 2).trackers.map (·.synth) == [true]) = true ∧
    same (.answerTimeout .n 2 0 5) (withTr far) = true ∧ same (.answerTimeout .n 2 3 18) (withTr far) = true := by decide +kernel

/-- Every clause of how flows finish: RdUnique from memory, RdOnce, CleanUnique, CmoInval and an AtomAdd of 4 bytes. -/
theorem test_flows_finish :
    let t (op : Nat) (f : Tracker → Tracker := id) := tr0 op fun t => f { t with snoops := [] }
    let sc (s : Slice) : Slice := { s with sc := s.sc.set {} (scWays (line2 * 64)).head! { valid := true, line := line2, data := 5 } }
    let out (b : Block) (x : Tracker) : Option (Nat × Nat × LineData) :=
      (getTr (finishReq b .n 2 x) .n 2 0).bind fun x => x.out.map fun m => (hOp m.hdr, hState m.hdr, m.data)
    let fin (op : Nat) (f : Tracker → Tracker := id) := out (withTr (t op f) (fun s => sc (entry1 { present := 3, resp := 1, kind := 2 } s))) (t op f)
    whoOf rig 0 = 0 ∧ fin opRdUnique = some (opCompData, stE, 5) ∧ fin opRdOnce = some (opCompData, stI, 5) ∧
    fin opCleanUnique = some (opComp, stE, 0) ∧ fin opCmoInval = some (opComp, stI, 0) ∧
    fin opAtomAdd (fun t => { t with wr := some (3, beOf 0 4, 0) }) = some (opCompData, stI, 5) ∧
    (scLine (getSlice (finishReq (withTr (t opAtomAdd fun t => { t with wr := some (3, beOf 0 4, 0) }) sc) .n 2
      (t opAtomAdd fun t => { t with wr := some (3, beOf 0 4, 0) })) .n 2) line2).map (·.data) = some 8 := by decide +kernel

/-! ## Snoops and answers at a compute die -/

/-- A snoop for `line1` to die 0, on the ring road with all harts but some still to act. -/
def snpMsg (op : Nat) (fwd : Bool := false) : Msg := { hdr := mkSnp op true 0 1 9 line1 17 3 fwd }
def roadSnp (op : Nat) (left : List Nat := List.range 20) (fwd : Bool := false) : DieSnoop := { hdr := (snpMsg op fwd).hdr, left := left }
def onRoad (x : DieSnoop) (b : Block := withLine Machine.stM) : Block := updDie b 0 fun d => { d with snoops := [x] }

/-- What waits to leave die 0. -/
def fromDie0 (b : Block) (c : Nat) : List Msg := (getLink b (.die 0)).txq.get [] c

theorem test_snoop_dispatch :
    let b := boxed (boxDie 0) vcSnp (snpMsg opSnpShared)
    after (.snoopDispatch 0) b (fun t => (getDie t 0).snoops == [roadSnp opSnpShared] && getBox t (boxDie 0) vcSnp == []) = true ∧
    same (.snoopDispatch 0) rig = true ∧ same (.snoopDispatch 0) (updDie b 0 fun d => { d with clockOff := true }) = true := by
  decide +kernel

theorem test_snoops_act :
    let acts (i : Instr) (op st : Nat) (data fwd : Bool) (n : Nat) : Bool := after i (onRoad (roadSnp op (List.range 20) fwd)) fun t =>
      l2State (getHart t 0) line1 == st && (fromDie0 t vcDat).length == n &&
        (getDie t 0).snoops.map (fun x => (x.left.length, x.parts.map fun p => (p.hart, p.st, p.data.isSome))) == [(19, [(0, st, data)])]
    acts (.snpShared 0 .clean) opSnpShared stO false true 1 = true ∧ acts (.snpUnique 0) opSnpUnique stI true false 0 = true ∧
    acts (.snpInval 0) opSnpInval stI false false 0 = true ∧ acts (.snpClean 0) opSnpClean stE true false 0 = true ∧
    acts (.snpBack 0) opSnpBack stI true false 0 = true ∧ same (.snpShared 0 .clean) (onRoad (roadSnp opSnpUnique)) = true := by decide +kernel

/-- R279: the L2 finds an uncorrectable word as a snoop reads the line, or an uncorrectable tag, which freezes the stop. -/
theorem test_snoop_errors :
    let b := onRoad (roadSnp opSnpShared)
    after (.snpShared 0 (.word 2)) b (fun t => (getDie t 0).snoops.map (fun x => x.parts.map fun p => p.data.map (·.2)) == [[some 4]]) = true ∧
    after (.snpShared 0 (.tag 0)) (onRoad (roadSnp opSnpShared (List.range 20) true)) (fun t => (getDie t 0).frozen &&
      (fromDie0 t vcDat).length == 0) = true := by decide +kernel

theorem test_snoop_held :
    let r : Req := { tag := 4, hart := some 0, line := line1, comp := some (compMsg.hdr) }
    let b (x : DieSnoop) := updDie (onRoad x rig) 0 fun d => { d with reqs := [r] }
    holdsSnoop (b (roadSnp opSnpShared)) 0 line1 = true ∧
    after (.snpShared 0 .clean) (b (roadSnp opSnpShared)) (fun t => rd t (CNT_DIE 0 2) == 1 &&
      (getDie t 0).snoops.map (fun x => (x.left.length, x.held)) == [(19, [0])]) = true ∧
    same (.snpShared 0 .clean) (b { roadSnp opSnpShared with held := [0] }) = true := by decide +kernel

/-- A snoop meets a write-back in flight (R206). -/
theorem test_snoop_meets_write_back :
    let w : WbBuf := { line := line1, st := Machine.stM, data := 5, poison := 0, sec := false, tag := 8 }
    after (.snpShared 0 .clean) (onRoad (roadSnp opSnpShared (List.range 20) true) (updHart rig 0 fun h => { h with wbs := [w] })) (fun t =>
      (wbFind (getHart t 0) line1).map (·.st) == some stO && (fromDie0 t vcDat).map (fun m => (hOp m.hdr, m.data)) == [(opDataFwd, 5)]) = true := by
  decide +kernel

theorem test_part_answer :
    let x (left : List Nat) : DieSnoop := { roadSnp opSnpInval left with parts := [{ hart := 0, st := stI }] }
    after (.snoopPartAnswer 0) (onRoad (x [3])) (fun t => (getDie t 0).snoops.map (fun x => x.parts.map (·.back)) == [[true]] &&
      fromDie0 t vcRsp == []) = true ∧
    after (.snoopPartAnswer 0) (onRoad (x [])) (fun t => (getDie t 0).snoops == [] &&
      (fromDie0 t vcRsp).map (fun m => (hOp m.hdr, hDst m.hdr, rspReqNode m.hdr, hState m.hdr)) == [(opSnpResp, 17, 1, stI)]) = true := by
  decide +kernel

/-- Core 0's request of tag 4 for `line1`, a way reserved for it; a message of its home to die 0. -/
def lineReq1 (op : Nat) (f : Req → Req := id) : Req :=
  f { tag := 4, hart := some 0, line := line1, hdr := mkReq op true 17 0 4 line1 0 0 }
def asks (r : Req) (b : Block := rig) : Block :=
  updDie (updHart b 0 fun h => { h with l2 := h.l2.upd {} (line1 % 2048 * 16 + 5) fun l => { l with reserved := some 4 } }) 0 fun d =>
    { d with reqs := [r] }
def toDie (vc : Nat) (m : Msg) (b : Block) : Block := boxed (boxDie 0) vc m b
def compAt (st status : Nat) : Msg := { hdr := mkComp true 0 17 4 st status 0 }
def datAt (op st : Nat) : Msg := { hdr := mkDat op true 0 17 4 st stsOk 3 beAll 0, data := 0x4242 }

theorem test_comp :
    after (.comp (.die 0)) (toDie vcRsp (compAt stI stsOk) (asks (lineReq1 opCmoClean fun r => { r with purpose := .cmo }))) (fun t =>
      (getDie t 0).reqs == []) = true ∧
    after (.comp (.die 0)) (toDie vcRsp (compAt Machine.stM stsOk) (asks (lineReq1 opCleanUnique) (withLine stS))) (fun t =>
      l2State (getHart t 0) line1 == Machine.stM && (getDie t 0).reqs == []) = true ∧
    after (.comp (.die 0)) (toDie vcRsp (compAt stI stsOk) (asks (lineReq1 opRdShared))) (fun t =>
      (getDie t 0).reqs.map (·.comp) == [some (compAt stI stsOk).hdr]) = true ∧
    same (.comp (.die 0)) rig = true := by decide +kernel

theorem test_data :
    after (.compData (.die 0)) (toDie vcDat (datAt opCompData stE) (asks (lineReq1 opRdShared))) (fun t => (getDie t 0).reqs == [] &&
      (l2Line (getHart t 0) line1).map (fun l => (l.st, l.data)) == some (stE, 0x4242)) = true ∧
    after (.dataFwd (.die 0)) (toDie vcDat (datAt opDataFwd stS) (asks (lineReq1 opRdShared))) (fun t =>
      (getDie t 0).reqs.map (·.fwd) == [some (0x4242, 0, stS)]) = true ∧
    after (.dataFwd (.die 0)) (toDie vcDat (datAt opDataFwd stS) (asks (lineReq1 opRdShared fun r => { r with comp := some (compAt stI stsOk).hdr })))
      (fun t => l2State (getHart t 0) line1 == stS && (getDie t 0).reqs == []) = true ∧
    after (.dataFwd (.th .n)) (boxed (boxTh .n) vcDat (datAt opDataFwd stS)) (fun t => t == unknownTag rig (datAt opDataFwd stS)) = true ∧
    same (.compData (.die 0)) (toDie vcDat (datAt opDataFwd stS) rig) = true ∧ same (.dataFwd (.die 0)) rig = true := by decide +kernel

/-- Core 0's WrBack of `line1`, tag 4. -/
def writesBack : Block :=
  let w : WbBuf := { line := line1, st := Machine.stM, data := 5, poison := 0, sec := false, tag := 4 }
  asks (lineReq1 opWrBack fun r => { r with purpose := .wb }) (updHart rig 0 fun h => { h with wbs := [w] })

theorem test_write_back :
    let grant : Msg := { hdr := mkWbGrant true 0 17 4 3 }
    let ack : Msg := { hdr := mkHdr vcRsp opWbAck true 0 17 4 0 }
    after (.wbGrant (.die 0)) (toDie vcRsp grant writesBack) (fun t => (getDie t 0).reqs.map (·.granted) == [true] &&
      (fromDie0 t vcDat).map (fun m => (hOp m.hdr, hDst m.hdr, m.data)) == [(opWrData, 17, 5)]) = true ∧
    after (.wbAck (.die 0)) (toDie vcRsp ack writesBack) (fun t => (getDie t 0).reqs == [] && (getHart t 0).wbs == []) = true ∧
    same (.wbGrant (.die 0)) (toDie vcRsp ack writesBack) = true ∧ same (.wbAck (.die 0)) rig = true := by decide +kernel

theorem test_timers :
    let w := asks (lineReq1 opRdShared fun r => { r with comp := some (compAt stI stsOk).hdr })
    after (.fwdWaitExpiry 0 4) w (fun t => (getDie t 0).quarantine == [4] && rd t (CNT_DIE 0 1) == 1) = true ∧
    after (.reqLimitExpiry 0 4) (asks (lineReq1 opRdShared)) (fun t => (getDie t 0).quarantine == [4] && rd t (CNT_DIE 0 0) == 1 &&
      (getDie t 0).reqs == []) = true ∧
    same (.fwdWaitExpiry 0 4) (asks (lineReq1 opRdShared)) = true ∧ same (.reqLimitExpiry 0 5) w = true := by decide +kernel

theorem test_calm : ∀ j ∈ dieHarts 0, Quiet writesBack j := by unfold Quiet; decide +kernel
/-! ## Data movers -/

/-- `withChan` with a ring of 16 descriptors at page 0x2000000, and what it serves changed. -/
def chan5 (st : Nat) (f : DmChan → DmChan := id) : Block :=
  let b := wr (withChan st) (DM_CH_RING .n 5) (0x2000000 * 4096 + 4)
  updChanDm b .n 5 f

def chanIs (t : Block) (st e : Nat) : Bool := chanState t .n 5 == st && fget t (DM_CH_STATUS .n 5) DM_CH_STATUS_ERROR == e

/-- CRC32C over 80 bytes from 0x4FE0, so over a page's end; the record's address is the argument. -/
def crcDesc (cmpl : Word) : Desc := { ctrl := 4, length := 79, src := 0x4FE0, dst := 0, cmpl := cmpl }

/-- Channel 5 with the descriptor taken, its bytes all done. -/
def doneChan (cmpl : Word) : Block := chan5 1 fun c => { c with prog := { desc := some (crcDesc cmpl), done := 80 } }

theorem test_doorbell :
    let d (n : Nat) : Instr := .doorbell core0 .n 5 (BitVec.ofNat 32 n)
    let told (i : Instr) (b : Block) := after i b fun t => t.regs == b.regs && t.movers == b.movers && t.evPath != b.evPath
    accepts (chan5 1) (callerOf (chan5 1) core0) (DM_CH_DOORBELL .n 5) true = true ∧
    after (d 16) (chan5 1) (fun t => fget t (DM_CH_DOORBELL .n 5) DM_CH_DOORBELL_TAIL == 16 && chanIs t 1 0) = true ∧
    after (d 17) (chan5 1) (chanIs · 4 0x19) = true ∧ told (d 17) (chan5 2) = true ∧ told (d 1) (chan5 3) = true ∧
    after (d 3) (chan5 4) (fun t => fget t (DM_CH_DOORBELL .n 5) DM_CH_DOORBELL_TAIL == 3) = true ∧ told (d 1) (chan5 5) = true := by
  decide +kernel

theorem test_ring_and_control :
    let told (i : Instr) (b : Block) := after i b fun t => t.regs == b.regs && t.movers == b.movers && t.evPath != b.evPath
    let run : Instr := .run core0 .n 5; let stop : Instr := .stop core0 .n 5
    after (.dmRingWrite core0 .n 5 0x3000010) (chan5 0) (fun t => fget t (DM_CH_RING .n 5) DM_CH_RING_BASE == 0x3000 && chanOrder t .n 5 == 16) = true ∧
    told (.dmRingWrite core0 .n 5 0x3000010) (chan5 1) = true ∧
    told stop (chan5 2) = true ∧ after stop (chan5 1) (fun t => (getChanDm t .n 5).stopping && chanIs t 1 0) = true ∧
    after run (chan5 0) (chanIs · 1 0) = true ∧ after run (wr (chan5 0) (DM_CH_RING .n 5) 16) (chanIs · 1 0) = true ∧
    after run (wr (chan5 0) (DM_CH_RING .n 5) 3) (chanIs · 4 0x18) = true ∧
    after run (wr (chan5 0) (DM_CH_RING .n 5) 17) (chanIs · 4 0x18) = true ∧ after run (chan5 2) (chanIs · 1 0) = true ∧
    told run (chan5 4) = true := by decide +kernel

theorem test_restart_and_skip :
    let told (i : Instr) (b : Block) := after i b fun t => t.regs == b.regs && t.movers == b.movers
    let b := fset (fset (chan5 4) (DM_CH_STATUS .n 5) DM_CH_STATUS_ERROR 0x11) (DM_CH_STATUS .n 5) DM_CH_STATUS_HEAD 0xFFFFFFFF
    let e := { b with movers := b.movers }
    after (.restart core0 .n 5) e (fun t => chanIs t 1 0 && chanHead t .n 5 == 0xFFFFFFFF) = true ∧
    told (.restart core0 .n 5) (setEngineReady e .n 2 false) = true ∧ told (.restart core0 .n 5) (chan5 2) = true ∧
    after (.skip core0 .n 5) e (fun t => chanIs t 1 0 && chanHead t .n 5 == 0) = true ∧ told (.skip core0 .n 5) (chan5 1) = true := by
  decide +kernel

theorem test_channel_writes_refused :
    let rows : List (Instr × Nat) := [(.doorbell port0 .n 5 1, DM_CH_DOORBELL .n 5), (.dmRingWrite port0 .n 5 1, DM_CH_RING .n 5),
      (.stop port0 .n 5, DM_CH_CTRL .n 5), (.run port0 .n 5, DM_CH_CTRL .n 5), (.restart port0 .n 5, DM_CH_CTRL .n 5),
      (.skip port0 .n 5, DM_CH_CTRL .n 5)]
    let b := wr (chan5 1) (HUB_PART_STATE .n) 0
    rows.all (fun p => !accepts b (callerOf b port0) p.2 true && after p.1 b fun t => t.regs == b.regs && t.movers == b.movers) = true := by
  decide +kernel

theorem test_channel_stopped :
    let part : DmPart := { tag := 512, kind := .src, pa := 0, len := 8 }
    let b (l : List DmPart) := chan5 1 fun c => { c with stopping := true, parts := l }
    same (.channelStopped .n 5) (chan5 1) = true ∧ same (.channelStopped .n 5) (b [part]) = true ∧
    after (.channelStopped .n 5) (b []) (fun t => chanIs t 2 0 && !(getChanDm t .n 5).stopping) = true := by decide +kernel

theorem test_engine_down :
    same (.engineDown .n 3) (chan5 1) = true ∧ (∀ x ∈ (getMover (chan5 2) .n).chans.cells, ∀ f slot, x.2.fn = some (f, slot) → f < 256) ∧
    after (.engineDown .n 2) (chan5 2) (fun t => chanIs t 4 0x1A && !engineReady t .n 2) = true := by
  refine ⟨by decide +kernel, ?_, by decide +kernel⟩
  have h : (getMover (chan5 2) .n).chans.cells.map (·.2.fn) = [none] := by decide +kernel
  intro x hx f slot hf
  have := List.mem_map_of_mem (f := fun y : Nat × DmChan => y.2.fn) hx
  rw [h] at this
  simp [hf] at this

/-- A descriptor waits in the ring of channel 5. -/
def rung : Block := fset (chan5 1) (DM_CH_DOORBELL .n 5) DM_CH_DOORBELL_TAIL 1

theorem test_stretch :
    let go (l : List Translation) : Instr := .stretch .n 5 l
    let d := chan5 1 fun c => { c with prog := { desc := some (crcDesc 0), done := 16 } }
    canServe rung .n 5 = true ∧ engineIssuing rung .n 2 = false ∧ isTurn rung .n 5 = true ∧ hasAccepted rung (1536 + 2) = false ∧
    same (go [.ok 0x2000000000]) (chan5 1) = true ∧
    after (go [.ok 0x2000000000]) (fset rung (DM_ENG_STATUS .n 2) DM_ENG_STATUS_CLAIMED 1) (chanIs · 4 0x1B) = true ∧
    after (go [.fault]) rung (chanIs · 4 0x11) = true ∧
    isMain (decodePa rung .n 0 0x2000000000) = true ∧ lineBusy (getMover rung .n).reqs (0x2000000000 / 64) = false ∧
    (freeTags 512 767 (engineTags rung .n 2)).length = 256 ∧
    dmWay d .n (getChanDm d .n 5) 0x2000000FF0 = .main ∧
    after (go [.ok 0x2000000000]) d (fun t => (getChanDm t .n 5).prog.st.map (fun x => (x.off, x.src, x.len)) ==
      some (16, some 0x2000000FF0, 16)) = true := by decide +kernel

/-- Channels 5 and 6 of HUB-N on engines 2 and 3; a line of each waits for the bulk port. -/
def twoChans : Block :=
  let prog : Progress := { desc := some (crcDesc 0), st := some { off := 0, len := 32, src := some 0x2000000FE0 } }
  let b := chan5 1 fun c => { c with prog := prog }
  setChanState (updChanDm (wr b (HUB_MILEPOST_DM .n) 12) .n 6 fun c => { c with live := true, part := some 0, engine := 3, prog := prog }) .n 6 1

theorem test_bulk_port :
    let able (b : Block) (req e : Nat) : Bool := bitOf req e && engineReady b .n e && (engineChan b .n e).isSome
    let b := updMover twoChans .n fun m => { m with ranks := [3, 0, 2] ++ (List.range 16).filter fun e => e ≠ 0 ∧ e ≠ 2 ∧ e ≠ 3 }
    (getMover b .n).ranks.Perm (List.range 16) ∧ (getMover b .n).ranks.find? (able b 0) = none ∧
    after (.bulkPortGrant .n 0) b (fun t => (getMover t .n).holder == none && (getMover t .n).ranks == (getMover b .n).ranks) = true ∧
    (getMover b .n).ranks.find? (able b 0xFFFF) = some 3 ∧ (getMover b .n).ranks.find? (able b 4) = some 2 := by decide +kernel

theorem test_descriptor_complete :
    let go (l : List Translation) : Instr := .descriptorComplete .n 5 l
    let b := doneChan 0; let r := doneChan 0x1230
    dueOf (crcDesc 0) (getChanDm b .n 5).prog = some { status := 1, bytes := 80, cmpl := 0, irq := false, result := 0 } ∧
    same (go []) (chan5 1) = true ∧
    after (go []) b (fun t => chanHead t .n 5 == 1 && chanIs t 1 0 && (getChanDm t .n 5).prog == {} && (getChanDm t .n 5).due == none) = true ∧
    same (go []) (updChanDm b .n 5 fun c => { c with due := some { status := 1, bytes := 80, cmpl := 0x1230, irq := false, sent := true } }) = true ∧
    (dueOf (crcDesc 0x1230) (getChanDm r .n 5).prog).isSome = true ∧ (getChanDm r .n 5).fn = none ∧ engineReady r .n 2 = true ∧
    isMain (decodePa r .n 0 0x2000000230) = true ∧ lineBusy (getMover r .n).reqs (0x2000000230 / 64) = false ∧
    freeTags 512 767 (engineTags r .n 2) ≠ [] := by decide +kernel

/-- R429: a COPY of 96 bytes from 0x1000 to 0x1040 overlaps in the 32 bytes from 0x1040; one to 0x1060 overlaps nowhere. -/
theorem test_copy_overlap :
    let d (dst : Word) : Desc := { ctrl := 1, length := 95, src := 0x1000, dst := dst, cmpl := 0 }
    let st (dst : Nat) : DmStretch := { off := 0, len := 96, src := some 0x9000, dst := some dst }
    overlapBe (d 0x1040) (st 0xA040) 0xA040 64 = 0xFFFFFFFF ∧ overlapBe (d 0x1040) (st 0xA040) 0xA080 32 = 0 ∧
    overlapBe (d 0x1060) (st 0xA060) 0xA060 32 = 0 ∧ overlapBe (d 0x5040) (st 0x9040) 0x9040 64 = 0xFFFFFFFF ∧
    (overlapData rig (d 0x1060) (st 0xA060) 0xA060 32 7).1 = 7 := by decide +kernel
/-! ## Ports and endpoints -/

/-- A device's request: its address after translation, the bytes of a write, and whether it is an MSI. -/
def devReq (xl : Option Translation) (write : Option LineWrite := none) (msi : Bool := false) : DeviceReq :=
  { xl := xl, msi := msi, len := 4, write := write, relaxed := false }
def dev (r : DeviceReq) : Instr := .deviceRequest .n 0 r

/-- A line write of 0x1234 to the four bytes at an address. -/
def wrote4 (pa : Nat) : LineWrite := { data := lineOf (pa % 64) 4 0x1234, be := beOf (pa % 64) 4, poison := 0 }

theorem test_device_request :
    let idle := wr winRig (HUB_MILEPOST_IO .n) 0xFF
    quarterPart winRig (portQuarter .n 0) = some 0 ∧ portActs winRig .n 0 = true ∧ portActs idle .n 0 = false ∧
    same (dev (devReq none)) idle = true ∧ same (.cxlCacheRequest .n 0 0x2000000000 none) idle = true ∧
    same (.biSnoop .n 0 .inv 0x1000000040) idle = true ∧
    after (dev (devReq (some .fault))) winRig (fun t => t.regs == winRig.regs && t.outbox == [.cpl .n (some 0) 0 0 true]) = true ∧
    after (dev (devReq none (some (wrote4 0)))) winRig (fun t => t.outbox == []) = true ∧
    inRegion winRig .n 0 0x3000000000 = false ∧
    after (dev (devReq (some (.ok 0x3000000040)) (some (wrote4 0x40)) true)) winRig (fun t =>
      t.outbox == [.msi .n 0x3000000000 0x1234 false] && t.regs == winRig.regs) = true := by decide +kernel

/-- Nothing waits at the I/O agent; a read of main memory, and a BISnp in the port's own window, find their destinations. -/
theorem test_device_read_hypotheses : let io := getIo winRig .n
    io.held = [] ∧ io.reqs = [] ∧ (io.waits.any fun w => w.port == some (0 : Fin 16) && w.ordered) = false ∧
    (io.ep.fns.cells.filter fun c => !c.2.toFlush.isEmpty) = [] ∧ ownLent winRig .n 0 0x2000000040 = false ∧
    (reqDst winRig (decodePa winRig .n 0 0x2000000040)).isSome = true ∧
    decodePa (fset winRig (HUB_HPW_BASE .n 2) HUB_HPW_BASE_KIND 1) .n 0 0x1000000040 = .win .n 2 1 0 := by decide +kernel

theorem test_bi_snoop_elsewhere :
    let b := fset (fset winRig (HUB_HPW_BASE .n 2) HUB_HPW_BASE_KIND 1) (HUB_HPW_BASE .n 2) HUB_HPW_BASE_PORT 4
    decodePa b .n 0 0x1000000040 = .win .n 2 1 4 ∧ same (.biSnoop .n 0 .inv 0x1000000040) b = true := by decide +kernel

theorem test_link_layer :
    let off := updPort (wr winRig (HUB_MILEPOST_IO .n) 0xFF) .n 0 fun p => { p with up := false }
    let held : IoHeld := { port := some 0, msg := ioR 18 0 4, part := 0 }
    let b := updIo winRig .n fun i => { i with pcie := [{ port := some 0, tag := 7, hdr := 0 }, { port := some 1, tag := 7, hdr := 0 }], held := [held] }
    portExists winRig .n 0 = true ∧ portExists epRig .n 0 = false ∧
    after (.dlActive .n 0) off (fun t => portReady t .n 0 && (getPort t .n 0).up) = true ∧ same (.dlActive .n 0) epRig = true ∧
    same (.dlDown .n 0) off = true ∧ after (.dlDown .n 0) b (fun t => !portReady t .n 0 && !(getPort t .n 0).up &&
      (getIo t .n).pcie.map (·.port) == [some 1] && (getIo t .n).held == []) = true := by decide +kernel

theorem test_pcie_completions :
    let q : PcieReq := { port := some 0, tag := 7, hdr := mkPio opIoRd true 18 0 9 0x1000000040 4 0 }
    let b (q : PcieReq) := updIo winRig .n fun i => { i with pcie := [q] }
    let gone (t : Block) := (getIo t .n).pcie == []
    let mem : PcieReq := { q with mem := some (3, some 5) }
    let hit (x : Block) (tag : Nat) := (getIo x .n).pcie.find? fun x => x.port == some (0 : Fin 16) && x.tag == tag
    hit (b q) 8 = none ∧ same (.pcieCompletion .n (some 0) 8 .ok 0) (b q) = true ∧ same (.completionTimeout .n (some 0) 8) (b q) = true ∧
    hit (b q) 7 = some q ∧ after (.pcieCompletion .n (some 0) 7 .ok 99) (b q) (fun t => gone t && t.freeIx == (b q).freeIx) = true ∧
    after (.completionTimeout .n (some 0) 7) (b q) gone = true ∧ hit (b mem) 7 = some mem ∧
    after (.pcieCompletion .n (some 0) 7 .ok 99) (b mem) (fun t => gone t && (getSlice t .n 3).memBack == [(5, some (99, 0))]) = true ∧
    partOf rig .n true 7 = none ∧ same (.pcieCompletion .n none 7 .ok 99) rig = true ∧ same (.completionTimeout .n none 7) rig = true := by
  decide +kernel

theorem test_gpio_pin : (getIo rig .n).pinLevel.get false 31 = false ∧ same (.gpioPinChange .n (.pin 31) false) rig = true ∧
    (getIo rig .n).pinLevel.get false 31 ≠ true := by decide +kernel

/-- The endpoint of HUB-N up, with its PF, VF 1 on channel 5 and VF 2; the PF's BAR2 has 1 MiB. -/
def epUpRig : Block :=
  let b := fset (fset (fset withPf (EP_STATUS .n) EP_STATUS_LINK_UP 1) (EP_STATUS .n) EP_STATUS_VF_ENABLE 1) (EP_STATUS .n) EP_STATUS_NUM_VFS 2
  let b := updFn (updFn b .n 1 fun x => { x with live := true, channels := [5] }) .n 2 fun x => { x with live := true }
  setChanState (updChanDm b .n 5 fun x => { x with live := true, part := some 0, fn := some (1, 0) }) .n 5 1

/-- One entry of the PF's staged or active table: 4 KiB at offset 0 to 0x20_0000_0000 of partition 0. -/
def entLo : Nat := 2 ^ 63 + 0x2000000000
def withAct (b : Block) : Block := wr b (EP_WIN_ACT_LO .n 0 0) entLo

theorem test_endpoint_link : let off := fset epUpRig (EP_STATUS .n) EP_STATUS_LINK_UP 0
    epMode off .n = true ∧ (getFn off .n 0).live = true ∧ epUp off .n = false ∧ epUp epUpRig .n = true ∧
    after (.endpointLinkUp .n) off (fun t => epUp t .n) = true ∧ same (.endpointLinkUp .n) epUpRig = true ∧
    same (.endpointLinkUp .n) rig = true := by decide +kernel

theorem test_bar2 :
    let bar (off len : Nat) : Instr := .bar2Tlp .n 0 off len none
    let b := withAct epUpRig
    bar2Size b .n 0 = 2 ^ 20 ∧ same (bar (2 ^ 20 - 4) 8) b = true ∧ same (bar 0 4) withPf = true ∧ blocksIn 0x1000 4 = 1 ∧
    bar2Target b .n 0 0x1000 = none ∧ after (bar 0x1000 4) b (fun t => fget t (EP_STATUS .n) EP_STATUS_UNMAPPED == 1 &&
      t.outbox == [.cpl .n none 0 0 true]) = true ∧
    bar2Target b .n 0 0x40 = some (0x2000000040, 0, 17) ∧ ownLent b .n 0 0x2000000040 = false ∧ (getIo b .n).held = [] ∧
    (getIo b .n).reqs = [] ∧ (getIo b .n).waits = [] ∧ (getIo b .n).ep.fns.cells.filter (fun c => !c.2.toFlush.isEmpty) = [] := by
  decide +kernel

theorem test_window_commit :
    let r := EP_WIN_COMMIT .n 0
    let go : Instr := .commit core0 .n 0
    let stg (v : Nat) := wr epUpRig (EP_WIN_STG_LO .n 0 63) v
    let pend := fset epUpRig r EP_WIN_COMMIT_PENDING 1
    accepts epUpRig (callerOf epUpRig core0) r true = true ∧
    after go pend (fun t => t.regs == pend.regs && t.io == pend.io) = true ∧
    entryOk (stg (2 ^ 63 + 64)) .n 0 63 = true ∧ entryOk (stg (2 ^ 63 + 2 ^ 54)) .n 0 63 = false ∧
    after go (stg (2 ^ 63 + 2 ^ 54)) (fun t => fget t r EP_WIN_COMMIT_RESULT == 2 && fget t r EP_WIN_COMMIT_FAULT_INDEX == 63) = true ∧
    (List.range 64).all (entryOk (stg entLo) .n 0) = true ∧ after go (stg entLo) (fun t => fon t r EP_WIN_COMMIT_PENDING &&
      rd t (EP_WIN_ACT_LO .n 0 63) == entLo) = true ∧
    after (.commitDone .n 0) pend (fun t => !fon t r EP_WIN_COMMIT_PENDING && fget t r EP_WIN_COMMIT_RESULT == 1 &&
      fget t r EP_WIN_COMMIT_COMMITS == 1) = true ∧ same (.commitDone .n 0) epUpRig = true ∧
    accepts rig (callerOf rig core0) (EP_WIN_ACT_LO .n 7 63) true = true ∧ after (.activeEntryWrite core0 .n 7 63) rig (fun t =>
      fget t (EP_STATUS .n) EP_STATUS_ACT_WRITES == 1) = true := by decide +kernel

theorem test_function_resets :
    same (.vfFlr .n 0) epUpRig = true ∧ same (.vfFlr .n 3) epUpRig = true ∧ (getFn epUpRig .n 1).channels = [5] ∧
    (getChanDm epUpRig .n 5).parts = [] ∧ chanState epUpRig .n 5 = 1 ∧
    after (.vfFlr .n 1) epUpRig (fun t => chanState t .n 5 == 0 && (getChanDm t .n 5).prog == {} && !(getChanDm t .n 5).flr) = true ∧
    same (.pfReset .n true) rig = true ∧ (getFn epUpRig .n 0).live = true ∧
    [true, false].all (fun down => after (.pfReset .n down) epUpRig fun t => fget t (EP_STATUS .n) EP_STATUS_VF_ENABLE == 0 &&
      fget t (EP_STATUS .n) EP_STATUS_NUM_VFS == 0 && !(getIo t .n).ep.msixOn && epUp t .n == !down) = true ∧
    (getIo epUpRig .n).ep.fns.cells.all (fun c => c.2.channels.all (· < 2048)) = true := by decide +kernel

theorem test_host_config : let go (c : HostConfig) : Instr := .hostConfigWrite .n c
    same (go (.hdmCommit true)) rig = true ∧
    after (go (.vfEnable true 255)) epUpRig (fun t => fon t (EP_STATUS .n) EP_STATUS_VF_ENABLE && fget t (EP_STATUS .n) EP_STATUS_NUM_VFS == 255) = true ∧
    after (go (.msixEnable true)) epUpRig (fun t => (getIo t .n).ep.msixOn && t.regs == epUpRig.regs) = true ∧
    after (go (.intxDisable true)) epUpRig (fun t => (getIo t .n).ep.intxOff) = true ∧
    after (go (.hdmCommit true)) epUpRig (fun t => (getIo t .n).ep.hdm) = true ∧
    after (go (.cxlMemEnable true)) epUpRig (fun t => fon t (EP_STATUS .n) EP_STATUS_CXL_MEM) = true ∧
    after (go (.tagSize 2)) epUpRig (fun t => (getIo t .n).ep.tagTotal == 4096) = true := by decide +kernel

theorem test_lent_memory :
    let b := fset (updIo epUpRig .n fun i => { i with ep := { i.ep with lent := some (0, 0x2000000000, 0x10000000) } }) (EP_STATUS .n) EP_STATUS_CXL_MEM 1
    same (.cxlMemRequest .n 0 none) epUpRig = true ∧ same (.cxlMemRequest .n 0x10000000 none) b = true ∧
    same (.cxlMemRequest .n 0 none) (fset b (EP_STATUS .n) EP_STATUS_CXL_MEM 0) = true ∧
    (reqDst b (decodePa b .n 0 0x200FFFFFC0)).isSome = true ∧ (getIo b .n).held = [] ∧ (getIo b .n).reqs = [] := by decide +kernel
/-! ## The queue, the memory, frames -/

theorem test_step :
    let s : State := { onBlk lit with pending := [.coldRstN true 10, .pwrgood] }
    (match step s with | .next t => t.pending == [.pwrgood] && t.blk.pkg.resetDue == 1 | _ => false) = true ∧
    (match step (onBlk lit) with | .next t => t.pending == [] && t == { onBlk lit with blk := tick lit } | _ => false) = true := by
  decide +kernel

/-- R538: the one stop; a sample of −40 °C completes. -/
theorem test_below_minus_forty :
    (match exec (.thermalSample (.hub .n) (-41)) (onBlk rig) with | .fault .belowMinusForty => true | _ => false) = true ∧
    after (.thermalSample (.hub .n) (-40)) rig (fun _ => true) = true := by decide +kernel

/-- A memory that holds something, and a step that changes it (`test_command_choice` shows what it writes). -/
theorem test_memory_form :
    let d := chanRig fun ch => { ch with drain := true, drainEmpty := true, writes := [⟨5, mcW 64 0x1234, 0, false⟩] }
    let s : State := { onBlk d with dram := Dram.writeLine {} 2 192 7 1, pending := [.mcCommandChoice .n 2 [5]] }
    s.dram.wf = true ∧ (match step s with | .next t => t.dram != s.dram | _ => false) = true := by decide +kernel

/-- One command of each kind of the five frames, in a state where it acts. -/
theorem test_frames :
    let acts (i : Instr) (b : Block) : Bool := after i b fun t => t != b
    hartCommand (.storeBufferDrain 0) = true ∧ homeCommand (.mcRead .n 2) = true ∧ linkCommand (.linkTakeDown core0 hubEnd0) = true ∧
    deviceCommand (.dlDown .n 0) = true ∧ pageCommand (.ring core0 0) = true ∧
    acts (.mcRead .n 2) (chanRig fun ch => { ch with input := [mcR 128] }) = true ∧
    acts (.linkTakeDown core0 hubEnd0) rig = true ∧ acts (.dlDown .n 0) winRig = true ∧ acts (.ring core0 0) rig = true := by decide +kernel

theorem test_queued_write_serves :
    let r := { mcR 64 with tracker := some 9 }
    let w : McEnt := ⟨1, mcW 64 9, 0, false⟩
    let b := chanRig fun ch => { ch with input := [r], writes := [⟨0, mcW 0 8, 0, false⟩, w] }
    let m := chanRig fun ch => { ch with input := [mcW 64 3], writes := [⟨0, mcW 0 8, 0, false⟩, w] }
    chanReady b .n 2 = true ∧ mcNextRead (getChan b 2).input [] = some (r, []) ∧ mcQueuedWrite (getChan b 2) 64 = some w ∧
    after (.mcRead .n 2) b (fun t => (getSlice t .n 0).memBack == [(9, some (9, 0))]) = true ∧
    takeFirst (fun r : MemReq => r.write) (getChan m 2).input = some (mcW 64 3, []) ∧
    after (.mcWrite .n 2) m (fun t => (getChan t 2).writes == [⟨0, mcW 0 8, 0, false⟩, ⟨1, mcW 64 3, 0, false⟩]) = true := by decide +kernel

/-- R519 in an always-on ring of 16: an arrival at 16 discards the oldest, an arrival after a TAKE none. -/
theorem test_full_ring : let r : RingId := .ao .s 1
    let b := updRing rig (ringKey r) fun x => { x with head := (List.range 16).map ev }
    ringCap b r = 16 ∧ ringSpills b r = false ∧ (getRing (ringPut b r (ev 99)) (ringKey r)).held = ((List.range 16).map ev).drop 1 ++ [ev 99] ∧
    rd (ringPut b r (ev 99)) (CNT_EVR r 2) = 1 ∧ accepts b (callerOf b core0) (HUB_EVR_CTRL r) true = true ∧
    after (.take core0 r) b (fun t => rd (ringPut t r (ev 99)) (CNT_EVR r 2) == 0) = true := by decide +kernel

/-! ## Well-formedness: a term that each check refuses -/

theorem wf_register_write : Instr.wf (.registerWrite core0 (.space (2 ^ 36)) 4 0) = false ∧ Instr.wf (.registerWrite core0 (.space 0) 3 0) = false ∧
    Instr.wf (.registerWrite core0 (.csr 0 0x300) 4 0) = false ∧ Instr.wf (.registerWrite core0 (.space 0) 8 0) = true := by decide

theorem wf_bits_and_counters : Instr.wf (.statusBitClear core0 2 0 false) = false ∧ Instr.wf (.cntClear core0 (2 ^ 36)) = false := by decide

theorem wf_header_write : Instr.wf (.mbxHeaderWrite core0 0 0xFFFC 8 0) = false ∧ Instr.wf (.mbxHeaderWrite core0 0 0xFFF8 8 0) = true := by
  decide

theorem wf_lanes : Instr.wf (.laneTestDone hubEnd0 [1024] 0) = false := by decide

theorem wf_board : Instr.wf (.packageColdReset bareBoard) = false := by decide

theorem wf_device_request : Instr.wf (dev { devReq none with len := 65 }) = false ∧ Instr.wf (dev (devReq (some (.ok (2 ^ 52))))) = false ∧
    Instr.wf (dev (devReq none (some { wrote4 0 with be := 0 }))) = false ∧ Instr.wf (dev (devReq none (some (wrote4 0)))) = true := by
  decide +kernel

theorem wf_cxl : Instr.wf (.biSnoop .n 0 .inv 4) = false ∧ Instr.wf (.cxlCacheRequest .n 0 (2 ^ 52) none) = false ∧
    Instr.wf (.cxlMemRequest .n 4 none) = false ∧ Instr.wf (.cxlMemRequest .n 64 none) = true := by decide

theorem wf_bar2 : Instr.wf (.bar2Tlp .n 0 0 0 none) = false ∧ Instr.wf (.bar2Tlp .n 0 60 8 (some [wrote4 60])) = false ∧
    Instr.wf (.bar2Tlp .n 0 60 4 (some [wrote4 60])) = true := by decide +kernel

theorem wf_translations : Instr.wf (.stretch .n 0 [.ok (2 ^ 52)]) = false ∧ Instr.wf (.descriptorComplete .n 0 [.fault, .ok (2 ^ 52)]) = false := by
  decide

theorem wf_roll_call (f : RollCall) (h : f.serials.length = 9) : Instr.wf (.rollCall f) = false := by
  simp [Instr.wf, rollCallWf, h]

end Sys2Proof.Tests
end

section
/-! PROOFS. Software clears of the status bits and counters of a link end (R12, R118, R121, R513). First the laws that the model's
shared operations lack: what a status bit, a raised record, a refused field and a write with a row of its own do. Then the rows
of LINK_ERR and LINK_CTRL in the register table, and what STATUS_BIT_CLEAR and CNT_CLEAR come to there. -/

namespace Sys2Proof.Machine

/-! ## Status bits and event records -/

theorem rd_putStatus (b : Block) (off bit : Nat) (v : Bool) (n o : Nat) (h : bit < 64) :
    rd (putStatus b off bit v n) o = if o = off then putBits (rd b off) bit bit (b2n v) else rd b o := by
  have hregs : rd (putStatus b off bit v n) o = rd (wr b off (putBits (rd b off) bit bit (b2n v))) o := rfl
  rw [hregs, rd_wr, Nat.mod_eq_of_lt (putBits_lt (rd_lt b off) h)]

/-- A stored status bit reads as stored, and every other bit of its register as before. -/
theorem bitOf_rd_putStatus (b : Block) (off bit : Nat) (v : Bool) (n i : Nat) (h : bit < 64) :
    bitOf (rd (putStatus b off bit v n) off) i = if i = bit then v else bitOf (rd b off) i := by
  rw [rd_putStatus _ _ _ _ _ _ h, if_pos rfl, bitOf_putBits]
  by_cases hi : i = bit
  · subst hi
    cases v <;> simp [b2n, bitOf]
  · rw [if_neg (by omega), if_neg hi]

/-- The coalescing count of a status bit is the one stored with it. -/
@[simp] theorem putStatus_coal_get (b : Block) (off bit : Nat) (v : Bool) (n : Nat) :
    (putStatus b off bit v n).coal.get 0 (off * 64 + bit) = n := Tab.get_set_same ..

@[simp] theorem putStatus_evPath (b : Block) (off bit : Nat) (v : Bool) (n : Nat) :
    (putStatus b off bit v n).evPath = b.evPath := rfl

@[simp] theorem raiseOwned_coal (b : Block) (owner : Option Nat) (ag unit cls kind sev fl d0 d1 : Nat) (ao : Bool) :
    (raiseOwned b owner ag unit cls kind sev fl d0 d1 ao).coal = b.coal := rfl

/-- A raised record makes the event path of its hub longer by one. -/
theorem raiseOwned_evPath_length (b : Block) (owner : Option Nat) (ag unit cls kind sev fl d0 d1 : Nat) (ao : Bool) :
    ((raiseOwned b owner ag unit cls kind sev fl d0 d1 ao).evPath.get [] (agentHub ag).idx).length =
      (b.evPath.get [] (agentHub ag).idx).length + 1 := by
  simp [raiseOwned]

theorem raiseOwned_evPath_ne (b : Block) (owner : Option Nat) (ag unit cls kind sev fl d0 d1 : Nat) (ao : Bool) :
    (raiseOwned b owner ag unit cls kind sev fl d0 d1 ao).evPath ≠ b.evPath := by
  intro h
  have hlen := raiseOwned_evPath_length b owner ag unit cls kind sev fl d0 d1 ao
  rw [h] at hlen
  omega

/-- A set that wins over a clear reads in the registers as the bit stored 1. -/
theorem rd_setStatusRace (b : Block) (off bit o : Nat) :
    rd (setStatusRace b off bit) o = rd (putStatus b off bit true (min 0xFFFF (b.coal.get 0 (off * 64 + bit) + 1))) o := rfl

/-- A set that wins over a clear advances the coalescing count, which saturates (R513). -/
@[simp] theorem setStatusRace_coal_get (b : Block) (off bit : Nat) :
    (setStatusRace b off bit).coal.get 0 (off * 64 + bit) = min 0xFFFF (b.coal.get 0 (off * 64 + bit) + 1) := by
  simp [setStatusRace]

/-- A set that wins over a clear raises a record (R513). -/
theorem setStatusRace_evPath_ne (b : Block) (off bit : Nat) : (setStatusRace b off bit).evPath ≠ b.evPath := by
  rw [← putStatus_evPath b off bit true (min 0xFFFF (b.coal.get 0 (off * 64 + bit) + 1))]
  apply raiseOwned_evPath_ne

/-! ## Writes with a row of their own (R12, R28, R550) -/

theorem regAction_of_accepts {b : Block} {src : Source} {off : Nat} (f : Caller → Block)
    (h : accepts b (callerOf b src) off true = true) : regAction b src off f = f (callerOf b src) := if_pos h

theorem secAction_of_secure {b : Block} {src : Source} {off : Nat} (f : Caller → Block)
    (h : accepts b (callerOf b src) off true = true) (hw : (callerOf b src).world = true) :
    secAction b src off f = f (callerOf b src) := (regAction_of_accepts _ h).trans (if_pos hw)

theorem secAction_of_normal {b : Block} {src : Source} {off : Nat} (f : Caller → Block)
    (h : accepts b (callerOf b src) off true = true) (hw : (callerOf b src).world = false) :
    secAction b src off f = reportAccess b (callerOf b src) off (callerHdr b (callerOf b src) off true) :=
  (regAction_of_accepts _ h).trans (if_neg (by simp [hw]))

/-- A report of an access changes no register. -/
@[simp] theorem reportAccess_regs (b : Block) (c : Caller) (off d1 : Nat) : (reportAccess b c off d1).regs = b.regs := by
  unfold reportAccess
  split <;> rfl

/-! ## Steps over a list -/

@[simp] theorem forEach_nil {α σ : Type} (f : α → σ → σ) (s : σ) : forEach [] f s = s := rfl

@[simp] theorem forEach_cons {α σ : Type} (x : α) (xs : List α) (f : α → σ → σ) (s : σ) :
    forEach (x :: xs) f s = forEach xs f (f x s) := rfl

/-- Where only the index `n` acts, the steps over a list without repetition come to the step of `n`, if it is in the list. -/
theorem forEach_of_one {σ : Type} (n : Nat) (g : σ → σ) {xs : List Nat} (hxs : xs.Nodup) (s : σ) :
    forEach xs (fun i t => if i = n then g t else t) s = if n ∈ xs then g s else s := by
  induction xs generalizing s with
  | nil => simp
  | cons x xs ih =>
    obtain ⟨hx, hxs⟩ := List.nodup_cons.mp hxs
    rw [forEach_cons, ih hxs]
    by_cases h : x = n
    · subst h; simp [hx]
    · simp [h, Ne.symm h]

/-- Registers that a run of writes of 0 clears read 0, and the others keep their value. -/
theorem rd_forEach_wr_zero (p : Nat → Nat) (is : List Nat) (b : Block) (o : Nat) :
    rd (forEach is (fun i b => wr b (p i) 0) b) o = if o ∈ is.map p then 0 else rd b o := by
  induction is generalizing b with
  | nil => simp
  | cons i is ih =>
    rw [forEach_cons, ih, rd_wr]
    by_cases h : o = p i <;> simp [h]

/-! ## The registers of a link end (R118, R121) -/

/-- The fields of HUB_LINK_ERR and of the sets that repeat it: nine status bits (R118). -/
def linkErrFields : List FldDef :=
  [⟨"CAP_INVALID", 8, 8, .rw1c, false⟩, ⟨"HDR_FAULT", 7, 7, .rw1c, false⟩, ⟨"EPOCH_NEW", 6, 6, .rw1c, false⟩,
    ⟨"LINK_DOWN", 5, 5, .rw1c, false⟩, ⟨"TRAIN_FAIL", 4, 4, .rw1c, false⟩, ⟨"SEQ_FAULT", 3, 3, .rw1c, false⟩,
    ⟨"WIDTH_MISMATCH", 2, 2, .rw1c, false⟩, ⟨"RETRY_LIMIT", 1, 1, .rw1c, false⟩, ⟨"CRC_RATE", 0, 0, .rw1c, false⟩]

/-- Every link end has an error register with these fields. -/
theorem rowAt_linkErr (e : LinkId) : (rowAt (LINK_ERR e)).map (·.flds) = some linkErrFields := by
  rcases e with ⟨h, l⟩ | k | ⟨h, k⟩
  · cases h <;> revert l <;> decide +kernel
  · revert k; decide +kernel
  · cases h <;> revert k <;> decide +kernel

/-- The status bits of a link end are bits 0 to 8 (R118). -/
theorem linkErrFields_rw1c (bit : Nat) :
    (linkErrFields.any fun f => f.acc == .rw1c && decide (f.lo ≤ bit ∧ bit ≤ f.hi)) = decide (bit < 9) := by
  rw [Bool.eq_iff_iff]
  simp [linkErrFields]
  omega

/-- Where a link end's LINK_CTRL stands in the table of counter clears. -/
def linkCtrlKey : LinkId → Place × Nat
  | .hub _ _ => (.hub, 0x10000)
  | .die _ => (.fcd, 0x400)
  | .hwy _ _ => (.hub, 0x50000)

/-- Every link end has a control register, and this is its key. -/
theorem rowAt_linkCtrl (e : LinkId) : (rowAt (LINK_CTRL e)).map (rowKey (LINK_CTRL e)) = some (linkCtrlKey e) := by
  rcases e with ⟨h, l⟩ | k | ⟨h, k⟩
  · cases h <;> revert l <;> decide +kernel
  · revert k; decide +kernel
  · cases h <;> revert k <;> decide +kernel

/-- Bit 27 of LINK_CTRL clears the nine counters of the end, and no other bit clears a counter (R121). -/
theorem cntClearTable_linkCtrl (e : LinkId) (bit : Nat) :
    (cntClearTable.find? fun x => x.1 == (linkCtrlKey e).1 && x.2.1 == (linkCtrlKey e).2 && x.2.2.1 == bit) =
      if bit = 27 then some ((linkCtrlKey e).1, (linkCtrlKey e).2, 27, 0x40, 9) else none := by
  by_cases h : bit = 27
  · subst h; cases e <;> rfl
  · cases e <;> simp [cntClearTable, linkCtrlKey, h, Ne.symm h]

/-- LINK_CTRL clears no field of its own. -/
theorem clearFields_linkCtrl (e : LinkId) (bit : Nat) :
    (clearFields.find? fun x => x.1 == (linkCtrlKey e).1 && x.2.1 == (linkCtrlKey e).2 && x.2.2.1 == bit) = none := by
  cases e <;> simp [clearFields, linkCtrlKey]

/-- The nine counters of a link end become 0 (R121). -/
def clearLinkCounters (b : Block) (e : LinkId) : Block :=
  forEach (List.range 9) (fun i b => wr b (CNT_CRC_ERR e + 4 * i) 0) b

theorem rd_clearLinkCounters (b : Block) (e : LinkId) (o : Nat) :
    rd (clearLinkCounters b e) o =
      if o ∈ (List.range 9).map (fun i => CNT_CRC_ERR e + 4 * i) then 0 else rd b o :=
  rd_forEach_wr_zero ..

theorem clearCounters_linkCtrl (b : Block) (e : LinkId) {r : RegRow} (hr : rowKey (LINK_CTRL e) r = linkCtrlKey e)
    (bit : Nat) : clearCounters b (LINK_CTRL e) r bit = if bit = 27 then clearLinkCounters b e else b := by
  unfold clearCounters
  rw [hr]
  simp only [cntClearTable_linkCtrl, clearFields_linkCtrl]
  by_cases h : bit = 27
  · simp only [h, if_true]; rfl
  · simp only [h, if_false]

/-! ## STATUS_BIT_CLEAR and CNT_CLEAR at a link end -/

/-- No error register of a link end is a mailbox's state register, which has effects of its own. -/
theorem linkErr_lt_pageBase (e : LinkId) (m : Nat) : LINK_ERR e < TH_MBX_STATE m := by
  rcases e with ⟨h, l⟩ | k | ⟨h, k⟩
  · cases h <;> simp only [LINK_ERR, linkSet, hubBase, TH_MBX_STATE, pageBase] <;> omega
  · simp only [LINK_ERR, linkSet, fcdBase, TH_MBX_STATE, pageBase]; omega
  · cases h <;> simp only [LINK_ERR, linkSet, hubBase, TH_MBX_STATE, pageBase] <;> omega

/-- What a clear of bit `bit` of an accepting LINK_ERR comes to: the clear or the set that wins over it for a status bit, nothing
for another bit. -/
theorem statusClear_linkErr {b : Block} {src : Source} {e : LinkId}
    (h : accepts b (callerOf b src) (LINK_ERR e) true = true) (bit : Nat) (meets : Bool) :
    statusClear b src (LINK_ERR e) bit meets =
      if bit < 9 then (if meets then setStatusRace b (LINK_ERR e) bit else clearStatus b (LINK_ERR e) bit) else b := by
  obtain ⟨r, hrow, hflds⟩ := Option.map_eq_some_iff.mp (rowAt_linkErr e)
  have h18 : LINK_ERR e ≠ TH_MBX_STATE 18 := Nat.ne_of_lt (linkErr_lt_pageBase e 18)
  have h19 : LINK_ERR e ≠ TH_MBX_STATE 19 := Nat.ne_of_lt (linkErr_lt_pageBase e 19)
  simp only [statusClear, hrow, hflds, linkErrFields_rw1c, decide_eq_true_eq, regAction_of_accepts _ h, h18, h19, if_false]

/-- A CNT_CLEAR by a secure-world caller clears the counters of the end (R12, R121). -/
theorem cntClear_linkCtrl_of_secure {b : Block} {src : Source} {e : LinkId}
    (h : accepts b (callerOf b src) (LINK_CTRL e) true = true) (hw : (callerOf b src).world = true) :
    cntClear b src (LINK_CTRL e) = clearLinkCounters b e := by
  obtain ⟨r, hrow, hkey⟩ := Option.map_eq_some_iff.mp (rowAt_linkCtrl e)
  simp only [cntClear, hrow, secAction_of_secure _ h hw, clearCounters_linkCtrl _ e hkey]
  rw [forEach_of_one 27 (clearLinkCounters · e) List.nodup_range]
  simp

/-- A CNT_CLEAR by a normal-world caller is ignored and reported (R12). -/
theorem cntClear_linkCtrl_of_normal {b : Block} {src : Source} {e : LinkId}
    (h : accepts b (callerOf b src) (LINK_CTRL e) true = true) (hw : (callerOf b src).world = false) :
    cntClear b src (LINK_CTRL e) =
      reportAccess b (callerOf b src) (LINK_CTRL e) (callerHdr b (callerOf b src) (LINK_CTRL e) true) := by
  obtain ⟨r, hrow, -⟩ := Option.map_eq_some_iff.mp (rowAt_linkCtrl e)
  simp only [cntClear, hrow, secAction_of_normal _ h hw]

end Sys2Proof.Machine

namespace Sys2Proof.Safety

open Sys2Proof.Machine

/-- A status bit stored at a register changes that register alone. -/
theorem regsKeep_putStatus (b : Block) (off bit : Nat) (v : Bool) (n : Nat) (h : bit < 64) :
    RegsKeep b (putStatus b off bit v n) [off] := by
  intro o ho
  rw [rd_putStatus _ _ _ _ _ _ h, if_neg (by simpa using ho)]

/-- A set that wins over a clear changes the register of its bit alone. -/
theorem regsKeep_setStatusRace (b : Block) (off bit : Nat) (h : bit < 64) : RegsKeep b (setStatusRace b off bit) [off] :=
  fun o ho => (rd_setStatusRace ..).trans (regsKeep_putStatus _ _ _ _ _ h o ho)

/-- Settles O23: each command comes to one shared operation on the end's registers (`statusClear_linkErr`,
`cntClear_linkCtrl_of_secure`, `cntClear_linkCtrl_of_normal`), whose laws give the clause. -/
theorem statusAndCounterClears : Obligations.StatusAndCounterClears := by
  intro src e bit s
  refine ⟨fun hacc hbit => ?clear, fun hacc hbit => ?race, fun hacc hbit => ?noField, fun ⟨hacc, hw⟩ => ?counters,
    fun hacc hw => ?ignored⟩
  case clear =>
    have hclear : statusClear s.blk src (LINK_ERR e) bit false = putStatus s.blk (LINK_ERR e) bit false 0 := by
      simp only [statusClear_linkErr hacc, hbit, if_true, Bool.false_eq_true, if_false, clearStatus]
    refine gives_of ((exec_statusBitClear ..).trans (congrArg (nextBlk s) hclear))
      ⟨?_, putStatus_coal_get .., fun n _ hn => ?_, regsKeep_putStatus _ _ _ _ _ bit.isLt, putStatus_evPath ..⟩
    · rw [bitOf_rd_putStatus _ _ _ _ _ _ bit.isLt, if_pos rfl]
    · rw [bitOf_rd_putStatus _ _ _ _ _ _ bit.isLt, if_neg hn]
  case race =>
    have hset : statusClear s.blk src (LINK_ERR e) bit true = setStatusRace s.blk (LINK_ERR e) bit := by
      simp only [statusClear_linkErr hacc, hbit, if_true]
    refine gives_of ((exec_statusBitClear ..).trans (congrArg (nextBlk s) hset))
      ⟨?_, setStatusRace_coal_get .., regsKeep_setStatusRace _ _ _ bit.isLt, setStatusRace_evPath_ne _ _ _⟩
    rw [rd_setStatusRace, bitOf_rd_putStatus _ _ _ _ _ _ bit.isLt, if_pos rfl]
  case noField =>
    refine noEffect_of (exec_statusBitClear ..) ?_
    rw [statusClear_linkErr hacc, if_neg (Nat.not_lt.mpr hbit)]
  case counters =>
    refine gives_of ((exec_cntClear ..).trans (congrArg (nextBlk s) (cntClear_linkCtrl_of_secure hacc hw)))
      ⟨fun i hi => ?_, fun o ho => ?_⟩
    · rw [rd_clearLinkCounters, if_pos (List.mem_map_of_mem (List.mem_range.mpr hi))]
    · rw [rd_clearLinkCounters, if_neg ho]
  case ignored =>
    exact gives_of ((exec_cntClear ..).trans (congrArg (nextBlk s) (cntClear_linkCtrl_of_normal hacc hw)))
      (reportAccess_regs ..)

end Sys2Proof.Safety
end

section
/-! PROOFS. Writes of home groups and host-port windows (R35, R37, R38, R458), and writes that a block does not accept (R28, R50,
R51, R259, R550). First what a refused write leaves, then how a write of a whole 64-bit register stores its fields, then the two
kinds of map registers. -/

namespace Sys2Proof.Machine

/-! ## What a refused write leaves (R28, R259) -/

@[simp] theorem reportAccess_mbx (b : Block) (c : Caller) (off d1 : Nat) : (reportAccess b c off d1).mbx = b.mbx := by
  unfold reportAccess
  split <;> rfl

@[simp] theorem reportAccess_lostWrites (b : Block) (c : Caller) (off d1 : Nat) :
    (reportAccess b c off d1).lostWrites = b.lostWrites := by
  unfold reportAccess
  split <;> rfl

/-- A report of an access makes one event path longer. -/
theorem reportAccess_evPath_length (b : Block) (c : Caller) (off d1 : Nat) :
    ∃ k, ((reportAccess b c off d1).evPath.get [] k).length = (b.evPath.get [] k).length + 1 := by
  unfold reportAccess
  split <;> exact ⟨_, raiseOwned_evPath_length ..⟩

theorem reportAccess_evPath_ne (b : Block) (c : Caller) (off d1 : Nat) : (reportAccess b c off d1).evPath ≠ b.evPath := by
  intro h
  obtain ⟨k, hlen⟩ := reportAccess_evPath_length b c off d1
  rw [h] at hlen
  omega

@[simp] theorem lostOf_addLost_same (b : Block) (holder src dst n : Nat) :
    lostOf (addLost b holder src dst n) holder src dst = lostOf b holder src dst + n := by
  simp [lostOf, addLost]

theorem lostOf_congr {a b : Block} (h : a.lostWrites = b.lostWrites) (holder src dst : Nat) :
    lostOf a holder src dst = lostOf b holder src dst := by simp [lostOf, h]

/-- A refused write is lost and reported: counted for a caller under a partition, and for no other. -/
theorem refuseWrite_of_plain {b : Block} {c : Caller} (h : c.plain = true) (off d1 : Nat) :
    refuseWrite b c off d1 = reportAccess (addLost b 0 c.node (myNode b (agIo c.hub))) c off d1 := by
  simp [refuseWrite, h]

theorem refuseWrite_of_not_plain {b : Block} {c : Caller} (h : c.plain = false) (off d1 : Nat) :
    refuseWrite b c off d1 = reportAccess b c off d1 := by
  simp [refuseWrite, h]

/-- What a refused write leaves of the block `a`: registers and pages as they were, a record, and one lost write more against
the caller's source and destination, where an I/O agent performs its accesses. -/
def WriteLost (a : Block) (c : Caller) (b : Block) : Prop :=
  b.regs = a.regs ∧ b.mbx = a.mbx ∧ b.evPath ≠ a.evPath ∧
    (c.plain = true → lostOf b 0 c.node (myNode a (agIo c.hub)) = lostOf a 0 c.node (myNode a (agIo c.hub)) + 1) ∧
    (c.plain = false → b.lostWrites = a.lostWrites)

theorem refuseWrite_writeLost (b : Block) (c : Caller) (off d1 : Nat) : WriteLost b c (refuseWrite b c off d1) := by
  cases hp : c.plain
  case false =>
    rw [refuseWrite_of_not_plain hp]
    exact ⟨by simp, by simp, reportAccess_evPath_ne _ _ _ _, by simp [hp], by simp⟩
  case true =>
    rw [refuseWrite_of_plain hp]
    refine ⟨by simp, by simp, reportAccess_evPath_ne _ _ _ _, fun _ => ?_, by simp [hp]⟩
    rw [lostOf_congr (reportAccess_lostWrites ..), lostOf_addLost_same]

/-! ## Writes that are refused (R28, R550) -/

theorem regAction_of_refused {b : Block} {src : Source} {off : Nat} (f : Caller → Block)
    (h : accepts b (callerOf b src) off true = false) :
    regAction b src off f = refuseWrite b (callerOf b src) off (callerHdr b (callerOf b src) off true) := by
  simp [regAction, h]

theorem secAction_of_refused {b : Block} {src : Source} {off : Nat} (f : Caller → Block)
    (h : accepts b (callerOf b src) off true = false) :
    secAction b src off f = refuseWrite b (callerOf b src) off (callerHdr b (callerOf b src) off true) :=
  regAction_of_refused _ h

theorem regWrite_of_refused {b : Block} {c : Caller} {off : Nat} (h : accepts b c off true = false) (size v : Nat) :
    regWrite b c off size v = refuseWrite b c off (callerHdr b c off true) := by
  simp [regWrite, h]

theorem statusClear_of_refused {b : Block} {src : Source} {off : Nat}
    (h : accepts b (callerOf b src) off true = false) (bit : Nat) (meets : Bool) :
    statusClear b src off bit meets = refuseWrite b (callerOf b src) off (callerHdr b (callerOf b src) off true) := by
  unfold statusClear
  cases rowAt off with
  | none => rfl
  | some r => simp only [regAction_of_refused _ h, ite_self]

theorem cntClear_of_refused {b : Block} {src : Source} {off : Nat} (h : accepts b (callerOf b src) off true = false) :
    cntClear b src off = refuseWrite b (callerOf b src) off (callerHdr b (callerOf b src) off true) := by
  unfold cntClear
  cases rowAt off with
  | none => rfl
  | some r => exact secAction_of_refused _ h

/-! ## Storing every field of a 64-bit register (R12) -/

/-- A field of a register takes its bits of a new value. -/
def storeFld (new w : Nat) (f : FldDef) : Nat := putBits w f.hi f.lo (bitsOf new f.hi f.lo)

/-- The fields that a write takes from any caller in a block that is not locked: RW and RWL without the suffix -S. -/
def plainField (f : FldDef) : Bool := (f.acc == .rw || f.acc == .rwl) && !f.sec && decide (f.lo ≤ f.hi ∧ f.hi < 64)

/-- The fields that a locked block's write ignores. -/
def lockedField (f : FldDef) : Bool := f.acc == .rwl && decide (f.lo ≤ f.hi ∧ f.hi < 64)

theorem testBit_storeFld (new w : Nat) (f : FldDef) (i : Nat) :
    (storeFld new w f).testBit i = if f.lo ≤ i ∧ i ≤ f.hi then new.testBit i else w.testBit i := by
  rw [storeFld, testBit_putBits, testBit_bitsOf]
  by_cases h : f.lo ≤ i ∧ i ≤ f.hi
  · rw [if_pos (by omega), if_pos h, decide_eq_true (by omega), Bool.true_and, Nat.add_sub_cancel' h.1]
  · rw [if_neg (by omega), if_neg h]

/-- A bit that a field covers comes from the new value, whatever the order of the fields; every other bit stays. -/
theorem testBit_foldl_storeFld (new : Nat) (fs : List FldDef) (w i : Nat) :
    (fs.foldl (storeFld new) w).testBit i = if ∃ f ∈ fs, f.lo ≤ i ∧ i ≤ f.hi then new.testBit i else w.testBit i := by
  induction fs generalizing w with
  | nil => simp
  | cons f fs ih =>
    rw [List.foldl_cons, ih, testBit_storeFld]
    by_cases hf : f.lo ≤ i ∧ i ≤ f.hi <;> simp [hf]

/-- A write of all 64 bits stores a field that it may write. -/
theorem writeFld_of_plain {c : Caller} {locked : Bool} {f : FldDef} (hf : plainField f = true)
    (hl : f.acc = .rwl → locked = false) (new : Nat) (w : FldWrite) :
    writeFld c locked new 0 63 w f = { w with value := storeFld new w.value f } := by
  obtain ⟨name, hi, lo, acc, sec⟩ := f
  simp only [plainField, Bool.and_eq_true, Bool.or_eq_true, beq_iff_eq, Bool.not_eq_true', decide_eq_true_eq] at hf hl
  obtain ⟨⟨rfl | rfl, rfl⟩, hle, hlt⟩ := hf
  · simp [writeFld, storeFld, Nat.min_eq_left (Nat.le_of_lt_succ hlt), Nat.not_lt.mpr hle]
  · simp [writeFld, storeFld, Nat.min_eq_left (Nat.le_of_lt_succ hlt), Nat.not_lt.mpr hle, hl rfl]

theorem foldl_writeFld_of_plain {c : Caller} {locked : Bool} {fs : List FldDef} (hf : ∀ f ∈ fs, plainField f = true)
    (hl : ∀ f ∈ fs, f.acc = .rwl → locked = false) (new : Nat) (w : FldWrite) :
    fs.foldl (writeFld c locked new 0 63) w = { w with value := fs.foldl (storeFld new) w.value } := by
  induction fs generalizing w with
  | nil => rfl
  | cons f fs ih =>
    rw [List.forall_mem_cons] at hf hl
    rw [List.foldl_cons, writeFld_of_plain hf.1 hl.1, ih hf.2 hl.2, List.foldl_cons]

theorem writeFld_of_locked {c : Caller} {f : FldDef} (hf : lockedField f = true) (new : Nat) (w : FldWrite) :
    writeFld c true new 0 63 w f = { w with ignored := true } := by
  obtain ⟨name, hi, lo, acc, sec⟩ := f
  simp only [lockedField, Bool.and_eq_true, beq_iff_eq, decide_eq_true_eq] at hf
  obtain ⟨rfl, hle, hlt⟩ := hf
  simp [writeFld, Nat.min_eq_left (Nat.le_of_lt_succ hlt), Nat.not_lt.mpr hle]

theorem foldl_writeFld_of_locked {c : Caller} {f : FldDef} {fs : List FldDef} (hf : ∀ g ∈ f :: fs, lockedField g = true)
    (new : Nat) (w : FldWrite) : (f :: fs).foldl (writeFld c true new 0 63) w = { w with ignored := true } := by
  rw [List.forall_mem_cons] at hf
  rw [List.foldl_cons, writeFld_of_locked hf.1]
  induction fs with
  | nil => rfl
  | cons g gs ih =>
    obtain ⟨hf, hg, hgs⟩ := And.imp_right (List.forall_mem_cons.mp ·) hf
    rw [List.foldl_cons, writeFld_of_locked hg]
    exact ih ⟨hf, hgs⟩

/-- A write that acts in no WO field does nothing beside storing. -/
theorem regActs_nil (b : Block) (reg : Nat) (r : RegRow) : regActs b reg r [] = b := by
  unfold regActs
  simp only [forEach_nil, or_true, if_true]
  cases ctrlEnd reg <;> rfl

theorem storeFields_of_plain {b : Block} {reg : Nat} {r : RegRow} (c : Caller) (hf : ∀ f ∈ r.flds, plainField f = true)
    (hl : ∀ f ∈ r.flds, f.acc = .rwl → regLocked b reg = false) (new : Nat) :
    storeFields b c reg 0 8 new r = wr b reg (r.flds.foldl (storeFld new) (rd b reg)) := by
  simp [storeFields, foldl_writeFld_of_plain hf hl, regActs_nil]

theorem storeFields_of_locked {b : Block} {reg : Nat} {r : RegRow} {f : FldDef} {fs : List FldDef} (c : Caller)
    (hr : r.flds = f :: fs) (hf : ∀ g ∈ f :: fs, lockedField g = true) (hl : regLocked b reg = true) (new : Nat) :
    storeFields b c reg 0 8 new r = reportAccess (wr b reg (rd b reg)) c reg (callerHdr (wr b reg (rd b reg)) c reg true) := by
  have hfold := foldl_writeFld_of_locked (c := c) hf new { value := rd b reg }
  simp only [storeFields, hr, hl]
  simp [hfold, regActs_nil]

/-- After a write of its fields a register has every bit of a field from the new value. -/
theorem testBit_stored (b : Block) (reg : Nat) {fs : List FldDef} {f : FldDef} (hm : f ∈ fs) (hf : plainField f = true)
    (new : Nat) {i : Nat} (hlo : f.lo ≤ i) (hhi : i ≤ f.hi) :
    (rd (wr b reg (fs.foldl (storeFld new) (rd b reg))) reg).testBit i = new.testBit i := by
  simp only [plainField, Bool.and_eq_true, decide_eq_true_eq] at hf
  obtain ⟨-, -, h64⟩ := hf
  rw [rd_wr_same, Nat.testBit_mod_two_pow, testBit_foldl_storeFld, if_pos ⟨f, hm, hlo, hhi⟩]
  simp [Nat.lt_of_le_of_lt hhi h64]

/-- After a write of its fields a register has each field from the new value. -/
theorem bitsOf_stored (b : Block) (reg : Nat) {fs : List FldDef} {f : FldDef} (hm : f ∈ fs) (hf : plainField f = true)
    (new : Nat) : bitsOf (rd (wr b reg (fs.foldl (storeFld new) (rd b reg))) reg) f.hi f.lo = bitsOf new f.hi f.lo := by
  apply Nat.eq_of_testBit_eq
  intro i
  rw [testBit_bitsOf, testBit_bitsOf]
  by_cases hi : i < f.hi + 1 - f.lo
  · rw [testBit_stored b reg hm hf new (by omega) (by omega)]
  · simp [hi]

/-! ## The registers of the memory map (R35, R458) -/

/-- The fields of HUB_HOME_GROUP_g (R35). -/
def homeGroupFields : List FldDef :=
  [⟨"PKG", 58, 56, .rwl, false⟩, ⟨"QMASK", 55, 52, .rwl, false⟩, ⟨"BASE", 51, 30, .rwl, false⟩,
    ⟨"PART", 17, 16, .rwl, false⟩, ⟨"SIZE_GIB", 15, 0, .rwl, false⟩]

/-- The fields of HUB_HPW_BASE_w (R458). -/
def hpwBaseFields : List FldDef :=
  [⟨"ENABLE", 63, 63, .rw, false⟩, ⟨"KIND", 59, 58, .rw, false⟩, ⟨"PORT", 55, 52, .rw, false⟩, ⟨"BASE", 51, 12, .rw, false⟩]

/-- The fields of HUB_HPW_SIZE_w (R458). -/
def hpwSizeFields : List FldDef := [⟨"PAGES", 39, 0, .rw, false⟩]

/-- A 64-bit register with these fields begins at an offset. -/
def HasRow (off : Nat) (fs : List FldDef) : Prop := (rowAt off).map (fun r => (r.width, r.flds)) = some (64, fs)

theorem hasRow_homeGroup (h : Hub) (g : Fin 32) : HasRow (HUB_HOME_GROUP h g) homeGroupFields := by
  unfold HasRow
  cases h <;> revert g <;> decide +kernel

theorem hasRow_hpwBase (h : Hub) (w : Fin 64) : HasRow (HUB_HPW_BASE h w) hpwBaseFields := by
  unfold HasRow
  cases h <;> revert w <;> decide +kernel

theorem hasRow_hpwSize (h : Hub) (w : Fin 64) : HasRow (HUB_HPW_SIZE h w) hpwSizeFields := by
  unfold HasRow
  cases h <;> revert w <;> decide +kernel

/-- A register of the map: it begins a word between 0x1000 and 0x1_0000 of its hub's block. -/
def IsMapReg (h : Hub) (reg : Nat) : Prop := ∃ rel, reg = hubBase h + rel ∧ 0x1000 ≤ rel ∧ rel < 0x1_0000 ∧ rel % 8 = 0

theorem isMapReg_homeGroup (h : Hub) (g : Fin 32) : IsMapReg h (HUB_HOME_GROUP h g) :=
  ⟨0x1000 + g * 8, by simp only [HUB_HOME_GROUP]; omega, by omega, by omega, by omega⟩

theorem isMapReg_hpwBase (h : Hub) (w : Fin 64) : IsMapReg h (HUB_HPW_BASE h w) :=
  ⟨0x3000 + w * 16, by simp only [HUB_HPW_BASE]; omega, by omega, by omega, by omega⟩

theorem isMapReg_hpwSize (h : Hub) (w : Fin 64) : IsMapReg h (HUB_HPW_SIZE h w) :=
  ⟨0x3008 + w * 16, by simp only [HUB_HPW_SIZE]; omega, by omega, by omega, by omega⟩

/-- The block of a register of a hub. -/
theorem placeOf_hub {h : Hub} {rel : Nat} (hrel : rel < 0x1_0000) : placeOf (hubBase h + rel) = some (.hub, hubBase h) := by
  unfold placeOf
  cases h
  · have hn : hubBase .n = 0 := rfl
    rw [if_pos (by omega), hn]
  · have hs : hubBase .s = 0x1000_0000 := rfl
    rw [if_neg (by omega), if_pos (by omega), hs]

/-- The block and the offset within it of a register of a hub. -/
theorem relOf_hub {h : Hub} {rel : Nat} (hrel : rel < 0x1_0000) : relOf (hubBase h + rel) = (.hub, rel) := by
  simp only [relOf, placeOf_hub hrel, Nat.add_sub_cancel_left]

theorem hub_of_offset {h : Hub} {rel : Nat} (hrel : rel < 0x1_0000) : hubOf ((hubBase h + rel) / 0x1000_0000) = h := by
  unfold hubOf
  cases h
  · have hn : hubBase .n = 0 := rfl
    rw [if_pos (by omega)]
  · have hs : hubBase .s = 0x1000_0000 := rfl
    rw [if_neg (by omega)]

theorem hub_rel_of_offset {h : Hub} {rel : Nat} (hrel : rel < 0x1_0000) : (hubBase h + rel) % 0x1000_0000 = rel := by
  cases h <;> simp only [hubBase] <;> omega

theorem hub_offset_lt {h : Hub} {rel : Nat} (hrel : rel < 0x1_0000) : hubBase h + rel < 0x2000_0000 := by
  cases h <;> simp only [hubBase] <;> omega

theorem ctrlEnd_mapReg {h : Hub} {rel : Nat} (hrel : rel < 0x1_0000) : ctrlEnd (hubBase h + rel) = none := by
  simp only [ctrlEnd, relOf_hub hrel]
  rw [if_neg (by omega), if_neg (by omega)]

theorem iommuAt_mapReg {h : Hub} {rel : Nat} (hrel : rel < 0x1_0000) : iommuAt (hubBase h + rel) = none := by
  unfold iommuAt
  simp only [hub_rel_of_offset hrel]
  rw [if_neg (by omega)]

/-- A write of a whole 64-bit register replaces its value. -/
theorem mergeBytes_whole (old : Nat) (v : Word) (h : old < 2 ^ 64) : mergeBytes old 0 8 v.toNat = v.toNat := by
  apply Nat.eq_of_testBit_eq
  intro i
  rw [mergeBytes, testBit_putBits]
  by_cases hi : i < 64
  · rw [if_pos (by omega), Nat.sub_zero]
  · rw [if_neg (by omega), Nat.testBit_lt_two_pow (Nat.lt_of_lt_of_le h (Nat.pow_le_pow_right (by decide) (by omega))),
      Nat.testBit_lt_two_pow (Nat.lt_of_lt_of_le v.isLt (Nat.pow_le_pow_right (by decide) (by omega)))]

/-- An accepted write of a register of the map stores its fields, and a value that matches no address is reported. -/
theorem regWrite_mapReg {b : Block} {c : Caller} {h : Hub} {reg : Nat} {fs : List FldDef} (hm : IsMapReg h reg)
    (hrow : HasRow reg fs) (hacc : accepts b c reg true = true) (v : Word) :
    ∃ r, r.flds = fs ∧ regWrite b c reg 8 v.toNat = afterMap (storeFields b c reg 0 8 v.toNat r) reg := by
  obtain ⟨r, hr, hrf⟩ := Option.map_eq_some_iff.mp hrow
  obtain ⟨hwidth, hflds⟩ := Prod.mk.inj hrf
  obtain ⟨rel, rfl, hlo, hhi, h8⟩ := hm
  have h8' : (hubBase h + rel) % 8 = 0 := by cases h <;> simp only [hubBase] <;> omega
  have hlt := hub_offset_lt (h := h) hhi
  have hreg : regOf (hubBase h + rel) 8 = some (hubBase h + rel, 0, r) := by simp [regOf, hr, hwidth, h8']
  have hv : v.toNat % 2 ^ (8 * 8) = v.toNat := Nat.mod_eq_of_lt v.isLt
  refine ⟨r, hflds, ?_⟩
  simp only [regWrite, hacc, iommuAt_mapReg hhi, hreg, hv, Bool.true_eq_false, if_false]
  rw [if_neg (by omega)]
  simp only [rowWrite, ctrlEnd_mapReg hhi, relOf_hub hhi, mergeBytes_whole _ v (rd_lt b _), hlt, decide_true, Bool.true_and,
    decide_eq_true_eq, if_true]
  rw [if_neg (by omega), if_neg (by omega), if_neg (by omega), if_neg (by omega), if_neg (by omega)]

/-! ## What follows a write of the map -/

/-- What follows a write of the map: nothing, or one report. -/
theorem afterMap_cases (b : Block) (reg : Nat) : afterMap b reg = b ∨ ∃ r cls, afterMap b reg = reportValue b r cls := by
  unfold afterMap
  dsimp only
  split
  · split
    · exact .inr ⟨_, _, rfl⟩
    · exact .inl rfl
  · split
    · split
      · exact .inr ⟨_, _, rfl⟩
      · exact .inl rfl
    · exact .inl rfl

@[simp] theorem afterMap_regs (b : Block) (reg : Nat) : (afterMap b reg).regs = b.regs := by
  obtain h | ⟨r, cls, h⟩ := afterMap_cases b reg
  · exact congrArg Block.regs h
  · exact (congrArg Block.regs h).trans (raise_regs ..)

/-- The report makes no event path shorter. -/
theorem evPath_length_le_afterMap (b : Block) (reg k : Nat) :
    (b.evPath.get [] k).length ≤ ((afterMap b reg).evPath.get [] k).length := by
  obtain h | ⟨r, cls, h⟩ := afterMap_cases b reg
  · exact Nat.le_of_eq (congrArg (fun x => (x.evPath.get [] k).length) h.symm)
  · simp only [h, reportValue, raise, raiseOwned, Tab.get_upd]
    split
    next hk => rw [hk, List.length_append]; exact Nat.le_add_right ..
    next => exact Nat.le_refl _

theorem afterMap_reportAccess_evPath_ne (b : Block) (c : Caller) (off d1 reg : Nat) :
    (afterMap (reportAccess b c off d1) reg).evPath ≠ b.evPath := by
  intro h
  obtain ⟨k, hlen⟩ := reportAccess_evPath_length b c off d1
  have hle := evPath_length_le_afterMap (reportAccess b c off d1) reg k
  rw [h, hlen] at hle
  omega

/-- A home group with a size whose QMASK R35 does not list is reported (R35). -/
theorem afterMap_homeGroup_evPath_ne {b : Block} {h : Hub} {g : Fin 32} (hsize : bitsOf (rd b (HUB_HOME_GROUP h g)) 15 0 ≠ 0)
    (hq : qmaskValid (bitsOf (rd b (HUB_HOME_GROUP h g)) 55 52) = false) :
    (afterMap b (HUB_HOME_GROUP h g)).evPath ≠ b.evPath := by
  have hrel : HUB_HOME_GROUP h g % 0x1000_0000 = 0x1000 + g * 8 := by
    cases h <;> simp only [HUB_HOME_GROUP, hubBase] <;> omega
  have hrep : afterMap b (HUB_HOME_GROUP h g) = reportValue b (HUB_HOME_GROUP h g) 0 := by
    unfold afterMap
    rw [hrel, if_pos (by omega), if_pos ⟨hsize, hq⟩]
  rw [hrep]
  apply raiseOwned_evPath_ne

/-- The lock of a home group's block is its hub's (R37). -/
theorem regLocked_homeGroup (b : Block) (h : Hub) (g : Fin 32) :
    regLocked b (HUB_HOME_GROUP h g) = fon b (HUB_LOCK h) HUB_LOCK_LOCK := by
  obtain ⟨rel, hreg, -, hhi, -⟩ := isMapReg_homeGroup h g
  rw [hreg, regLocked, if_pos (hub_offset_lt hhi), hub_of_offset hhi]

theorem homeGroupFields_plain : ∀ f ∈ homeGroupFields, plainField f = true := by decide

theorem homeGroupFields_locked : ∀ f ∈ homeGroupFields, lockedField f = true := by decide

theorem hpwBaseFields_not_rwl : ∀ f ∈ hpwBaseFields, f.acc ≠ .rwl := by decide

theorem hpwSizeFields_not_rwl : ∀ f ∈ hpwSizeFields, f.acc ≠ .rwl := by decide

theorem hpwBaseFields_plain : ∀ f ∈ hpwBaseFields, plainField f = true := by decide

theorem hpwSizeFields_plain : ∀ f ∈ hpwSizeFields, plainField f = true := by decide

/-- What a write that every field takes makes of a register of the map: the report that follows leaves it alone. -/
theorem regWrite_mapReg_of_plain {b : Block} {c : Caller} {h : Hub} {reg : Nat} {fs : List FldDef} (hm : IsMapReg h reg)
    (hrow : HasRow reg fs) (hacc : accepts b c reg true = true) (hf : ∀ f ∈ fs, plainField f = true)
    (hl : ∀ f ∈ fs, f.acc = .rwl → regLocked b reg = false) (v : Word) :
    regWrite b c reg 8 v.toNat = afterMap (wr b reg (fs.foldl (storeFld v.toNat) (rd b reg))) reg := by
  obtain ⟨r, rfl, hw⟩ := regWrite_mapReg hm hrow hacc v
  rw [hw, storeFields_of_plain c hf hl]

/-- A register of the map reads each field as stored, whatever report follows. -/
theorem fget_afterMap_stored (b : Block) (reg : Nat) {fs : List FldDef} {f : FldDef} (hm : f ∈ fs) (hf : plainField f = true)
    (new : Nat) :
    fget (afterMap (wr b reg (fs.foldl (storeFld new) (rd b reg))) reg) reg ⟨f.hi, f.lo⟩ = bitsOf new f.hi f.lo :=
  (fget_congr (afterMap_regs ..) ..).trans (bitsOf_stored b reg hm hf new)

/-- A home group stored with a size and a QMASK that R35 does not list is reported (R35). -/
theorem stored_homeGroup_evPath_ne {b : Block} {h : Hub} {g : Fin 32} {new : Nat} (hsize : bitsOf new 15 0 ≠ 0)
    (hq : qmaskValid (bitsOf new 55 52) = false) :
    (afterMap (wr b (HUB_HOME_GROUP h g) (homeGroupFields.foldl (storeFld new) (rd b (HUB_HOME_GROUP h g))))
      (HUB_HOME_GROUP h g)).evPath ≠ b.evPath := by
  rw [← wr_evPath b (HUB_HOME_GROUP h g) (homeGroupFields.foldl (storeFld new) (rd b (HUB_HOME_GROUP h g)))]
  have hs := bitsOf_stored b (HUB_HOME_GROUP h g) (fs := homeGroupFields) (f := ⟨"SIZE_GIB", 15, 0, .rwl, false⟩) (by decide)
    (by decide) new
  have hqm := bitsOf_stored b (HUB_HOME_GROUP h g) (fs := homeGroupFields) (f := ⟨"QMASK", 55, 52, .rwl, false⟩) (by decide)
    (by decide) new
  exact afterMap_homeGroup_evPath_ne (fun h0 => hsize (hs.symm.trans h0)) ((congrArg qmaskValid hqm).trans hq)

end Sys2Proof.Machine

namespace Sys2Proof.Safety

open Sys2Proof.Machine

/-- A command that comes to a refused write loses it. -/
theorem gives_writeLost {i : Instr} {s : State} {c : Caller} {off d1 : Nat}
    (h : exec i s = nextBlk s (refuseWrite s.blk c off d1)) :
    Gives i s (WriteLost s.blk c) := gives_of h (refuseWrite_writeLost ..)

theorem regsKeep_afterMap_wr (b : Block) (reg v : Nat) : RegsKeep b (afterMap (wr b reg v) reg) [reg] := by
  intro o ho
  rw [rd_congr (afterMap_regs ..), rd_wr_ne _ _ (by simpa using ho)]

/-- HOME_GROUP_WRITE to an unlocked hub stores the five fields of R35, and reports a group with a size whose QMASK R35 does not
list. -/
theorem homeGroupWrite_stores {src : Source} {h : Hub} {g : Fin 32} {v : Word} {s : State}
    (hacc : accepts s.blk (callerOf s.blk src) (HUB_HOME_GROUP h g) true = true)
    (hlock : fon s.blk (HUB_LOCK h) HUB_LOCK_LOCK = false) :
    Gives (.homeGroupWrite src h g v) s fun b =>
      fget b (HUB_HOME_GROUP h g) HUB_HOME_GROUP_PKG = bitsOf v.toNat 58 56 ∧
        fget b (HUB_HOME_GROUP h g) HUB_HOME_GROUP_QMASK = bitsOf v.toNat 55 52 ∧
        fget b (HUB_HOME_GROUP h g) HUB_HOME_GROUP_BASE = bitsOf v.toNat 51 30 ∧
        fget b (HUB_HOME_GROUP h g) HUB_HOME_GROUP_PART = bitsOf v.toNat 17 16 ∧
        fget b (HUB_HOME_GROUP h g) HUB_HOME_GROUP_SIZE_GIB = bitsOf v.toNat 15 0 ∧
        RegsKeep s.blk b [HUB_HOME_GROUP h g] ∧
        (bitsOf v.toNat 15 0 ≠ 0 → qmaskValid (bitsOf v.toNat 55 52) = false → b.evPath ≠ s.blk.evPath) := by
  have hw := regWrite_mapReg_of_plain (isMapReg_homeGroup h g) (hasRow_homeGroup h g) hacc homeGroupFields_plain
    (fun _ _ _ => (regLocked_homeGroup ..).trans hlock) v
  have hfld (f : FldDef) (hm : f ∈ homeGroupFields) :=
    fget_afterMap_stored s.blk (HUB_HOME_GROUP h g) hm (homeGroupFields_plain f hm) v.toNat
  exact gives_of ((exec_homeGroupWrite ..).trans (congrArg (nextBlk s) hw))
    ⟨hfld ⟨"PKG", 58, 56, .rwl, false⟩ (by decide), hfld ⟨"QMASK", 55, 52, .rwl, false⟩ (by decide),
      hfld ⟨"BASE", 51, 30, .rwl, false⟩ (by decide), hfld ⟨"PART", 17, 16, .rwl, false⟩ (by decide),
      hfld ⟨"SIZE_GIB", 15, 0, .rwl, false⟩ (by decide), regsKeep_afterMap_wr _ _ _, stored_homeGroup_evPath_ne⟩

/-- HOME_GROUP_WRITE to a locked hub changes no register and is reported (R12, R37). -/
theorem homeGroupWrite_locked {src : Source} {h : Hub} {g : Fin 32} {v : Word} {s : State}
    (hacc : accepts s.blk (callerOf s.blk src) (HUB_HOME_GROUP h g) true = true)
    (hlock : fon s.blk (HUB_LOCK h) HUB_LOCK_LOCK = true) :
    Gives (.homeGroupWrite src h g v) s fun b => RegsKeep s.blk b [] ∧ b.evPath ≠ s.blk.evPath := by
  obtain ⟨r, hr, hw⟩ := regWrite_mapReg (isMapReg_homeGroup h g) (hasRow_homeGroup h g) hacc v
  rw [storeFields_of_locked _ hr homeGroupFields_locked ((regLocked_homeGroup ..).trans hlock)] at hw
  refine gives_of ((exec_homeGroupWrite ..).trans (congrArg (nextBlk s) hw)) ⟨fun o _ => ?_, fun he => ?_⟩
  · rw [rd_congr (afterMap_regs ..), rd_congr (reportAccess_regs ..), rd_wr]
    split
    next ho => rw [ho, Nat.mod_eq_of_lt (rd_lt ..)]
    next => rfl
  · exact afterMap_reportAccess_evPath_ne _ _ _ _ _ (he.trans (wr_evPath ..).symm)

/-- HPW_WRITE of the base half stores its four fields (R458). -/
theorem hpwWrite_base_stores {src : Source} {h : Hub} {w : Fin 64} {v : Word} {s : State}
    (hacc : accepts s.blk (callerOf s.blk src) (HUB_HPW_BASE h w) true = true) :
    let n := v.toNat
    Gives (.hpwWrite src h w false v) s fun b =>
      let x := rd b (HUB_HPW_BASE h w)
      bitOf x 63 = bitOf n 63 ∧ bitsOf x 59 58 = bitsOf n 59 58 ∧ bitsOf x 55 52 = bitsOf n 55 52 ∧
        bitsOf x 51 12 = bitsOf n 51 12 ∧ RegsKeep s.blk b [HUB_HPW_BASE h w] := by
  intro n
  have hw := regWrite_mapReg_of_plain (isMapReg_hpwBase h w) (hasRow_hpwBase h w) hacc hpwBaseFields_plain
    (fun f hm ha => absurd ha (hpwBaseFields_not_rwl f hm)) v
  have hfld (f : FldDef) (hm : f ∈ hpwBaseFields) := bitsOf_stored s.blk (HUB_HPW_BASE h w) hm (hpwBaseFields_plain f hm) n
  have henable := testBit_stored s.blk (HUB_HPW_BASE h w) (f := ⟨"ENABLE", 63, 63, .rw, false⟩) (fs := hpwBaseFields)
    (by decide) (by decide) n (Nat.le_refl 63) (Nat.le_refl 63)
  refine gives_of ((exec_hpwWrite ..).trans (congrArg (nextBlk s) hw)) ?_
  simp only [rd_congr (afterMap_regs ..), bitOf_testBit]
  exact ⟨henable, hfld ⟨"KIND", 59, 58, .rw, false⟩ (by decide), hfld ⟨"PORT", 55, 52, .rw, false⟩ (by decide),
    hfld ⟨"BASE", 51, 12, .rw, false⟩ (by decide), regsKeep_afterMap_wr _ _ _⟩

/-- HPW_WRITE of the size half stores PAGES (R458). -/
theorem hpwWrite_size_stores {src : Source} {h : Hub} {w : Fin 64} {v : Word} {s : State}
    (hacc : accepts s.blk (callerOf s.blk src) (HUB_HPW_SIZE h w) true = true) :
    Gives (.hpwWrite src h w true v) s fun b =>
      fget b (HUB_HPW_SIZE h w) HUB_HPW_SIZE_PAGES = bitsOf v.toNat 39 0 ∧ RegsKeep s.blk b [HUB_HPW_SIZE h w] := by
  have hw := regWrite_mapReg_of_plain (isMapReg_hpwSize h w) (hasRow_hpwSize h w) hacc hpwSizeFields_plain
    (fun f hm ha => absurd ha (hpwSizeFields_not_rwl f hm)) v
  refine gives_of ((exec_hpwWrite ..).trans (congrArg (nextBlk s) hw)) ⟨?_, regsKeep_afterMap_wr _ _ _⟩
  exact (fget_congr (afterMap_regs ..) ..).trans (bitsOf_stored s.blk (HUB_HPW_SIZE h w)
    (f := ⟨"PAGES", 39, 0, .rw, false⟩) (fs := hpwSizeFields) (by decide) (by decide) v.toNat)

/-- TAKE is refused with its ring's control register, for an always-on ring and for a created one. -/
theorem take_of_refused {src : Source} {r : RingId} {s : State}
    (h : accepts s.blk (callerOf s.blk src) (HUB_EVR_CTRL r) true = false) :
    Gives (.take src r) s (WriteLost s.blk (callerOf s.blk src)) := by
  cases r with
  | ao => exact gives_writeLost ((exec_take ..).trans (congrArg (nextBlk s) (secAction_of_refused _ h)))
  | ring => exact gives_writeLost ((exec_take ..).trans (congrArg (nextBlk s) (regAction_of_refused _ h)))

/-- Settles O24: an accepted write of a map register stores each of its fields (`regWrite_mapReg_of_plain`, `bitsOf_stored`), or
none where the hub is locked; a refused write comes to `refuseWrite` whatever the command (`refuseWrite_writeLost`). -/
theorem mapWritesAndRefusedWrites : Obligations.MapWritesAndRefusedWrites := by
  refine ⟨fun src h g w v s => ⟨homeGroupWrite_stores, homeGroupWrite_locked, hpwWrite_base_stores, hpwWrite_size_stores⟩,
    fun src off size v bit race s => ⟨fun hr => ⟨?write, ?bitClear, ?cntClear⟩, fun h g hr => ?group, fun h w hr => ?window,
      fun m hr => ⟨?ring, ?abort⟩, fun m o hr => ?header, fun e hr => ⟨?start, ?retrain, ?restart, ?takeDown⟩,
      fun r hr => take_of_refused hr⟩⟩
  case write => exact gives_writeLost ((exec_registerWrite ..).trans (congrArg (nextBlk s) (regWrite_of_refused hr ..)))
  case bitClear => exact gives_writeLost ((exec_statusBitClear ..).trans (congrArg (nextBlk s) (statusClear_of_refused hr ..)))
  case cntClear => exact gives_writeLost ((exec_cntClear ..).trans (congrArg (nextBlk s) (cntClear_of_refused hr)))
  case group => exact gives_writeLost ((exec_homeGroupWrite ..).trans (congrArg (nextBlk s) (regWrite_of_refused hr ..)))
  case window => exact gives_writeLost ((exec_hpwWrite ..).trans (congrArg (nextBlk s) (regWrite_of_refused hr ..)))
  case ring => exact gives_writeLost ((exec_ring ..).trans (congrArg (nextBlk s) (regAction_of_refused _ hr)))
  case abort => exact gives_writeLost ((exec_abort ..).trans (congrArg (nextBlk s) (regAction_of_refused _ hr)))
  case header => exact gives_writeLost ((exec_mbxHeaderWrite ..).trans (congrArg (nextBlk s) (regAction_of_refused _ hr)))
  case start => exact gives_writeLost ((exec_linkStart ..).trans (congrArg (nextBlk s) (secAction_of_refused _ hr)))
  case retrain => exact gives_writeLost ((exec_linkRetrain ..).trans (congrArg (nextBlk s) (secAction_of_refused _ hr)))
  case restart => exact gives_writeLost ((exec_linkRestart ..).trans (congrArg (nextBlk s) (secAction_of_refused _ hr)))
  case takeDown => exact gives_writeLost ((exec_linkTakeDown ..).trans (congrArg (nextBlk s) (secAction_of_refused _ hr)))

end Sys2Proof.Safety
end

section
/-! PROOFS. I/O messages at the agents that serve none, at an I/O agent's control space and host-port windows, the answers of
MsFlush, and the guest's missing answers (R28, R30, R191, R233, R257 to R259, R456, R459). First what sending a message can do to
the block, then one law for each function on the way of an I/O message, then the frame of a spur that is taken down. -/

namespace Sys2Proof.Machine

/-! ## Sending a message -/

/-- A message that reaches an agent joins a box of it, or is dropped. -/
theorem arriveAt_cases (b : Block) (h : Hub) (m : Msg) : arriveAt b h m = b ∨ ∃ k, arriveAt b h m = pushBox b k m := by
  unfold arriveAt
  split
  · split
    · dsimp only
      split <;> exact .inr ⟨_, rfl⟩
    · exact .inr ⟨_, rfl⟩
    · exact .inr ⟨_, rfl⟩
    · split
      · exact .inr ⟨_, rfl⟩
      · split <;> exact .inr ⟨_, rfl⟩
    · exact .inr ⟨_, rfl⟩
  · exact .inr ⟨_, rfl⟩
  · exact .inr ⟨_, rfl⟩
  · exact .inr ⟨_, rfl⟩
  · exact .inl rfl

/-- What sending a message does: nothing, a place in a box or in a transmit queue, or a count of the dropped one (R220). -/
theorem hubPut_cases (b : Block) (h : Hub) (m : Msg) :
    hubPut b h m = b ∨ (∃ k, hubPut b h m = pushBox b k m) ∨ (∃ e, hubPut b h m = queueTx b e m) ∨
      hubPut b h m = bumpFld b (HUB_JCT_LOST h) HUB_JCT_LOST_DROPPED := by
  unfold hubPut
  dsimp only
  split
  · exact .inr (.inr (.inr rfl))
  · split
    · exact (arriveAt_cases b h m).imp_right .inl
    · split
      · exact .inr (.inl ⟨_, rfl⟩)
      · exact .inr (.inr (.inl ⟨_, rfl⟩))
    · exact .inr (.inr (.inl ⟨_, rfl⟩))
    · exact .inl rfl

/-- Sending a message changes no lost-write count. -/
@[simp] theorem hubPut_lostWrites (b : Block) (h : Hub) (m : Msg) : (hubPut b h m).lostWrites = b.lostWrites := by
  obtain hp | ⟨k, hp⟩ | ⟨e, hp⟩ | hp := hubPut_cases b h m <;> rw [hp]
  · exact pushBox_lostWrites ..
  · exact queueTx_lostWrites ..
  · exact fset_lostWrites ..

theorem rd_bumpFld_ne (b : Block) {o off : Nat} (f : Fld) (n : Nat) (h : o ≠ off) : rd (bumpFld b off f n) o = rd b o :=
  rd_fset_ne _ _ _ h

/-- Sending a message changes no register but the count of dropped ones. -/
theorem rd_hubPut_ne (b : Block) (h : Hub) (m : Msg) {o : Nat} (ho : o ≠ HUB_JCT_LOST h) : rd (hubPut b h m) o = rd b o := by
  obtain hp | ⟨k, hp⟩ | ⟨e, hp⟩ | hp := hubPut_cases b h m <;> rw [hp]
  · exact rd_pushBox ..
  · exact rd_queueTx ..
  · exact rd_bumpFld_ne _ _ _ ho

@[simp] theorem lostOf_hubPut (b : Block) (h : Hub) (m : Msg) (holder src dst : Nat) :
    lostOf (hubPut b h m) holder src dst = lostOf b holder src dst := lostOf_congr (hubPut_lostWrites ..) ..

@[simp] theorem lostOf_putBox (b : Block) (k vc : Nat) (l : List Msg) (holder src dst : Nat) :
    lostOf (putBox b k vc l) holder src dst = lostOf b holder src dst := rfl

@[simp] theorem lostOf_reportPio (b : Block) (h : Hub) (m : Hdr) (holder src dst : Nat) :
    lostOf (reportPio b h m) holder src dst = lostOf b holder src dst := rfl

@[simp] theorem lostOf_clearLost_same (b : Block) (holder src dst : Nat) :
    lostOf (clearLost b holder src dst) holder src dst = 0 := by
  simp [lostOf, clearLost]

/-! ## The front I/O message of a box -/

theorem popPio_of_front {b : Block} {key op : Nat} {m : Msg} {rest : List Msg} (hb : getBox b key vcPio = m :: rest)
    (hop : hOp m.hdr = op) : popPio b key op = some (m, putBox b key vcPio rest) := by
  simp [popPio, boxHeadIs, popBox, hb, hop]

theorem popPio_of_other {b : Block} {key op : Nat} (h : boxHeadIs b key vcPio op = false) : popPio b key op = none := by
  simp [popPio, h]

/-! ## Agents that serve no I/O request (R150, R191) -/

/-- What an agent that serves no I/O request does with the front message of its box: it reports and refuses it. -/
def refuseFront (b : Block) (h : Hub) (key op : Nat) : Block :=
  match popPio b key op with
  | some (m, b) => homeRefuse (reportPio b h m.hdr) h m.hdr
  | none => b

theorem ioArrive_dm (b : Block) (h : Hub) (op : Nat) : ioArrive b (.dm h) op = refuseFront b h (boxDm h) op := rfl

theorem ioArrive_th (b : Block) (h : Hub) (op : Nat) : ioArrive b (.th h) op = refuseFront b h (boxTh h) op := rfl

theorem refuseFront_of_other {b : Block} {h : Hub} {key op : Nat} (hb : boxHeadIs b key vcPio op = false) :
    refuseFront b h key op = b := by
  simp [refuseFront, popPio_of_other hb]

theorem refuseFront_of_front {b : Block} {h : Hub} {key op : Nat} {m : Msg} {rest : List Msg}
    (hb : getBox b key vcPio = m :: rest) (hop : hOp m.hdr = op) :
    refuseFront b h key op = homeRefuse (reportPio (putBox b key vcPio rest) h m.hdr) h m.hdr := by
  simp [refuseFront, popPio_of_front hb hop]

/-- A refused IoWr is lost against its source and destination (R28, R259). -/
theorem homeRefuse_ioWr {b : Block} {h : Hub} {m : Hdr} (hvc : hVc m = vcPio) (hop : hOp m = opIoWr) :
    homeRefuse b h m = addLost b 0 (hSrc m) (hDst m) := by
  simp only [homeRefuse, refusal, refusalCount, hvc, hop, if_true, and_self]

theorem opIoRd_ne_opIoWr : opIoRd ≠ opIoWr := by decide

theorem opIoRd_ne_opMsFlush : opIoRd ≠ opMsFlush := by decide

/-- A refused IoRd gets an error completion (R28, R150). -/
theorem homeRefuse_ioRd {b : Block} {h : Hub} {m : Hdr} (hvc : hVc m = vcPio) (hop : hOp m = opIoRd) :
    homeRefuse b h m = hubPut b h { hdr := mkComp (hWorld m) (hSrc m) (hDst m) (hTag m) stI stsError 0 } := by
  simp only [homeRefuse, refusal, refusalCount, hvc, hop, opIoRd_ne_opIoWr, opIoRd_ne_opMsFlush, and_false, if_false]

/-! ## The I/O agent (R30, R459) -/

/-- The partition under which an I/O agent decodes the address of a message. -/
def pioPart (b : Block) (h : Hub) (m : Hdr) : Nat := (pioCaller b h m).part.getD (msgPart b h m (pioPa m))

/-- The I/O agent serves the front message of its box, unless the port that it is for holds it (R405). -/
theorem ioArrive_io {b : Block} {h : Hub} {op : Nat} {m : Msg} {rest : List Msg} (hb : getBox b (boxIo h) vcPio = m :: rest)
    (hop : hOp m.hdr = op) (hports : portHolds b h m.hdr = false) :
    ioArrive b (.io h) op = ioServe (putBox b (boxIo h) vcPio rest) h m := by
  simp [ioArrive, popPio_of_front hb hop, hports]

/-- An IoWr to the control space that no world region refuses is performed there. -/
theorem ioServe_ctlWrite {b : Block} {h : Hub} {m : Msg} {off : Nat} (hop : hOp m.hdr = opIoWr)
    (hregion : (!hWorld m.hdr && inRegion b h (pioPart b h m.hdr) (pioPa m.hdr)) = false)
    (hdec : decodePa b h (pioPart b h m.hdr) (pioPa m.hdr) = .ctl off) (hguest : guestSpace off = none) :
    ioServe b h m = ctlWrite b h off m := by
  unfold pioPart at hregion hdec
  simp [ioServe, hregion, hdec, hguest, hop]

theorem ioServe_ctlRead {b : Block} {h : Hub} {m : Msg} {off : Nat} (hop : hOp m.hdr = opIoRd)
    (hregion : (!hWorld m.hdr && inRegion b h (pioPart b h m.hdr) (pioPa m.hdr)) = false)
    (hdec : decodePa b h (pioPart b h m.hdr) (pioPa m.hdr) = .ctl off) (hguest : guestSpace off = none) :
    ioServe b h m = ctlRead b h off m.hdr := by
  unfold pioPart at hregion hdec
  have hrd : (opIoRd == opIoWr) = false := beq_eq_false_iff_ne.mpr opIoRd_ne_opIoWr
  simp only [ioServe, hregion, hdec, hguest, hop, hrd, Option.isSome_none, Bool.false_eq_true, if_false]

/-- A message for a KIND 0 window of this hub, whose port is not claimed, becomes a memory request of the port (R459). -/
theorem ioServe_memWindow {b : Block} {h : Hub} {m : Msg} {w port : Nat}
    (hregion : (!hWorld m.hdr && inRegion b h (pioPart b h m.hdr) (pioPa m.hdr)) = false)
    (hdec : decodePa b h (pioPart b h m.hdr) (pioPa m.hdr) = .win h w 0 port) (hclaim : (getPort b h port).claimed = false) :
    ioServe b h m = memWindow b h w (Fin.ofNat 16 port) m := by
  unfold pioPart at hregion hdec
  simp [ioServe, hregion, hdec, hclaim]

/-- A control-space read that the block accepts is answered with the value. -/
theorem ctlRead_of_value {b : Block} {h : Hub} {off v : Nat} {m : Hdr}
    (hv : regRead b (pioCaller b h m) off (pioBytes m) = some v) :
    ctlRead b h off m = hubPut b h
      { hdr := mkDat opCompData (hWorld m) (hSrc m) (hDst m) (hTag m) stI stsOk 0 (pioBe m) 0
        data := lineOf (pioPa m % 64) (pioBytes m) v } := by
  simp only [ctlRead, hv]

theorem ctlWrite_of_clean {b : Block} {h : Hub} {off : Nat} {m : Msg} (hp : pioPoison m.hdr = 0) :
    ctlWrite b h off m = regWrite b (pioCaller b h m.hdr) off (pioBytes m.hdr)
      (lineBytes m.data (pioPa m.hdr % 64) (pioBytes m.hdr)) := by
  simp [ctlWrite, hp]

/-- A control-space write of poisoned bytes is not performed (R30). -/
theorem ctlWrite_of_poisoned {b : Block} {h : Hub} {off : Nat} {m : Msg}
    (hp : pioPoison m.hdr &&& beWords (pioBe m.hdr) ≠ 0) :
    ctlWrite b h off m = refuseWrite b (pioCaller b h m.hdr) off (m.hdr.toNat % 2 ^ 64) := if_pos hp

/-- The posted writes of a window after one more of source `src` at `pa` (R258). -/
def noteWrite (src w pa : Nat) (l : List WinWrites) : List WinWrites :=
  match l.find? fun x => x.src == src && x.window == w with
  | some x => l.map fun y => if y = x then { y with count := y.count + 1, last := pa } else y
  | none => l ++ [{ src := src, window := w, count := 1, last := pa }]

/-- The posted write is noted with its source, window and address. -/
theorem exists_mem_noteWrite (src w pa : Nat) (l : List WinWrites) :
    ∃ x ∈ noteWrite src w pa l, x.src = src ∧ x.window = w ∧ x.last = pa := by
  unfold noteWrite
  split
  next x hx =>
    have hkey := List.find?_some hx
    simp only [Bool.and_eq_true, beq_iff_eq] at hkey
    exact ⟨{ x with count := x.count + 1, last := pa },
      List.mem_map.mpr ⟨x, List.mem_of_find?_eq_some hx, if_pos rfl⟩, hkey.1, hkey.2, rfl⟩
  next => exact ⟨_, List.mem_append_right _ (List.mem_singleton_self _), rfl, rfl, rfl⟩

/-- An IoWr for a port that is up leaves as a memory write and is noted. -/
theorem memWindow_ioWr {b : Block} {h : Hub} {w : Nat} {port : Fin 16} {m : Msg} (hready : portReady b h port.val = true)
    (hop : hOp m.hdr = opIoWr) :
    memWindow b h w port m =
      emit (updIo b h fun i => { i with wins := noteWrite (hSrc m.hdr) w (pioPa m.hdr) i.wins })
        (.mwr h (some port) (pioPa m.hdr) m.data (pioBe m.hdr) (pioPoison m.hdr)) := by
  simp only [memWindow, hready, hop, Bool.true_eq_false, if_false, if_true]
  rfl

@[simp] theorem getIo_emit (b : Block) (x : Out) (h : Hub) : getIo (emit b x) h = getIo b h := rfl

/-! ## MsFlush (R257 to R259) -/

/-- The answer of an MsFlush clears the count that it reports. -/
theorem lostOf_flushAnswer (b : Block) (h : Hub) (m : Hdr) : lostOf (flushAnswer b h m) 0 (hSrc m) (hDst m) = 0 := by
  simp [flushAnswer]

theorem flushArrive_dm {b : Block} {h : Hub} {m : Msg} {rest : List Msg} (hb : getBox b (boxDm h) vcPio = m :: rest)
    (hop : hOp m.hdr = opMsFlush) :
    flushArrive b (.dm h) = flushAnswer (putBox b (boxDm h) vcPio rest) h m.hdr := by
  simp only [flushArrive, popPio_of_front hb hop]

theorem flushArrive_th {b : Block} {h : Hub} {m : Msg} {rest : List Msg} (hb : getBox b (boxTh h) vcPio = m :: rest)
    (hop : hOp m.hdr = opMsFlush) :
    flushArrive b (.th h) = flushAnswer (putBox b (boxTh h) vcPio rest) h m.hdr := by
  simp only [flushArrive, popPio_of_front hb hop]

theorem flushArrive_io {b : Block} {h : Hub} {m : Msg} {rest : List Msg} (hb : getBox b (boxIo h) vcPio = m :: rest)
    (hop : hOp m.hdr = opMsFlush) : flushArrive b (.io h) = ioFlush (putBox b (boxIo h) vcPio rest) h m.hdr := by
  simp only [flushArrive, popPio_of_front hb hop]

/-- A hub's slices answer when no IoWr of the source is unfinished there, and wait otherwise. -/
theorem flushArrive_home {b : Block} {h : Hub} {m : Msg} {rest : List Msg} (hb : getBox b (boxHome h) vcPio = m :: rest)
    (hop : hOp m.hdr = opMsFlush) :
    flushArrive b (.home h) =
      if slicesOwe b h (hSrc m.hdr) then b else flushAnswer (putBox b (boxHome h) vcPio rest) h m.hdr := by
  simp only [flushArrive, popPio_of_front hb hop]

/-- The waits that remain are those that `answerFlushes` keeps. -/
@[simp] theorem flushes_settleFlushes (b : Block) (h : Hub) :
    (getIo (settleFlushes b h) h).flushes = (answerFlushes h (getIo b h).flushes [] b).1 := by
  have heq : settleFlushes b h = updIo (answerFlushes h (getIo b h).flushes [] b).2 h fun i =>
      { i with flushes := (answerFlushes h (getIo b h).flushes [] b).1 } := rfl
  rw [heq, getIo_updIo]

theorem lostOf_settleFlushes (b : Block) (h : Hub) (holder src dst : Nat) :
    lostOf (settleFlushes b h) holder src dst = lostOf (answerFlushes h (getIo b h).flushes [] b).2 holder src dst := rfl

/-- A single MsFlush that waits for nothing more is answered, and the count of its source is cleared. -/
theorem answerFlushes_of_ready {h : Hub} {f : FlushWait} (hw : f.windows = []) (hc : f.cfgs = []) (b : Block) :
    (answerFlushes h [f] [] b).1 = [] ∧ lostOf (answerFlushes h [f] [] b).2 0 (hSrc f.hdr) (hDst f.hdr) = 0 := by
  have hready : (!f.windows.isEmpty || !f.cfgs.isEmpty || ([] : List FlushWait).any fun k => hSrc k.hdr == hSrc f.hdr) = false := by
    simp [hw, hc]
  simp only [answerFlushes, hready, Bool.false_eq_true, if_false, lostOf_hubPut, lostOf_clearLost_same, and_self]

/-- A single MsFlush that waits for configuration writes stays. -/
theorem answerFlushes_of_cfgs {h : Hub} {f : FlushWait} (hc : f.cfgs ≠ []) (b : Block) :
    (answerFlushes h [f] [] b).1 = [f] := by
  simp [answerFlushes, hc]

theorem settleFlushes_of_ready {b : Block} {h : Hub} {f : FlushWait} (hf : (getIo b h).flushes = [f]) (hw : f.windows = [])
    (hc : f.cfgs = []) :
    (getIo (settleFlushes b h) h).flushes = [] ∧ lostOf (settleFlushes b h) 0 (hSrc f.hdr) (hDst f.hdr) = 0 := by
  rw [flushes_settleFlushes, lostOf_settleFlushes, hf]
  exact answerFlushes_of_ready hw hc b

theorem settleFlushes_of_cfgs {b : Block} {h : Hub} {f : FlushWait} (hf : (getIo b h).flushes = [f]) (hc : f.cfgs ≠ []) :
    (getIo (settleFlushes b h) h).flushes = [f] := by
  rw [flushes_settleFlushes, hf, answerFlushes_of_cfgs hc]

/-- An MsFlush at an I/O agent whose source has neither posted writes nor configuration writes there is answered at once. -/
theorem ioFlush_of_idle {b : Block} {h : Hub} {m : Hdr} (hflushes : (getIo b h).flushes = [])
    (hwins : ((getIo b h).wins.filter fun x => x.src == hSrc m) = [])
    (hcfgs : ((getIo b h).pcie.any fun r => r.write && r.mem.isNone && hSrc r.hdr == hSrc m) = false) :
    (getIo (ioFlush b h m) h).flushes = [] ∧ lostOf (ioFlush b h m) 0 (hSrc m) (hDst m) = 0 := by
  have hnone : ((getIo b h).pcie.filter fun r => r.write && r.mem.isNone && hSrc r.hdr == hSrc m) = [] := by
    rw [List.filter_eq_nil_iff]
    exact List.any_eq_false.mp hcfgs
  simp only [ioFlush, hwins, hnone, flushWins, List.map_nil]
  exact settleFlushes_of_ready (f := { hdr := m, windows := [], cfgs := [], lost := 0 }) (by simp [hflushes]) rfl rfl

/-- A wait for one window after its flush read: no window is left, and its writes are confirmed or lost. -/
def flushWaitDone (f : FlushWait) (ok : Bool) (n : Nat) : FlushWait :=
  { f with windows := [], lost := if ok then f.lost else f.lost + n }

/-- The flush read of the one window that the only MsFlush waits for leaves that wait to be settled. -/
theorem flushRead_of_single {b : Block} {h : Hub} {f : FlushWait} {w n : Nat} (hf : (getIo b h).flushes = [f])
    (hw : f.windows = [(w, n)]) (ok : Bool) :
    ∃ b', flushRead b h w ok = settleFlushes b' h ∧ (getIo b' h).flushes = [flushWaitDone f ok n] := by
  refine ⟨_, rfl, ?_⟩
  simp [hf, updFirst, hw, flushWaitDone]

/-! ## A spur that is taken down (R100, R216, R244) -/

/-- The registers that a count of a violation, and a take-down of the spur by it, may change. -/
def spurDownRegs (h : Hub) : List Nat :=
  [SPUR_VIOL_STATUS h, LINK_STATUS (.hub h 6), LINK_ERR (.hub h 6), HUB_ERR_STATUS h, HUB_MILEPOST_DIES .n, HUB_MILEPOST_DIES .s,
    HUB_JCT_LOST .n, HUB_JCT_LOST .s]

theorem rd_setStatus_ne (b : Block) {off o : Nat} (bit d1 : Nat) (ao w : Bool) (h : o ≠ off) :
    rd (setStatus b off bit d1 ao w) o = rd b o :=
  (rfl : rd (setStatus b off bit d1 ao w) o = rd (wr b off (putBits (rd b off) bit bit 1)) o).trans (rd_wr_ne _ _ h)

theorem rd_setMilepost_ne (b : Block) {off o : Nat} (bit : Nat) (v : Bool) (ag unit cls : Nat) (h : o ≠ off) :
    rd (setMilepost b off bit v ag unit cls) o = rd b o := by
  unfold setMilepost
  split
  · rfl
  · rw [rd_raise, rd_wr_ne _ _ h]

/-- Declaring an agent lost at a hub changes the hub's register of lost agents alone. -/
theorem rd_declareLostAt_ne (b : Block) (h : Hub) (a cause : Nat) {o : Nat} (ho : o ≠ HUB_JCT_LOST h) :
    rd (declareLostAt b h a cause) o = rd b o := by
  unfold declareLostAt
  split
  · rfl
  · have hpkg (b : Block) (p : Pkg) : rd { b with pkg := p } o = rd b o := rfl
    rw [rd_raise, hpkg, rd_fset_ne _ _ _ ho, rd_fset_ne _ _ _ ho]

theorem rd_declareLost_ne (b : Block) (a cause : Nat) {o : Nat} (hn : o ≠ HUB_JCT_LOST .n) (hs : o ≠ HUB_JCT_LOST .s)
    (hm : ∀ x, o ≠ HUB_MILEPOST_DIES x) : rd (declareLost b a cause) o = rd b o := by
  unfold declareLost setEndMilepost
  rw [rd_declareLostAt_ne _ _ _ _ hs, rd_declareLostAt_ne _ _ _ _ hn, rd_setMilepost_ne _ _ _ _ _ _ (hm _)]

theorem rd_losePath_ne (b : Block) (h : Hub) (a : Nat) {o : Nat} (ho : o ≠ HUB_ERR_STATUS h) :
    rd (losePath b h a) o = rd b o := rd_bumpFld_ne _ _ _ ho

/-- A spur end that enters DOWN changes none but `spurDownRegs`. -/
theorem rd_enterDown_spur (b : Block) (h : Hub) (reason : Nat) {o : Nat} (ho : o ∉ spurDownRegs h) :
    rd (enterDown b (.hub h 6) reason) o = rd b o := by
  simp only [spurDownRegs, List.mem_cons, List.not_mem_nil, or_false, not_or] at ho
  obtain ⟨-, hstatus, herr, hpath, hmn, hms, hjn, hjs⟩ := ho
  have hm (x : Hub) : o ≠ HUB_MILEPOST_DIES x := by cases x <;> assumption
  have hlost (b : Block) (cause : Nat) : rd (endLost b (.hub h 6) cause true) o = rd b o := by
    have h67 : ¬ (6 : Fin 8).val = 7 := by decide
    simp only [endLost, h67, if_false, Bool.or_true, if_true]
    rw [rd_declareLost_ne _ _ _ hjn hjs hm, setEndMilepost, rd_setMilepost_ne _ _ _ _ _ _ (hm _), rd_losePath_ne _ _ _ hpath]
  unfold enterDown
  dsimp only
  split
  · rfl
  · rw [hlost, rd_setStatus_ne _ _ _ _ _ herr, rd_updLink, rd_fset_ne _ _ _ hstatus, rd_fset_ne _ _ _ hstatus]

/-- A violation of the guest changes none but `spurDownRegs`. -/
theorem rd_violate (b : Block) (h : Hub) {o : Nat} (ho : o ∉ spurDownRegs h) : rd (violate b h) o = rd b o := by
  have hviol : o ≠ SPUR_VIOL_STATUS h := fun e => ho (e ▸ List.mem_cons_self)
  have hwarn (b : Block) (p : Prop) [Decidable p] (bit : Nat) :
      rd (if p then setStatus b (SPUR_VIOL_STATUS h) bit else b) o = rd b o := by
    split
    · exact rd_setStatus_ne _ _ _ _ _ hviol
    · rfl
  unfold violate
  dsimp only
  split
  · rw [rd_enterDown_spur _ _ _ ho, rd_setStatus_ne _ _ _ _ _ hviol, rd_fset_ne _ _ _ hviol, hwarn, rd_bumpFld_ne _ _ _ hviol]
  · rw [hwarn, rd_bumpFld_ne _ _ _ hviol]

/-- A new orphan changes none but `spurDownRegs`. -/
theorem rd_addOrphan (b : Block) (h : Hub) (x : Orphan) {o : Nat} (ho : o ∉ spurDownRegs h) :
    rd (addOrphan b h x) o = rd b o := by
  have hviol : o ≠ SPUR_VIOL_STATUS h := fun e => ho (e ▸ List.mem_cons_self)
  unfold addOrphan
  split
  · rw [rd_enterDown_spur _ _ _ ho, rd_setStatus_ne _ _ _ _ _ hviol, rd_fset_ne _ _ _ hviol]
  · rfl

/-- The counter PIO_NO_ANSWER of a spur is none of `spurDownRegs`. -/
theorem cntSpur_not_mem (h : Hub) : CNT_SPUR h 4 ∉ spurDownRegs h := by
  cases h <;> decide

theorem cntSpur_ne_jctLost (h : Hub) : CNT_SPUR h 4 ≠ HUB_JCT_LOST h := by
  cases h <;> decide

/-- A guest that owes no such answer has missed none. -/
theorem pioTimeout_of_none {b : Block} {h : Hub} {src tag : Nat}
    (hx : takeFirst (fun m => hSrc m == src && hTag m == tag) (getSpur b h).pio = none) : pioTimeout b h src tag = b := by
  simp only [pioTimeout, hx]

/-- A guest's missing answer advances PIO_NO_ANSWER (R233). -/
theorem rd_pioTimeout_of_found {b : Block} {h : Hub} {src tag : Nat} {x : Hdr} {l : List Hdr}
    (hx : takeFirst (fun m => hSrc m == src && hTag m == tag) (getSpur b h).pio = some (x, l)) :
    rd (pioTimeout b h src tag) (CNT_SPUR h 4) = min 0xFFFF_FFFF (rd b (CNT_SPUR h 4) + 1) := by
  simp only [pioTimeout, hx]
  rw [rd_addOrphan _ _ _ (cntSpur_not_mem h), rd_violate _ _ (cntSpur_not_mem h), rd_bumpErr, if_pos rfl,
    rd_hubPut_ne _ _ _ (cntSpur_ne_jctLost h), rd_updSpur]

end Sys2Proof.Machine

namespace Sys2Proof.Safety

open Sys2Proof.Machine

/-- IO_WR and IO_RD at an agent that serves no I/O request: the write is lost, the read gets an error completion, and another
front message stays (R28, R150, R191). -/
theorem ioRequests_refused {t : IoTarget} {h : Hub} {key : Nat} {m : Msg} {rest : List Msg} {s : State}
    (ht : ∀ op, ioArrive s.blk t op = refuseFront s.blk h key op) :
    (∀ op, (op = opIoWr ∨ op = opIoRd) → boxHeadIs s.blk key vcPio op = false →
      (op = opIoWr → NoEffect (.ioWr t) s) ∧ (op = opIoRd → NoEffect (.ioRd t) s)) ∧
    (getBox s.blk key vcPio = m :: rest ∧ hOp m.hdr = opIoWr → hVc m.hdr = vcPio → Gives (.ioWr t) s fun b =>
      lostOf b 0 (hSrc m.hdr) (hDst m.hdr) = lostOf s.blk 0 (hSrc m.hdr) (hDst m.hdr) + 1) ∧
    (getBox s.blk key vcPio = m :: rest ∧ hOp m.hdr = opIoRd → hVc m.hdr = vcPio → Gives (.ioRd t) s fun b =>
      b = hubPut (reportPio (putBox s.blk key vcPio rest) h m.hdr) h
        { hdr := mkComp (hWorld m.hdr) (hSrc m.hdr) (hDst m.hdr) (hTag m.hdr) stI stsError 0 }) := by
  refine ⟨fun op _ hother => ⟨?_, ?_⟩, fun ⟨hb, hop⟩ hvc => ?_, fun ⟨hb, hop⟩ hvc => ?_⟩
  · rintro rfl
    exact noEffect_of (exec_ioWr ..) ((ht _).trans (refuseFront_of_other hother))
  · rintro rfl
    exact noEffect_of (exec_ioRd ..) ((ht _).trans (refuseFront_of_other hother))
  · refine gives_of (exec_ioWr ..) ?_
    rw [ht, refuseFront_of_front hb hop, homeRefuse_ioWr hvc hop, lostOf_addLost_same, lostOf_reportPio, lostOf_putBox]
  · refine gives_of (exec_ioRd ..) ?_
    rw [ht, refuseFront_of_front hb hop, homeRefuse_ioRd hvc hop]

/-- An MsFlush that its destination answers at once clears the count of its source, which the answer carries. -/
theorem msFlush_answered {t : FlushTarget} {h : Hub} {key : Nat} {m : Msg} {rest : List Msg} {s : State}
    (ht : flushArrive s.blk t = flushAnswer (putBox s.blk key vcPio rest) h m.hdr) :
    let n := lostOf s.blk 0 (hSrc m.hdr) (hDst m.hdr)
    Gives (.msFlush t) s fun b => lostOf b 0 (hSrc m.hdr) (hDst m.hdr) = 0 ∧
      b = hubPut (clearLost (putBox s.blk key vcPio rest) 0 (hSrc m.hdr) (hDst m.hdr)) h
        { hdr := mkComp (hWorld m.hdr) (hSrc m.hdr) (hDst m.hdr) (hTag m.hdr) stI (if n = 0 then stsOk else stsLost)
            (lostField n) } :=
  gives_of ((exec_msFlush ..).trans (congrArg (nextBlk s) ht)) ⟨lostOf_flushAnswer .., rfl⟩

/-- The end of a flush read that the only MsFlush waits for: without configuration writes to wait for it is answered, otherwise
it waits on with its writes confirmed or lost (R258). -/
theorem flushReadDone_single {h : Hub} {w : Fin 64} {n : Nat} {f : FlushWait} {res : TlpStatus} {s : State}
    (hf : (getIo s.blk h).flushes = [f]) (hw : f.windows = [(w.val, n)]) :
    (f.cfgs = [] → Gives (.flushReadDone h w res) s fun b =>
      (getIo b h).flushes = [] ∧ lostOf b 0 (hSrc f.hdr) (hDst f.hdr) = 0) ∧
    (f.cfgs ≠ [] → Gives (.flushReadDone h w res) s fun b => (getIo b h).flushes =
      [{ f with windows := [], lost := if res = .ok then f.lost else f.lost + n }]) := by
  obtain ⟨b, hread, hb⟩ := flushRead_of_single hf hw (res == .ok)
  have hexec := (exec_flushReadDone h w res s).trans (congrArg (nextBlk s) hread)
  refine ⟨fun hc => gives_of hexec ?_, fun hc => gives_of hexec ?_⟩
  · exact settleFlushes_of_ready (f := flushWaitDone f _ n) hb rfl hc
  · rw [settleFlushes_of_cfgs hb hc]
    simp only [flushWaitDone, beq_iff_eq]

/-- Settles O35: each clause follows the message from its box (`popPio_of_front`) through the one function that serves it there:
`refuseFront`, `ctlRead`, `ctlWrite`, `memWindow`, `flushAnswer`, `ioFlush`, `flushRead` or `pioTimeout`. -/
theorem ioMessagesAreServed : Obligations.IoMessagesAreServed := by
  intro h m rest s
  refine ⟨ioRequests_refused (ioArrive_dm _ _), ioRequests_refused (ioArrive_th _ _), ?ctlRead, ?ctlWrite, ?window,
    fun ⟨hb, hop⟩ => msFlush_answered (flushArrive_dm hb hop), fun ⟨hb, hop⟩ => msFlush_answered (flushArrive_th hb hop),
    ?homeFlush, ?homeWaits, ?ioFlush, fun w n f res hf hw => flushReadDone_single hf hw, ?pioTimeout⟩
  case ctlRead =>
    rintro off v ⟨hb, hop⟩ ⟨hports, hregion⟩ hdec hguest hv
    refine gives_of (exec_ioRd ..) ?_
    rw [ioArrive_io hb hop hports, ioServe_ctlRead hop hregion hdec hguest, ctlRead_of_value hv]
  case ctlWrite =>
    rintro off ⟨hb, hop⟩ ⟨hports, hregion⟩ hdec hguest
    have hserve := (ioArrive_io hb hop hports).trans (ioServe_ctlWrite hop hregion hdec hguest)
    exact ⟨fun hp => gives_of (exec_ioWr ..) (hserve.trans (ctlWrite_of_clean hp)),
      fun hp => gives_of (exec_ioWr ..) (hserve.trans (ctlWrite_of_poisoned hp))⟩
  case window =>
    rintro w port ⟨hb, hop⟩ ⟨hports, hregion⟩ hdec hclaim hready
    refine gives_of (exec_ioWr ..) ?_
    rw [ioArrive_io hb hop hports, ioServe_memWindow hregion hdec hclaim, memWindow_ioWr hready hop, getIo_emit, getIo_updIo]
    exact ⟨rfl, exists_mem_noteWrite ..⟩
  case homeFlush =>
    rintro howe ⟨hb, hop⟩
    exact msFlush_answered ((flushArrive_home hb hop).trans (if_neg (by simp [howe])))
  case homeWaits =>
    rintro ⟨hb, hop⟩ howe
    exact noEffect_of (exec_msFlush ..) ((flushArrive_home hb hop).trans (if_pos howe))
  case ioFlush =>
    rintro ⟨hb, hop⟩ hflushes hwins hcfgs
    refine gives_of ((exec_msFlush ..).trans (congrArg (nextBlk s) (flushArrive_io hb hop))) ?_
    exact ioFlush_of_idle hflushes hwins hcfgs
  case pioTimeout =>
    intro n tag
    exact ⟨fun hx => noEffect_of (exec_pioTimeout ..) (pioTimeout_of_none hx),
      fun x l hx => gives_of (exec_pioTimeout ..) (rd_pioTimeout_of_found hx)⟩

end Sys2Proof.Safety
end

section
/-! PROOFS. Management messages and broadcast invalidation (R141, R309 to R311, R496): a Tollhouse takes a MgtMsg, a relay sends
the copies of a BcastInval and waits for each, a die passes a copy to its harts, and a wait ends with the last answer or with its
timeout. First the laws of the shared list and message operations, then one law for each function of the relays and of the
copies. -/

namespace Sys2Proof.Machine

/-! ## Steps over a list, and its first elements -/

/-- What no step of a run changes, the run does not change. -/
theorem forEach_keeps {α σ β : Type} {f : α → σ → σ} {g : σ → β} (hf : ∀ x s, g (f x s) = g s) (xs : List α)
    (s : σ) : g (forEach xs f s) = g s := by
  induction xs generalizing s with
  | nil => rfl
  | cons x xs ih => rw [forEach_cons, ih, hf]

theorem takeFirst_of_none {α : Type} {p : α → Bool} {l : List α} (h : ∀ x ∈ l, p x = false) : takeFirst p l = none := by
  induction l with
  | nil => rfl
  | cons x l ih =>
    obtain ⟨hx, hl⟩ := List.forall_mem_cons.mp h
    simp [takeFirst, hx, ih hl]

/-- Where only the head can satisfy `p`, it is the one that is taken. -/
theorem takeFirst_cons_of_none {α : Type} {p : α → Bool} {l : List α} (h : ∀ x ∈ l, p x = false) (x : α) :
    takeFirst p (x :: l) = if p x then some (x, l) else none := by
  simp [takeFirst, takeFirst_of_none h]

/-- An element that does not satisfy `p` stays when the first that does is taken. -/
theorem mem_of_takeFirst {α : Type} {p : α → Bool} {l r : List α} {x y : α} (h : takeFirst p l = some (x, r)) (hy : y ∈ l)
    (hp : p y = false) : y ∈ r := by
  induction l generalizing r with
  | nil => cases hy
  | cons z l ih =>
    unfold takeFirst at h
    split at h
    next hz =>
      obtain ⟨rfl, rfl⟩ := Prod.mk.inj (Option.some.inj h)
      exact (List.mem_cons.mp hy).resolve_left fun e => by simp [← e, hp] at hz
    next =>
      split at h
      next => cases h
      next w r' hr =>
        obtain ⟨rfl, rfl⟩ := Prod.mk.inj (Option.some.inj h)
        exact List.mem_cons.mpr ((List.mem_cons.mp hy).imp_right (ih hr))

@[simp] theorem updFirst_cons_of_pos {α : Type} {p : α → Bool} {x : α} (h : p x = true) (f : α → α) (l : List α) :
    updFirst p f (x :: l) = f x :: l := if_pos h

/-- Where only the last element satisfies `p`, it is the one that changes. -/
theorem updFirst_concat {α : Type} {p : α → Bool} {l : List α} {x : α} (hl : ∀ y ∈ l, p y = false) (hx : p x = true)
    (f : α → α) : updFirst p f (l ++ [x]) = l ++ [f x] := by
  induction l with
  | nil => exact if_pos hx
  | cons y l ih =>
    obtain ⟨hy, hl⟩ := List.forall_mem_cons.mp hl
    simp [updFirst, hy, ih hl]

/-! ## Messages -/

theorem popBox_of_front {b : Block} {key vc : Nat} {m : Msg} {rest : List Msg} (hb : getBox b key vc = m :: rest) :
    popBox b key vc = some (m, putBox b key vc rest) := by
  simp only [popBox, hb]

theorem boxHeadIs_of_front {b : Block} {key vc op : Nat} {m : Msg} {rest : List Msg} (hb : getBox b key vc = m :: rest)
    (hop : hOp m.hdr = op) : boxHeadIs b key vc op = true := by
  simp only [boxHeadIs, hb, hop, beq_self_eq_true]

/-- Sending a message changes no Tollhouse. -/
@[simp] theorem hubPut_tolls (b : Block) (h : Hub) (m : Msg) : (hubPut b h m).tolls = b.tolls := by
  obtain hp | ⟨k, hp⟩ | ⟨e, hp⟩ | hp := hubPut_cases b h m <;> rw [hp]
  · exact pushBox_tolls ..
  · exact queueTx_tolls ..
  · exact fset_tolls ..

@[simp] theorem getTh_hubPut (b : Block) (h x : Hub) (m : Msg) : getTh (hubPut b h m) x = getTh b x :=
  congrArg (fun t : Tab Tollhouse => t.get {} x.idx) (hubPut_tolls b h m)

@[simp] theorem getTh_putBox (b : Block) (k vc : Nat) (l : List Msg) (h : Hub) : getTh (putBox b k vc l) h = getTh b h := rfl

@[simp] theorem getBox_updTh (b : Block) (h : Hub) (f : Tollhouse → Tollhouse) (k vc : Nat) :
    getBox (updTh b h f) k vc = getBox b k vc := rfl

@[simp] theorem getBox_updDie (b : Block) (d : Nat) (f : DieSt → DieSt) (k vc : Nat) :
    getBox (updDie b d f) k vc = getBox b k vc := rfl

/-- What a die's sending of a message does: nothing, or a place in its own box or in its transmit queue. -/
theorem dieSend_cases (b : Block) (k : Die) (m : Msg) :
    dieSend b k m = b ∨ (∃ key, dieSend b k m = pushBox b key m) ∨ ∃ e, dieSend b k m = queueTx b e m := by
  unfold dieSend
  split
  · exact .inr (.inl ⟨_, rfl⟩)
  · split
    · exact .inl rfl
    · exact .inr (.inr ⟨_, rfl⟩)

@[simp] theorem dieSend_dies (b : Block) (k : Die) (m : Msg) : (dieSend b k m).dies = b.dies := by
  obtain hp | ⟨key, hp⟩ | ⟨e, hp⟩ := dieSend_cases b k m <;> rw [hp]
  · exact pushBox_dies ..
  · exact queueTx_dies ..

@[simp] theorem dieSend_harts (b : Block) (k : Die) (m : Msg) : (dieSend b k m).harts = b.harts := by
  obtain hp | ⟨key, hp⟩ | ⟨e, hp⟩ := dieSend_cases b k m <;> rw [hp]
  · exact pushBox_harts ..
  · exact queueTx_harts ..

@[simp] theorem dieSend_regs (b : Block) (k : Die) (m : Msg) : (dieSend b k m).regs = b.regs := by
  obtain hp | ⟨key, hp⟩ | ⟨e, hp⟩ := dieSend_cases b k m <;> rw [hp]
  · exact pushBox_regs ..
  · exact queueTx_regs ..

@[simp] theorem getDie_dieSend (b : Block) (k : Die) (m : Msg) (n : Nat) : getDie (dieSend b k m) n = getDie b n :=
  congrArg (fun t : Tab DieSt => t.get {} n) (dieSend_dies b k m)

/-! ## A choice among free tags (R552) -/

/-- A choice from a list that is not empty takes one of its items, and may use up a free value. -/
theorem freePick_of_ne_nil {α : Type} (b : Block) {xs : List α} (h : xs ≠ []) :
    ∃ x ∈ xs, ∃ n, freePick b xs = (some x, { b with freeIx := n }) := by
  match xs with
  | [x] => exact ⟨x, List.mem_singleton_self x, b.freeIx, rfl⟩
  | x :: y :: l =>
    have hlt : Config.freeNat b.freeIx % (x :: y :: l).length < (x :: y :: l).length := Nat.mod_lt _ (Nat.succ_pos _)
    exact ⟨_, List.getElem_mem hlt, b.freeIx + 1, by simp only [freePick, List.getElem?_eq_getElem hlt]⟩

theorem nodup_freeTags (lo hi : Nat) (used : List Nat) : (freeTags lo hi used).Nodup :=
  List.Pairwise.filter _ (List.Pairwise.map (· + lo) (fun _ _ hne heq => hne (Nat.add_right_cancel heq)) List.nodup_range)

/-- One more tag in use is one less to choose from. -/
theorem length_freeTags_concat {lo hi tag : Nat} {used : List Nat} (h : tag ∈ freeTags lo hi used) :
    (freeTags lo hi (used ++ [tag])).length = (freeTags lo hi used).length - 1 := by
  have herase : freeTags lo hi (used ++ [tag]) = (freeTags lo hi used).erase tag := by
    rw [(nodup_freeTags lo hi used).erase_eq_filter]
    simp only [freeTags, List.filter_filter]
    refine List.filter_congr fun t _ => ?_
    by_cases ht : t = tag <;> simp [ht]
  rw [herase, List.length_erase_of_mem h]

/-! ## The relays (R309, R311, R496) -/

/-- An operation with one more copy to wait for. -/
def RelayOp.waitMore (o : RelayOp) (copy : Nat × Nat) : RelayOp := { o with left := o.left ++ [copy] }

/-- A copy of the last operation takes one more tag of the Tollhouse. -/
theorem thTags_waitMore (t : Tollhouse) (l : List RelayOp) (o : RelayOp) (copy : Nat × Nat) :
    thTags { t with relay := l ++ [o.waitMore copy] } = thTags { t with relay := l ++ [o] } ++ [copy.2] := by
  simp [thTags, RelayOp.waitMore]

/-- A copy goes out under a free tag, and its operation waits for it. -/
theorem sendCopies_of_pick {b b' : Block} {h : Hub} {tag : Nat}
    (hpick : chooseTag b 0 4095 (thTags (getTh b h)) = (some tag, b')) (m : Hdr) (num node : Nat) :
    sendCopies h m num node b = hubPut (updTh b' h fun t =>
      { t with relay := updFirst (fun o : RelayOp => o.num == num) (·.waitMore (node, tag)) t.relay }) h
        { hdr := mkMgt opBcastInval (hWorld m) node
            (myNode (updTh b' h fun t =>
              { t with relay := updFirst (fun o : RelayOp => o.num == num) (·.waitMore (node, tag)) t.relay }) (agTh h))
            tag (mgtArg m) } := by
  unfold sendCopies
  rw [hpick]
  rfl

/-- A copy of the last operation goes out under a free tag, and the operation waits for it. -/
theorem getTh_sendCopies {b : Block} {h : Hub} {l : List RelayOp} {op : RelayOp} (hrelay : (getTh b h).relay = l ++ [op])
    (hl : ∀ o ∈ l, o.num ≠ op.num) (hfree : freeTags 0 4095 (thTags (getTh b h)) ≠ []) (m : Hdr) (node : Nat) :
    ∃ tag ∈ freeTags 0 4095 (thTags (getTh b h)),
      getTh (sendCopies h m op.num node b) h = { getTh b h with relay := l ++ [op.waitMore (node, tag)] } := by
  obtain ⟨tag, htag, n, hpick⟩ := freePick_of_ne_nil b hfree
  have hget : getTh { b with freeIx := n } h = getTh b h := rfl
  refine ⟨tag, htag, ?_⟩
  rw [sendCopies_of_pick hpick, getTh_hubPut, getTh_updTh, hget, hrelay,
    updFirst_concat (fun o ho => beq_eq_false_iff_ne.mpr (hl o ho)) (beq_self_eq_true op.num)]

/-- The copies of the last operation go out in the order of their nodes, and the operation waits for each. -/
theorem getTh_forEach_sendCopies (h : Hub) (m : Hdr) (num : Nat) (nodes : List Nat) {b : Block} {l : List RelayOp} {op : RelayOp}
    (hrelay : (getTh b h).relay = l ++ [op]) (hnum : op.num = num) (hl : ∀ o ∈ l, o.num ≠ num)
    (hfree : nodes.length ≤ (freeTags 0 4095 (thTags (getTh b h))).length) :
    ∃ copies : List (Nat × Nat), copies.map (·.1) = nodes ∧
      getTh (forEach nodes (sendCopies h m num) b) h =
        { getTh b h with relay := l ++ [{ op with left := op.left ++ copies }] } := by
  subst hnum
  induction nodes generalizing b op with
  | nil =>
    refine ⟨[], rfl, ?_⟩
    rw [List.append_nil, forEach_nil, ← hrelay]
  | cons node nodes ih =>
    obtain ⟨tag, htag, hsent⟩ := getTh_sendCopies hrelay hl (List.ne_nil_of_length_pos (by simp at hfree; omega)) m node
    have htags : thTags (getTh (sendCopies h m op.num node b) h) = thTags (getTh b h) ++ [tag] := by
      rw [hsent, thTags_waitMore, ← hrelay]
    obtain ⟨copies, hnodes, hall⟩ := ih (b := sendCopies h m op.num node b) (op := op.waitMore (node, tag)) (by rw [hsent])
      (by rw [htags, length_freeTags_concat htag]; simp at hfree; omega) hl
    refine ⟨(node, tag) :: copies, by rw [List.map_cons, hnodes], ?_⟩
    rw [forEach_cons]
    refine hall.trans ?_
    rw [hsent]
    simp [RelayOp.waitMore]

@[simp] theorem getTh_raise (b : Block) (ag unit cls kind sev fl d0 d1 : Nat) (ao : Bool) (x : Hub) :
    getTh (raise b ag unit cls kind sev fl d0 d1 ao) x = getTh b x := rfl

@[simp] theorem getTh_relayAnswer (h : Hub) (m : Hdr) (status : Nat) (b : Block) (x : Hub) :
    getTh (relayAnswer h m status b) x = getTh b x := getTh_hubPut ..

/-- Counting the dies behind a target changes no Tollhouse. -/
@[simp] theorem getTh_relayCount (h : Hub) (m : Hdr) (p node : Nat) (b : Block) (x : Hub) :
    getTh (relayCount h m p node b) x = getTh b x := by
  unfold relayCount
  refine forEach_keeps (g := (getTh · x)) (fun _ b => ?_) _ b
  exact (getTh_relayAnswer ..).trans (getTh_raise ..)

/-- The end of an operation changes nothing of its Tollhouse but the list of operations. -/
theorem getTh_relayFinish (b : Block) (h : Hub) :
    getTh (relayFinish b h) h = { getTh b h with relay :=
      ((takeFirst (fun o : RelayOp => o.left.isEmpty) (getTh b h).relay).map (·.2)).getD (getTh b h).relay } := by
  unfold relayFinish
  split
  next hnone => rw [hnone]; rfl
  next o rest hsome => rw [hsome, getTh_relayAnswer, getTh_updTh]; rfl

@[simp] theorem nextRelay_relayFinish (b : Block) (h : Hub) : (getTh (relayFinish b h) h).nextRelay = (getTh b h).nextRelay := by
  rw [getTh_relayFinish]

/-- An operation that still waits stays. -/
theorem mem_relay_relayFinish {b : Block} {h : Hub} {o : RelayOp} (ho : o ∈ (getTh b h).relay) (hleft : o.left ≠ []) :
    o ∈ (getTh (relayFinish b h) h).relay := by
  rw [getTh_relayFinish]
  cases hfirst : takeFirst (fun o : RelayOp => o.left.isEmpty) (getTh b h).relay with
  | none => exact ho
  | some x => exact mem_of_takeFirst hfirst ho (by simpa using hleft)

/-- Where all operations but the first wait, the first ends if it waits for nobody. -/
theorem relay_relayFinish_cons {b : Block} {h : Hub} {o : RelayOp} {l : List RelayOp} (hrelay : (getTh b h).relay = o :: l)
    (hl : ∀ x ∈ l, x.left ≠ []) : (getTh (relayFinish b h) h).relay = if o.left = [] then l else o :: l := by
  have htake : takeFirst (fun o : RelayOp => o.left.isEmpty) (o :: l) = if o.left.isEmpty then some (o, l) else none :=
    takeFirst_cons_of_none (fun x hx => by simpa using hl x hx) o
  rw [getTh_relayFinish, hrelay, htake]
  by_cases hleft : o.left = [] <;> simp [hleft]

/-- The operation that a BcastInval begins at a relay; it waits for nobody yet. -/
def newRelayOp (b : Block) (h : Hub) (m : Hdr) : RelayOp :=
  { num := (getTh b h).nextRelay, hdr := m, part := binvPart b h m, left := [] }

/-- The block in which a relay has taken its front BcastInval and begun the operation. -/
def beginRelay (b : Block) (h : Hub) (m : Hdr) (rest : List Msg) : Block :=
  updTh (putBox b (boxTh h) vcMgt rest) h fun t =>
    { t with relay := t.relay ++ [newRelayOp b h m], nextRelay := (getTh b h).nextRelay + 1 }

/-- The nodes that a relay copies a BcastInval to and can reach. -/
def reachedTargets (b : Block) (h : Hub) (m : Hdr) : List Nat :=
  (relayTargets b h m (binvPart b h m)).filter fun n => reachable b h n

theorem getTh_beginRelay (b : Block) (h : Hub) (m : Hdr) (rest : List Msg) : getTh (beginRelay b h m rest) h =
    { getTh b h with relay := (getTh b h).relay ++ [newRelayOp b h m], nextRelay := (getTh b h).nextRelay + 1 } := by
  simp only [beginRelay, getTh_updTh, getTh_putBox]

/-- A new operation holds no tag yet. -/
@[simp] theorem thTags_beginRelay (b : Block) (h : Hub) (m : Hdr) (rest : List Msg) :
    thTags (getTh (beginRelay b h m rest) h) = thTags (getTh b h) := by
  simp [getTh_beginRelay, thTags, newRelayOp]

theorem takeBinv_of_idle {b : Block} {h : Hub} (hb : boxHeadIs b (boxTh h) vcMgt opBcastInval = false ∨
    256 ≤ (getTh b h).relay.length) : takeBinv b h = b := if_pos hb

/-- With room and tags for its copies, the front BcastInval begins an operation: the targets out of reach are counted, and the
others get their copies. -/
theorem takeBinv_of_front {b : Block} {h : Hub} {m : Msg} {rest : List Msg} (hb : getBox b (boxTh h) vcMgt = m :: rest)
    (hop : hOp m.hdr = opBcastInval) (hroom : (getTh b h).relay.length < 256)
    (htags : (relayTargets b h m.hdr (binvPart b h m.hdr)).length ≤ (freeTags 0 4095 (thTags (getTh b h))).length) :
    takeBinv b h = relayFinish (forEach (reachedTargets b h m.hdr) (sendCopies h m.hdr (getTh b h).nextRelay)
      (forEach ((relayTargets b h m.hdr (binvPart b h m.hdr)).filter fun n => !reachable b h n)
        (relayCount h m.hdr (binvPart b h m.hdr)) (beginRelay b h m.hdr rest))) h := by
  have hserve : ¬ (boxHeadIs b (boxTh h) vcMgt opBcastInval = false ∨ 256 ≤ (getTh b h).relay.length) := by
    simp [boxHeadIs_of_front hb hop, hroom]
  simp only [takeBinv, if_neg hserve, popBox_of_front hb, if_neg (Nat.not_lt.mpr htags)]
  rfl

/-- The operation that the front BcastInval begins waits for each target in reach. -/
theorem takeBinv_waits {b : Block} {h : Hub} {m : Msg} {rest : List Msg} (hb : getBox b (boxTh h) vcMgt = m :: rest)
    (hop : hOp m.hdr = opBcastInval) (hroom : (getTh b h).relay.length < 256)
    (htags : (relayTargets b h m.hdr (binvPart b h m.hdr)).length ≤ (freeTags 0 4095 (thTags (getTh b h))).length)
    (hnums : ∀ o ∈ (getTh b h).relay, o.num < (getTh b h).nextRelay) (hreached : reachedTargets b h m.hdr ≠ []) :
    (getTh (takeBinv b h) h).nextRelay = (getTh b h).nextRelay + 1 ∧ ∃ o ∈ (getTh (takeBinv b h) h).relay,
      o.num = (getTh b h).nextRelay ∧ o.hdr = m.hdr ∧ o.part = binvPart b h m.hdr ∧
        o.left.map (·.1) = reachedTargets b h m.hdr := by
  have hbegun : ∀ unreached, getTh (forEach unreached (relayCount h m.hdr (binvPart b h m.hdr)) (beginRelay b h m.hdr rest)) h =
      getTh (beginRelay b h m.hdr rest) h :=
    fun unreached => forEach_keeps (g := (getTh · h)) (fun _ _ => getTh_relayCount ..) unreached _
  rw [takeBinv_of_front hb hop hroom htags]
  generalize ((relayTargets b h m.hdr (binvPart b h m.hdr)).filter fun n => !reachable b h n) = unreached
  obtain ⟨copies, hnodes, hsent⟩ := getTh_forEach_sendCopies h m.hdr (getTh b h).nextRelay (reachedTargets b h m.hdr)
    (b := forEach unreached (relayCount h m.hdr (binvPart b h m.hdr)) (beginRelay b h m.hdr rest))
    (l := (getTh b h).relay) (op := newRelayOp b h m.hdr) (by rw [hbegun, getTh_beginRelay]) rfl
    (fun o ho => Nat.ne_of_lt (hnums o ho))
    (by rw [hbegun, thTags_beginRelay]; exact Nat.le_trans (List.length_filter_le ..) htags)
  refine ⟨by rw [nextRelay_relayFinish, hsent, hbegun, getTh_beginRelay],
    { newRelayOp b h m.hdr with left := copies }, mem_relay_relayFinish ?_ ?_, rfl, rfl, rfl, hnodes⟩
  · rw [hsent]
    exact List.mem_append_right _ (List.mem_singleton_self _)
  · rintro rfl
    exact hreached hnodes.symm

theorem relayTimeout_of_none {b : Block} {h : Hub} {num node : Nat}
    (ho : ((getTh b h).relay.find? fun o => o.num == num && o.left.any fun x => x.1 == node) = none) :
    relayTimeout b h num node = b := by
  simp only [relayTimeout, ho]

/-- The timeout of a node ends the wait of the first operation for it, and the operation where it waits for nobody else. -/
theorem relay_relayTimeout_cons {b : Block} {h : Hub} {num node : Nat} {o : RelayOp} {l : List RelayOp}
    (hrelay : (getTh b h).relay = o :: l) (hnum : o.num = num) (hwaits : (o.left.any fun x => x.1 == node) = true)
    (hl : ∀ x ∈ l, x.left ≠ []) :
    let left := o.left.filter fun y => y.1 != node
    (getTh (relayTimeout b h num node) h).relay = if left = [] then l else { o with left := left } :: l := by
  have hfind : ((getTh b h).relay.find? fun o => o.num == num && o.left.any fun x => x.1 == node) = some o := by
    simp only [hrelay, List.find?_cons, hnum, hwaits, beq_self_eq_true, Bool.and_self]
  intro left
  simp only [relayTimeout, hfind]
  refine relay_relayFinish_cons (o := { o with left := left }) ?_ hl
  rw [getTh_updTh, getTh_relayCount, hrelay]
  exact updFirst_cons_of_pos (p := fun x : RelayOp => x.num == num) (beq_iff_eq.mpr hnum) ..

/-! ## The copies at a die (R310) -/

/-- Counting an event of a hart changes the CSRs alone. -/
theorem hpm_eq (b : Block) (i code : Nat) (other : Bool) : ∃ t, hpm b i code other = { b with csrs := t } := by
  have hrun (xs : List Nat) (b : Block) : ∃ t, forEach xs
      (fun n b => wrCsr b i (0xB03 + n) (rdCsr b i (0xB03 + n) + 1)) b = { b with csrs := t } := by
    induction xs generalizing b with
    | nil => exact ⟨b.csrs, rfl⟩
    | cons x xs ih => exact ih _
  unfold hpm
  split
  · exact ⟨b.csrs, rfl⟩
  · exact hrun ..

/-- The steps of R310 on one hart change CSRs, the hart, and the requests of its die. -/
theorem actBinv_eq (c : Scope) (i : Nat) (b : Block) : ∃ (t : Tab Word) (reqs : DieSt → List Req) (f : HartSt → HartSt),
    actBinv c i b =
      updHart (updDie { invalidate b i c with csrs := t } (hartDie i) fun d => { d with reqs := reqs d }) i f := by
  obtain ⟨t, ht⟩ := hpm_eq (invalidate b i c) i 0x207 c.world
  unfold actBinv
  rw [ht]
  exact ⟨t, _, _, rfl⟩

@[simp] theorem actBinv_slices (c : Scope) (i : Nat) (b : Block) : (actBinv c i b).slices = b.slices := by
  obtain ⟨t, reqs, f, h⟩ := actBinv_eq c i b
  rw [h]
  rfl

@[simp] theorem actBinv_chans (c : Scope) (i : Nat) (b : Block) : (actBinv c i b).chans = b.chans := by
  obtain ⟨t, reqs, f, h⟩ := actBinv_eq c i b
  rw [h]
  rfl

@[simp] theorem actBinv_inbox (c : Scope) (i : Nat) (b : Block) : (actBinv c i b).inbox = b.inbox := by
  obtain ⟨t, reqs, f, h⟩ := actBinv_eq c i b
  rw [h]
  rfl

/-- The steps of R310 on a hart leave the copies of every die. -/
@[simp] theorem copies_actBinv (c : Scope) (i : Nat) (b : Block) (k : Nat) :
    (getDie (actBinv c i b) k).copies = (getDie b k).copies := by
  obtain ⟨t, reqs, f, h⟩ := actBinv_eq c i b
  have hdies : (actBinv c i b).dies = b.dies.upd {} (hartDie i) fun d => { d with reqs := reqs d } := by rw [h]; rfl
  rw [getDie, hdies, Tab.get_upd]
  split
  next hk => rw [hk]; rfl
  next => rfl

theorem takeCopy_of_other {b : Block} {k : Nat} (hb : boxHeadIs b (boxDie k) vcMgt opBcastInval = false) : takeCopy b k = b :=
  if_pos hb

/-- The front BcastInval of a die acts on its harts, and a copy waits for each of them. -/
theorem takeCopy_of_front {b : Block} {k : Nat} {m : Msg} {rest : List Msg} (hb : getBox b (boxDie k) vcMgt = m :: rest)
    (hop : hOp m.hdr = opBcastInval) : takeCopy b k =
      updDie (forEach ((List.range 20).map (k * 20 + ·)) (actBinv (binvScope m.hdr)) (putBox b (boxDie k) vcMgt rest)) k
        fun d => { d with copies := d.copies ++ [{ hdr := m.hdr, left := (List.range 20).map (k * 20 + ·) }] } := by
  simp only [takeCopy, boxHeadIs_of_front hb hop, popBox_of_front hb, Bool.true_eq_false, if_false]

theorem ackCopy_of_busy {b : Block} {i : Nat} (h : accessesDone b i = false) : ackCopy b i = b := if_pos h

/-- The first copy that waits for no hart leaves its die, and its sender gets a Comp. -/
def endCopy (b : Block) (k : Nat) : Block :=
  match takeFirst (fun c : BinvCopy => c.left.isEmpty) (getDie b k).copies with
  | none => b
  | some (c, rest) => dieSend (updDie b k fun d => { d with copies := rest }) (dieOf k)
      { hdr := mkComp (hWorld c.hdr) (hSrc c.hdr) (myNode b k) (hTag c.hdr) stI stsOk 0 }

/-- The oldest copy that waits for a hart waits for it no more. -/
def ackOldest (i : Nat) : List BinvCopy → List BinvCopy :=
  updFirst (fun c => c.left.contains i) fun c => { c with left := c.left.filter (· != i) }

theorem ackOldest_cons {i : Nat} {c : BinvCopy} (h : c.left.contains i = true) (l : List BinvCopy) :
    ackOldest i (c :: l) = { c with left := c.left.filter (· != i) } :: l := if_pos h

/-- A hart whose accesses are performed acknowledges its oldest copy. -/
theorem ackCopy_of_done {b : Block} {i : Nat} (h : accessesDone b i = true) :
    ackCopy b i = endCopy (updDie b (hartDie i) fun d => { d with copies := ackOldest i d.copies }) (hartDie i) := by
  unfold ackCopy
  rw [if_neg (by simp [h])]
  rfl

@[simp] theorem endCopy_harts (b : Block) (k : Nat) : (endCopy b k).harts = b.harts := by
  unfold endCopy
  split
  · rfl
  · rw [dieSend_harts, updDie_harts]

@[simp] theorem endCopy_regs (b : Block) (k : Nat) : (endCopy b k).regs = b.regs := by
  unfold endCopy
  split
  · rfl
  · rw [dieSend_regs, updDie_regs]

/-- Where all copies but the first wait, the first ends if it waits for no hart. -/
theorem copies_endCopy_cons {b : Block} {k : Nat} {c : BinvCopy} {l : List BinvCopy} (hcopies : (getDie b k).copies = c :: l)
    (hl : ∀ x ∈ l, x.left ≠ []) : (getDie (endCopy b k) k).copies = if c.left = [] then l else c :: l := by
  have htake : takeFirst (fun c : BinvCopy => c.left.isEmpty) (c :: l) = if c.left.isEmpty then some (c, l) else none :=
    takeFirst_cons_of_none (fun x hx => by simpa using hl x hx) c
  unfold endCopy
  rw [hcopies, htake]
  by_cases hleft : c.left = []
  · simp [hleft]
  · simp [hleft, hcopies]

/-! ## MgtMsg (R141) -/

theorem takeMgt_of_other {b : Block} {h : Hub} (hb : boxHeadIs b (boxTh h) vcMgt opMgtMsg = false) : takeMgt b h = b := if_pos hb

theorem takeMgt_of_front {b : Block} {h : Hub} {m : Msg} {rest : List Msg} (hb : getBox b (boxTh h) vcMgt = m :: rest)
    (hop : hOp m.hdr = opMgtMsg) :
    takeMgt b h = updTh (putBox b (boxTh h) vcMgt rest) h fun t => { t with mail := t.mail ++ [m] } := by
  simp only [takeMgt, boxHeadIs_of_front hb hop, popBox_of_front hb, Bool.true_eq_false, if_false]

end Sys2Proof.Machine

namespace Sys2Proof.Safety

open Sys2Proof.Machine

/-- BCAST_INVAL_COPY of the front BcastInval adds a copy that waits for the 20 harts of the die (R310). -/
theorem bcastInvalCopy_waits {k : Die} {m : Msg} {rest : List Msg} {s : State}
    (hb : getBox s.blk (boxDie k.val) vcMgt = m :: rest) (hop : hOp m.hdr = opBcastInval) :
    Gives (.bcastInvalCopy k) s fun b =>
      (getDie b k.val).copies = (getDie s.blk k.val).copies ++
        [{ hdr := m.hdr, left := (List.range 20).map (k.val * 20 + ·) }] ∧ getBox b (boxDie k.val) vcMgt = rest ∧
      b.slices = s.blk.slices ∧ b.chans = s.blk.chans := by
  refine gives_of ((exec_bcastInvalCopy ..).trans (congrArg (nextBlk s) (takeCopy_of_front hb hop))) ⟨?_, ?_, ?_, ?_⟩
  · rw [getDie_updDie, forEach_keeps (g := fun b => (getDie b k.val).copies) fun _ _ => copies_actBinv ..]
    rfl
  · rw [getBox_updDie, getBox, forEach_keeps (g := Block.inbox) fun _ _ => actBinv_inbox ..]
    exact getBox_putBox ..
  · exact forEach_keeps (g := Block.slices) (fun _ _ => actBinv_slices ..) _ _
  · exact forEach_keeps (g := Block.chans) (fun _ _ => actBinv_chans ..) _ _

/-- HART_INVAL_ACK of a hart that the die's oldest copy waits for: the copy waits for the others, or ends (R310). -/
theorem hartInvalAck_oldest {i : Hart} {c : BinvCopy} {l : List BinvCopy} {s : State}
    (hdone : accessesDone s.blk i.val = true) (hcopies : (getDie s.blk (hartDie i.val)).copies = c :: l)
    (hwaits : c.left.contains i.val = true) (hl : ∀ x ∈ l, x.left ≠ []) :
    let left := c.left.filter (· != i.val)
    Gives (.hartInvalAck i) s fun b =>
      (getDie b (hartDie i.val)).copies = (if left = [] then l else { c with left := left } :: l) ∧
        b.harts = s.blk.harts ∧ b.regs = s.blk.regs := by
  refine gives_of ((exec_hartInvalAck ..).trans (congrArg (nextBlk s) (ackCopy_of_done hdone))) ⟨?_, ?_, ?_⟩
  · refine copies_endCopy_cons (c := { c with left := c.left.filter (· != i.val) }) ?_ hl
    rw [getDie_updDie, hcopies, ackOldest_cons hwaits]
  · exact endCopy_harts ..
  · exact endCopy_regs ..

/-- Settles O36: each command comes to the one function of the relay, of the die or of the firmware that serves it, whose laws
give the clause: `takeMgt_of_front`, `takeBinv_waits`, `takeCopy_of_front`, `copies_endCopy_cons` and `relay_relayTimeout_cons`. -/
theorem invalidationsAreRelayed : Obligations.InvalidationsAreRelayed := by
  intro h m rest s
  refine ⟨?noMail, ?mail, ?idle, ?relay, fun k => ⟨?noCopy, fun ⟨hb, hop⟩ => bcastInvalCopy_waits hb hop⟩,
    fun i => ⟨?busy, fun c l => hartInvalAck_oldest⟩, fun num n => ⟨?noWait, ?timeout⟩⟩
  case noMail => exact fun hb => noEffect_of (exec_mgtMsg ..) (takeMgt_of_other hb)
  case mail =>
    rintro ⟨hb, hop⟩
    refine gives_of ((exec_mgtMsg ..).trans (congrArg (nextBlk s) (takeMgt_of_front hb hop))) ?_
    simp
  case idle => exact fun hb => noEffect_of (exec_bcastInval ..) (takeBinv_of_idle hb)
  case relay =>
    rintro ⟨hb, hop⟩ hroom htags hnums hreached
    exact gives_of (exec_bcastInval ..) (takeBinv_waits hb hop hroom htags hnums hreached)
  case noCopy => exact fun hb => noEffect_of (exec_bcastInvalCopy ..) (takeCopy_of_other hb)
  case busy => exact fun hd => noEffect_of (exec_hartInvalAck ..) (ackCopy_of_busy hd)
  case noWait => exact fun ho => noEffect_of (exec_relayTimeout ..) (relayTimeout_of_none ho)
  case timeout =>
    exact fun o l hrelay hnum hwaits hl => gives_of (exec_relayTimeout ..) (relay_relayTimeout_cons hrelay hnum hwaits hl)

end Sys2Proof.Safety
end

section
/-! PROOFS. Requests at a home slice (R128, R192, R197, R198, R316, R405), and what the protection of the system cache finds when
an RdShared is served (R293). First what the operations of a slice leave unchanged, then one law for each way that a request
can go: it waits, it is refused, or it joins the queue of its line. -/

namespace Sys2Proof.Machine

/-! ## What the operations on the way leave unchanged -/

/-- Sending a message changes no slice. -/
@[simp] theorem hubPut_slices (b : Block) (h : Hub) (m : Msg) : (hubPut b h m).slices = b.slices := by
  obtain hp | ⟨k, hp⟩ | ⟨e, hp⟩ | hp := hubPut_cases b h m <;> rw [hp]
  · exact pushBox_slices ..
  · exact queueTx_slices ..
  · exact fset_slices ..

@[simp] theorem hubPut_chans (b : Block) (h : Hub) (m : Msg) : (hubPut b h m).chans = b.chans := by
  obtain hp | ⟨k, hp⟩ | ⟨e, hp⟩ | hp := hubPut_cases b h m <;> rw [hp]
  · exact pushBox_chans ..
  · exact queueTx_chans ..
  · exact fset_chans ..

theorem getSlice_congr {a b : Block} (h : a.slices = b.slices) (x : Hub) (k : Nat) : getSlice a x k = getSlice b x k := by
  simp only [getSlice, h]

/-- A message to a requester is sent, or dropped where the requester is lost. -/
theorem toRequester_cases (b : Block) (h : Hub) (t : Tracker) (m : Msg) :
    toRequester b h t m = b ∨ toRequester b h t m = hubPut b h m := by
  unfold toRequester
  split
  · exact .inl rfl
  · exact .inr rfl

@[simp] theorem toRequester_slices (b : Block) (h : Hub) (t : Tracker) (m : Msg) : (toRequester b h t m).slices = b.slices := by
  obtain hs | hs := toRequester_cases b h t m <;> rw [hs]
  exact hubPut_slices ..

@[simp] theorem toRequester_chans (b : Block) (h : Hub) (t : Tracker) (m : Msg) : (toRequester b h t m).chans = b.chans := by
  obtain hs | hs := toRequester_cases b h t m <;> rw [hs]
  exact hubPut_chans ..

@[simp] theorem bumpW_slices (h : Hub) (world : Bool) (b : Block) (off : Nat) : (bumpW h world b off).slices = b.slices := by
  unfold bumpW
  split <;> rfl

@[simp] theorem bumpW_chans (h : Hub) (world : Bool) (b : Block) (off : Nat) : (bumpW h world b off).chans = b.chans := by
  unfold bumpW
  split <;> rfl

@[simp] theorem getSlice_putBox (b : Block) (k vc : Nat) (l : List Msg) (h : Hub) (s : Nat) :
    getSlice (putBox b k vc l) h s = getSlice b h s := rfl

/-! ## The queue of a line (R197, R198) -/

/-- A slice with one tracker more at its tail, under the number that is next. -/
def Slice.push (sl : Slice) (t : Tracker) : Slice := { sl with trackers := sl.trackers ++ [t], nextId := sl.nextId + 1 }

/-- A tracker with its number, its wait for a way and its grant. -/
def Tracker.queued (t : Tracker) (id : Nat) (needWay granted : Bool) : Tracker :=
  { t with id := id, needWay := needWay, granted := granted }

/-- The slice has a tracker at its tail that is `t` but for its number, its wait for a way and its grant, and has changed in
nothing else; nor has a channel. -/
def Joined (a b : Block) (h : Hub) (s : Nat) (t : Tracker) : Prop :=
  b.chans = a.chans ∧ ∃ needWay granted,
    getSlice b h s = (getSlice a h s).push (t.queued (getSlice a h s).nextId needWay granted)

/-- A WbGrant for the last tracker of a slice notes that it has gone. -/
theorem joined_sendWbGrant {a b : Block} {h : Hub} {s : Nat} {t u : Tracker} {w : Bool}
    (hids : ∀ x ∈ (getSlice a h s).trackers, x.id < (getSlice a h s).nextId) (hchans : b.chans = a.chans)
    (hslice : getSlice b h s = (getSlice a h s).push (t.queued (getSlice a h s).nextId w t.granted))
    (hu : u.id = (getSlice a h s).nextId) : Joined a (sendWbGrant b h s u) h s t := by
  refine ⟨(toRequester_chans ..).trans hchans, w, true, ?_⟩
  rw [sendWbGrant, getSlice_congr (toRequester_slices ..), updTr, getSlice_updSlice, hslice, hu]
  have hlast := updFirst_concat (p := fun x : Tracker => x.id == (getSlice a h s).nextId)
    (x := t.queued (getSlice a h s).nextId w t.granted)
    (fun x hx => beq_eq_false_iff_ne.mpr (Nat.ne_of_lt (hids x hx))) (beq_self_eq_true _) fun t => { t with granted := true }
  simp only [Slice.push, hlast]
  rfl

/-- The WbGrant of a tracker that gets it before its request is active (R184, R464). -/
def grantEarly (b : Block) (h : Hub) (s id : Nat) : Block :=
  match getTr b h s id with
  | some t => if grantsEarly t && t.wb != .refused then sendWbGrant b h s t else b
  | none => b

theorem joined_grantEarly {a b : Block} {h : Hub} {s : Nat} {t : Tracker} {w : Bool}
    (hids : ∀ x ∈ (getSlice a h s).trackers, x.id < (getSlice a h s).nextId) (hchans : b.chans = a.chans)
    (hslice : getSlice b h s = (getSlice a h s).push (t.queued (getSlice a h s).nextId w t.granted)) :
    Joined a (grantEarly b h s (getSlice a h s).nextId) h s t := by
  have hsame : Joined a b h s t := ⟨hchans, w, t.granted, hslice⟩
  unfold grantEarly
  split
  next u hu =>
    split
    · exact joined_sendWbGrant hids hchans hslice (by simpa using List.find?_some hu)
    · exact hsame
  next => exact hsame

/-- The count of a request that finds others of its line at the slice (R197, R198). -/
def countQueued (b : Block) (h : Hub) (s : Nat) (t : Tracker) : Block :=
  let same := (getSlice b h s).trackers.filter fun x => x.line == t.line
  if same.isEmpty then b else
    bumpW h (hWorld t.hdr) b (CNT_JCT h s (if same.any fun x => x.kind == .backInv then 1 else 0))

/-- Does a request wait for a way, because a back-invalidation of its line is under way and no request is before it (R198)? -/
def queuedNeedsWay (b : Block) (h : Hub) (s : Nat) (t : Tracker) : Bool :=
  let same := (getSlice b h s).trackers.filter fun x => x.line == t.line
  (same.any fun x => x.kind == .backInv) && same.all fun x => x.kind == .backInv

@[simp] theorem countQueued_chans (b : Block) (h : Hub) (s : Nat) (t : Tracker) : (countQueued b h s t).chans = b.chans := by
  unfold countQueued
  dsimp only
  split
  · rfl
  · exact bumpW_chans ..

@[simp] theorem getSlice_countQueued (b : Block) (h : Hub) (s : Nat) (t : Tracker) :
    getSlice (countQueued b h s t) h s = getSlice b h s := by
  unfold countQueued
  dsimp only
  split
  · rfl
  · exact getSlice_congr (bumpW_slices ..) ..

/-- The block in which a request has joined the queue of its line, and got its early grant. -/
def joinQueue (b : Block) (h : Hub) (s : Nat) (t : Tracker) : Block :=
  let (id, b') := addTr (countQueued b h s t) h s false fun n => { t with id := n, needWay := queuedNeedsWay b h s t }
  grantEarly b' h s id

theorem queueReq_eq (b : Block) (h : Hub) (s : Nat) (t : Tracker) : queueReq b h s t = settle (joinQueue b h s t) h s := rfl

/-- A queued request is at the tail of its slice's trackers. -/
theorem joined_joinQueue {b : Block} {h : Hub} {s : Nat}
    (hids : ∀ x ∈ (getSlice b h s).trackers, x.id < (getSlice b h s).nextId) (t : Tracker) :
    Joined b (joinQueue b h s t) h s t := by
  simp only [joinQueue, addTr, getSlice_countQueued]
  refine joined_grantEarly (w := queuedNeedsWay b h s t) hids (countQueued_chans ..) ?_
  rw [getSlice_updSlice, getSlice_countQueued]
  rfl

/-! ## A request at its slice (R128, R192, R316, R405) -/

/-- Address of a request of a kind. -/
def requestPa (kind : TKind) (m : Hdr) : Nat := if kind = .io then pioPa m else hLine m * 64

/-- The tracker that a request takes, before it has a number. -/
def requestTracker (b : Block) (h : Hub) (m : Msg) (kind : TKind) : Tracker :=
  { id := 0, kind := kind, line := requestPa kind m.hdr / 64, hdr := m.hdr, part := msgPart b h m.hdr (requestPa kind m.hdr)
    via := m.via, wr := if kind = .io ∧ hOp m.hdr = opIoWr then
      some (m.data, beOf (pioPa m.hdr % 64) (pioLen m.hdr + 1), pioPoison m.hdr) else none }

/-- Is a request refused at its slice by a world region or a lent range? -/
def requestDenied (b : Block) (h : Hub) (kind : TKind) (m : Hdr) : Bool :=
  homeDenies b h (msgPart b h m (requestPa kind m)) (requestPa kind m) m

theorem arriveReq_of_admitted {b : Block} {h : Hub} {m : Msg} {kind : TKind} (hd : requestDenied b h kind m.hdr = false)
    (s : Nat) : arriveReq b h s m kind = queueReq b h s (requestTracker b h m kind) :=
  if_neg (ne_true_of_eq_false hd)

/-- A refused WrBack takes a tracker all the same, which answers it in its turn (R192). -/
theorem arriveReq_of_denied_wrBack {b : Block} {h : Hub} {m : Msg} {kind : TKind} (hd : requestDenied b h kind m.hdr = true)
    (hwb : kind = .req ∧ hOp m.hdr = opWrBack) (s : Nat) :
    arriveReq b h s m kind = queueReq (countDenied b h (agHome h) s (requestPa kind m.hdr) m.hdr) h s
      { requestTracker b h m kind with wb := .refused } :=
  (if_pos hd).trans (if_pos hwb)

theorem arriveReq_of_denied {b : Block} {h : Hub} {m : Msg} {kind : TKind} (hd : requestDenied b h kind m.hdr = true)
    (hwb : ¬ (kind = .req ∧ hOp m.hdr = opWrBack)) (s : Nat) :
    arriveReq b h s m kind = homeRefuse (countDenied b h (agHome h) s (requestPa kind m.hdr) m.hdr) h m.hdr :=
  (if_pos hd).trans (if_neg hwb)

theorem raise_slices (b : Block) (ag unit cls kind sev fl d0 d1 : Nat) (ao : Bool) :
    (raise b ag unit cls kind sev fl d0 d1 ao).slices = b.slices := rfl

theorem raise_inbox (b : Block) (ag unit cls kind sev fl d0 d1 : Nat) (ao : Bool) :
    (raise b ag unit cls kind sev fl d0 d1 ao).inbox = b.inbox := rfl

theorem raise_chans (b : Block) (ag unit cls kind sev fl d0 d1 : Nat) (ao : Bool) :
    (raise b ag unit cls kind sev fl d0 d1 ao).chans = b.chans := rfl

@[simp] theorem getSlice_countDenied (b : Block) (h x : Hub) (ag unit pa : Nat) (m : Hdr) (s : Nat) :
    getSlice (countDenied b x ag unit pa m) h s = getSlice b h s :=
  getSlice_congr ((raise_slices ..).trans (fset_slices ..)) ..

@[simp] theorem countDenied_chans (b : Block) (h : Hub) (ag unit pa : Nat) (m : Hdr) :
    (countDenied b h ag unit pa m).chans = b.chans := (raise_chans ..).trans (fset_chans ..)

/-- Does a slice take no request, for want of a tracker or because the slices have accepted in a power attempt? -/
def sliceFull (b : Block) (h : Hub) (s : Nat) : Prop :=
  maxTrackers ≤ (getSlice b h s).trackers.length ∨ hasAccepted b (512 + h.idx) = true

section
variable {b : Block} {h : Hub} {s vc op : Nat} {kind : TKind} {m : Msg} {rest : List Msg}

theorem serveReq_of_full (hf : sliceFull b h s) : serveReq b h s vc op kind = b := if_pos hf

theorem serveReq_of_slice (hf : ¬ sliceFull b h s) (hb : getBox b (boxSlice h s) vc = m :: rest) (hop : hOp m.hdr = op) :
    serveReq b h s vc op kind = arriveReq (putBox b (boxSlice h s) vc rest) h s m kind := by
  refine (if_neg hf).trans ((if_pos (boxHeadIs_of_front hb hop)).trans ?_)
  rw [popBox_of_front hb]

theorem serveReq_of_home (hf : ¬ sliceFull b h s) (hs : boxHeadIs b (boxSlice h s) vc op = false)
    (hb : getBox b (boxHome h) vc = m :: rest) (hop : hOp m.hdr = op) :
    serveReq b h s vc op kind = homeRefuse (reportPio (putBox b (boxHome h) vc rest) h m.hdr) h m.hdr := by
  refine (if_neg hf).trans ((if_neg (ne_true_of_eq_false hs)).trans ((if_pos (boxHeadIs_of_front hb hop)).trans ?_))
  rw [popBox_of_front hb]

theorem serveReq_of_other (hf : ¬ sliceFull b h s) (hs : boxHeadIs b (boxSlice h s) vc op = false)
    (hb : boxHeadIs b (boxHome h) vc op = false) : serveReq b h s vc op kind = b :=
  (if_neg hf).trans ((if_neg (ne_true_of_eq_false hs)).trans (if_neg (ne_true_of_eq_false hb)))

end

/-! ## What the protection of the system cache finds (R293) -/

theorem readCheck_clean (b : Block) (h : Hub) (s : Nat) : readCheck b h s .clean = b := by
  unfold readCheck
  split
  · rfl
  · split
    · split <;> rfl
    · rfl

theorem readCheck_of_front {b : Block} {h : Hub} {s : Nat} {m : Msg} {rest : List Msg} (hf : ¬ sliceFull b h s)
    (hb : getBox b (boxSlice h s) vcReq = m :: rest) (hop : hOp m.hdr = opRdShared) (err : ArrayErr) :
    readCheck b h s err = scCheck b h s (hLine m.hdr) (hWorld m.hdr) err := by
  refine (if_neg hf).trans ?_
  rw [hb]
  exact if_pos hop

/-- A way of a slice is taken out of use, with what it held. -/
def Slice.loseWay (sl : Slice) (key : Nat) : Slice := { sl with sc := sl.sc.set {} key {}, dead := sl.dead ++ [key] }

@[simp] theorem Slice.loseWay_trackers (sl : Slice) (key : Nat) : (sl.loseWay key).trackers = sl.trackers := by
  simp only [Slice.loseWay]

@[simp] theorem Slice.loseWay_filter (sl : Slice) (key : Nat) : (sl.loseWay key).filter = sl.filter := by
  simp only [Slice.loseWay]

@[simp] theorem Slice.loseWay_dead (sl : Slice) (key : Nat) : (sl.loseWay key).dead = sl.dead ++ [key] := by
  simp only [Slice.loseWay]

@[simp] theorem Slice.loseWay_way (sl : Slice) (key : Nat) : (sl.loseWay key).sc.get {} key = {} := by
  simp only [Slice.loseWay, Tab.get_set_same]

/-- A word of a way is marked poisoned. -/
def Slice.markWord (sl : Slice) (key : Nat) (w : Fin 8) : Slice :=
  { sl with sc := sl.sc.upd {} key fun l => { l with poison := poisonWord l.poison w } }

/-- An error in a data word of a line that the system cache holds marks the word. -/
theorem scCheck_word {b : Block} {h : Hub} {s line k : Nat} (hk : scFind (getSlice b h s) line = some k) (world : Bool)
    (w : Fin 8) : scCheck b h s line world (.word w) =
      raiseArray (updSlice b h s fun sl => sl.markWord k w) (agHome h) s sevDefer world := by
  simp only [scCheck, hk]
  rfl

/-- Is a way left as it is although its tag is in error, because a flow has reserved it, or has the line that it holds, or
because it is out of use already? -/
def Slice.keepsWay (sl : Slice) (key : Nat) : Bool :=
  (sl.sc.get {} key).reserved || sl.dead.contains key ||
    ((sl.sc.get {} key).valid && sl.trackers.any fun t => t.line == (sl.sc.get {} key).line)

theorem keepsWay_of_free {sl : Slice} {key : Nat} (hres : (sl.sc.get {} key).reserved = false)
    (hdead : sl.dead.contains key = false)
    (hline : (sl.sc.get {} key).valid = true → ∀ t ∈ sl.trackers, t.line ≠ (sl.sc.get {} key).line) :
    sl.keepsWay key = false := by
  simp only [Slice.keepsWay, hres, hdead, Bool.false_or, Bool.and_eq_false_imp, List.any_eq_false, beq_iff_eq]
  exact hline

/-- An error in the tag of a way takes it out of use, unless the way must stay. -/
theorem scCheck_tag (b : Block) (h : Hub) (s line : Nat) (world : Bool) (way : Fin 16) :
    scCheck b h s line world (.tag way) =
      let key := (scWays (line * 64)).getD way.val 0
      if (getSlice b h s).keepsWay key then b
      else setTagUe (updSlice b h s fun sl => sl.loseWay key) h s line world := by
  simp only [scCheck]
  rfl

theorem raiseArray_inbox (b : Block) (ag unit sev : Nat) (world : Bool) : (raiseArray b ag unit sev world).inbox = b.inbox := rfl

theorem raiseArray_slices (b : Block) (ag unit sev : Nat) (world : Bool) : (raiseArray b ag unit sev world).slices = b.slices :=
  rfl

@[simp] theorem putStatus_inbox (b : Block) (off bit : Nat) (v : Bool) (n : Nat) :
    (putStatus b off bit v n).inbox = b.inbox := rfl

@[simp] theorem putStatus_slices (b : Block) (off bit : Nat) (v : Bool) (n : Nat) :
    (putStatus b off bit v n).slices = b.slices := rfl

theorem setTagUe_inbox (b : Block) (h : Hub) (s line : Nat) (world : Bool) : (setTagUe b h s line world).inbox = b.inbox := by
  unfold setTagUe
  exact (raise_inbox ..).trans (putStatus_inbox ..)

theorem setTagUe_slices (b : Block) (h : Hub) (s line : Nat) (world : Bool) : (setTagUe b h s line world).slices = b.slices := by
  unfold setTagUe
  exact (raise_slices ..).trans (putStatus_slices ..)

/-- SC_TAG_UE is set. -/
theorem setTagUe_sets (b : Block) (h : Hub) (s line : Nat) (world : Bool) :
    bitOf (rd (setTagUe b h s line world) (HUB_ERR_STATUS h)) 2 = true := by
  unfold setTagUe
  rw [rd_raise, bitOf_rd_putStatus _ _ _ _ _ _ (by decide), if_pos rfl]

/-- What the protection finds changes no inbox, and of the slice only its ways. -/
theorem scCheck_keeps (b : Block) (h : Hub) (s line : Nat) (world : Bool) (err : ArrayErr) :
    (scCheck b h s line world err).inbox = b.inbox ∧
      (getSlice (scCheck b h s line world err) h s).trackers = (getSlice b h s).trackers ∧
      (getSlice (scCheck b h s line world err) h s).filter = (getSlice b h s).filter := by
  cases err with
  | clean => exact ⟨rfl, rfl, rfl⟩
  | single =>
    have hcheck : scCheck b h s line world .single =
        if (scFind (getSlice b h s) line).isSome then raiseArray b (agHome h) s sevCorr world else b := by
      cases hk : scFind (getSlice b h s) line <;> simp only [scCheck, hk] <;> rfl
    rw [hcheck]
    split <;> exact ⟨rfl, rfl, rfl⟩
  | word w =>
    cases hk : scFind (getSlice b h s) line with
    | none => simp only [scCheck, hk, and_self]
    | some k =>
      rw [scCheck_word hk, getSlice_congr (raiseArray_slices ..), getSlice_updSlice, raiseArray_inbox, updSlice_inbox]
      exact ⟨rfl, rfl, rfl⟩
  | tag way =>
    rw [scCheck_tag]
    dsimp only
    split
    · exact ⟨rfl, rfl, rfl⟩
    · rw [setTagUe_inbox, getSlice_congr (setTagUe_slices ..), getSlice_updSlice]
      exact ⟨updSlice_inbox .., Slice.loseWay_trackers .., Slice.loseWay_filter ..⟩

end Sys2Proof.Machine

namespace Sys2Proof.Safety

open Sys2Proof.Machine

/-- A command that queues a request comes to a block in which the slice has the request's tracker at its tail and settles. -/
theorem gives_joined {c : Instr} {s : State} {b : Block} {h : Hub} {i : Nat} {t : Tracker} {refused : Bool}
    (hexec : exec c s = nextBlk s (queueReq b h i t)) (hslice : getSlice b h i = getSlice s.blk h i)
    (hchans : b.chans = s.blk.chans) (hids : ∀ x ∈ (getSlice s.blk h i).trackers, x.id < (getSlice s.blk h i).nextId)
    (hidle : t.active = false) (hrefused : t.wb = .refused ↔ refused = true) :
    let slice := getSlice s.blk h i
    Gives c s fun b => ∃ b0 u, b = settle b0 h i ∧
      (getSlice b0 h i).trackers = slice.trackers ++ [u] ∧ (getSlice b0 h i).nextId = slice.nextId + 1 ∧
      u.id = slice.nextId ∧ u.hdr = t.hdr ∧ u.kind = t.kind ∧ u.line = t.line ∧ u.active = false ∧
      (u.wb = .refused ↔ refused = true) ∧ (getSlice b0 h i).filter = slice.filter ∧ (getSlice b0 h i).sc = slice.sc ∧
      b0.chans = s.blk.chans := by
  obtain ⟨hkept, needWay, granted, hjoined⟩ := joined_joinQueue (hslice ▸ hids) t
  rw [hslice] at hjoined
  refine gives_of (hexec.trans (congrArg (nextBlk s) (queueReq_eq ..)))
    ⟨joinQueue b h i t, t.queued (getSlice s.blk h i).nextId needWay granted, rfl, ?_⟩
  rw [hjoined]
  exact ⟨rfl, rfl, rfl, rfl, rfl, rfl, hidle, hrefused, rfl, rfl, hkept.trans hchans⟩

/-- The commands that bring a request of each opcode to a slice serve the front one of the slice. -/
theorem exec_homeRequest (h : Hub) (sl : Fin 32) (s : State) :
    ∀ p ∈ [(Instr.rdShared h sl .clean, opRdShared), (.rdUnique h sl, opRdUnique), (.rdOnce h sl, opRdOnce),
      (.cleanUnique h sl, opCleanUnique), (.wrUnique h sl, opWrUnique), (.wrBack h sl, opWrBack), (.cmoClean h sl, opCmoClean),
      (.cmoInval h sl, opCmoInval), (.cmoCleanInval h sl, opCmoCleanInval), (.atomAdd h sl, opAtomAdd),
      (.atomSwap h sl, opAtomSwap), (.atomCas h sl, opAtomCas), (.atomMinMax h sl, opAtomMinMax)],
      exec p.1 s = nextBlk s (serveReq s.blk h sl.val vcReq p.2 .req) := by
  have hshared : exec (.rdShared h sl .clean) s = nextBlk s (serveReq s.blk h sl.val vcReq opRdShared .req) := by
    rw [exec_rdShared, execRdShared, readCheck_clean]
  simp only [List.forall_mem_cons]
  exact ⟨hshared, rfl, rfl, rfl, rfl, rfl, rfl, rfl, rfl, rfl, rfl, rfl, rfl, List.forall_mem_nil _⟩

/-- The same of the I/O messages. -/
theorem exec_homeIo (h : Hub) (sl : Fin 32) (s : State) :
    ∀ p ∈ [(Instr.ioRd (.slice h sl), opIoRd), (.ioWr (.slice h sl), opIoWr)],
      exec p.1 s = nextBlk s (serveReq s.blk h sl.val vcPio p.2 .io) := by
  simp only [List.forall_mem_cons]
  exact ⟨rfl, rfl, List.forall_mem_nil _⟩

/-- Settles O40: a request goes one of the ways of `serveReq` and `arriveReq`, and one that is not refused joins its queue
(`gives_joined`); the check of an RdShared's set acts on the ways alone (`scCheck_keeps`, `scCheck_word`, `scCheck_tag`). -/
theorem homeRequestsJoinTheirLine : Obligations.HomeRequestsJoinTheirLine := by
  intro h sl m rest s i slice reqs ios full serves
  have hserves (c : Instr) (vc op : Nat) (kind : TKind) (hexec : exec c s = nextBlk s (serveReq s.blk h i vc op kind)) :
      serves c vc op kind (requestPa kind m.hdr) := by
    dsimp only [serves]
    refine ⟨fun hf => noEffect_of hexec (serveReq_of_full hf), fun hf hs hb => noEffect_of hexec (serveReq_of_other hf hs hb),
      fun hf hb hop hids => ?arrives, fun hf hs hb hop => gives_of hexec (serveReq_of_home hf hs hb hop)⟩
    have harrive := hexec.trans (congrArg (nextBlk s) (serveReq_of_slice hf hb hop))
    refine ⟨fun hd => ?admitted, fun hd hwb => ?refusedWb, fun hd hwb => ?refused⟩
    case admitted =>
      exact gives_joined (harrive.trans (congrArg (nextBlk s) (arriveReq_of_admitted hd i))) (getSlice_putBox ..)
        (putBox_chans ..) hids rfl (by simp [requestTracker])
    case refusedWb =>
      exact gives_joined (harrive.trans (congrArg (nextBlk s) (arriveReq_of_denied_wrBack hd hwb i)))
        (getSlice_countDenied ..) (countDenied_chans ..) hids rfl (by simp)
    case refused => exact gives_of harrive (arriveReq_of_denied hd hwb i)
  refine ⟨fun p hp => hserves _ _ _ .req (exec_homeRequest h sl s p hp),
    fun p hp => hserves _ _ _ .io (exec_homeIo h sl s p hp), fun err hf hb hop => ?check⟩
  case check =>
    obtain ⟨hinbox, htrackers, hfilter⟩ := scCheck_keeps s.blk h i (hLine m.hdr) (hWorld m.hdr) err
    refine ⟨scCheck s.blk h i (hLine m.hdr) (hWorld m.hdr) err, ?_, hinbox, htrackers, hfilter, ?word, ?tag⟩
    · rw [exec_rdShared, execRdShared, readCheck_of_front hf hb hop, exec_rdShared, execRdShared, readCheck_clean]
      rfl
    case word =>
      rintro w k rfl hk
      rw [scCheck_word hk, getSlice_congr (raiseArray_slices ..), getSlice_updSlice]
      exact Tab.get_upd_same ..
    case tag =>
      rintro way rfl key l hres hdead hline
      have hcheck : scCheck s.blk h i (hLine m.hdr) (hWorld m.hdr) (.tag way) = _ :=
        (scCheck_tag ..).trans (if_neg (ne_true_of_eq_false (keepsWay_of_free hres hdead hline)))
      rw [hcheck, getSlice_congr (setTagUe_slices ..), getSlice_updSlice]
      exact ⟨Slice.loseWay_way .., Slice.loseWay_dead .., setTagUe_sets ..⟩

end Sys2Proof.Safety
end

section
/-! PROOFS. A loss while another begins (R189, R216, R219, R220, R243, R244): the end of the wait for a lost die lets the flows that
waited for its answers run on, and one of them can take a guest's spur down, so that a new wait begins in the same step. -/

namespace Sys2Proof.Safety

open Sys2Proof.Machine

/-! ## An AtomAdd of a guest that waits for the answer of a lost die -/

/-- An AtomAdd of HUB-N's guest, agent 12, on line 0. Its WrData came without the operand's marks, which R189 finds when the
flow ends; the flow still waits for die 0's answer to a SnpInval. -/
def unmarkedAtomic : Tracker :=
  { id := 0, kind := .req, line := 0, hdr := mkReq opAtomAdd false 16 12 0 0 0, via := some (.hub .n 6), active := true
    looked := true, granted := true, wr := some (0, 0, 0), memData := some (0, 0)
    snoops := [{ node := 0, op := opSnpInval, fwd := false, sent := true }] }

/-- Die 0 is lost at HUB-N, whose wait of R219 runs. The guest's spur is ACTIVE, and its first violation takes it down (R244).
Slice 0 holds the guest's AtomAdd and an entry that names die 0 as a sharer of its line. -/
def lossDuringAtomic : Block :=
  let b := fset {} (HUB_JCT_LOST .n) HUB_JCT_LOST_LOST 1
  let b := fset b (SPUR_VIOL_LIMIT .n) SPUR_VIOL_LIMIT_DOWN_AT 1
  let b := setLinkState b (.hub .n 6) 5
  let b := { b with pkg := { b.pkg with lostWait := [lostKeyOf .n (.agent 0)] } }
  updSlice b .n 0 fun sl => { sl with
    trackers := [unmarkedAtomic], nextId := 1, filter := sl.filter.set {} 0 { valid := true, present := 1 } }

theorem lossDuringAtomic_waits : lossDuringAtomic.pkg.lostWait = [lostKeyOf .n (.agent 0)] := rfl

theorem lossDuringAtomic_drained : lostDrained lossDuringAtomic .n (.agent 0) = true := by decide +kernel

/-- The wait for die 0 ends. Its missing answer is synthesised, the AtomAdd ends as malformed, its violation takes the spur down,
and both hubs begin to wait for the guest. -/
theorem lostWait_lostDrain_lossDuringAtomic :
    (lostDrain lossDuringAtomic .n (.agent 0)).pkg.lostWait = [waitKey .n (agGuest .n), waitKey .s (agGuest .n)] := by
  decide +kernel

/-! ## The refutation -/

/-- A command whose meaning is a next block completes with that block only. -/
theorem of_gives {i : Instr} {s : State} {P : Block → Prop} {b : Block} (h : exec i s = nextBlk s b) (hg : Gives i s P) : P b := by
  obtain ⟨b', hexec, hp⟩ := hg
  have hnext : nextBlk s b = nextBlk s b' := h.symm.trans hexec
  have hblk : b = b' := congrArg State.blk (Host.Outcome.next.inj hnext)
  exact hblk ▸ hp

/-- What the statement claims of the waits when one of them ends: the others stay as they are, and none begins. -/
theorem lostWait_lostDrain_of_claim (claim : Obligations.LossesAndProxiesAct) {h : Hub} {t : LostTarget} {b : Block}
    (hwaits : b.pkg.lostWait.contains (lostKeyOf h t) = true) (hdrained : lostDrained b h t = true) :
    (lostDrain b h t).pkg.lostWait = b.pkg.lostWait.filter (· != lostKeyOf h t) := by
  unfold Obligations.LossesAndProxiesAct at claim
  obtain ⟨-, hends, -⟩ := claim h t { blk := b }
  obtain ⟨-, hkept⟩ := of_gives (exec_lostDrainDone h t { blk := b }) (hends hwaits hdrained)
  exact hkept

/-- Refutes O34: the step that ends the wait for die 0 need not leave the other waits as they were. In `lossDuringAtomic` it
starts the waits for the guest, so that the waits after it are not those before it without die 0's. -/
theorem not_lossesAndProxiesAct : ¬ Obligations.LossesAndProxiesAct := by
  intro claim
  have hwaits : lossDuringAtomic.pkg.lostWait.contains (lostKeyOf .n (.agent 0)) = true := by
    rw [lossDuringAtomic_waits]
    decide
  have hkept := lostWait_lostDrain_of_claim claim hwaits lossDuringAtomic_drained
  rw [lostWait_lostDrain_lossDuringAtomic, lossDuringAtomic_waits] at hkept
  exact absurd hkept (by decide)

end Sys2Proof.Safety
end

section
/-! PROOFS. The spur of a guest (R98, R99, R236, R241, R243): what reading its registers and its entry of the spur table gives after
a start of its link, a violation, and each of the guest's sideband messages (R234, R235). -/

namespace Sys2Proof.Machine

/-! ## What leaves the spurs unchanged -/

theorem getSpur_congr {a b : Block} (h : a.spurs = b.spurs) (x : Hub) : getSpur a x = getSpur b x := by
  simp only [getSpur, h]

@[simp] theorem getSpur_fset (b : Block) (o : Nat) (f : Fld) (v : Nat) (h : Hub) : getSpur (fset b o f v) h = getSpur b h := rfl

@[simp] theorem raise_spurs (b : Block) (ag unit cls kind sev fl d0 d1 : Nat) (ao : Bool) :
    (raise b ag unit cls kind sev fl d0 d1 ao).spurs = b.spurs := rfl

@[simp] theorem setStatus_spurs (b : Block) (off bit d1 : Nat) (ao w : Bool) : (setStatus b off bit d1 ao w).spurs = b.spurs := rfl

@[simp] theorem bumpErr_spurs (b : Block) (off ag unit cls sev d1 : Nat) :
    (bumpErr b off ag unit cls sev d1).spurs = b.spurs := by
  simp only [bumpErr, raise_spurs, bump_spurs]

@[simp] theorem setMilepost_spurs (b : Block) (off bit : Nat) (v : Bool) (ag unit cls : Nat) :
    (setMilepost b off bit v ag unit cls).spurs = b.spurs := by
  unfold setMilepost
  split
  · rfl
  · rw [raise_spurs, wr_spurs]

@[simp] theorem declareLostAt_spurs (b : Block) (h : Hub) (a cause : Nat) : (declareLostAt b h a cause).spurs = b.spurs := by
  unfold declareLostAt
  split
  · rfl
  · have hpkg (b : Block) (p : Pkg) : { b with pkg := p }.spurs = b.spurs := rfl
    rw [raise_spurs, hpkg, fset_spurs, fset_spurs]

@[simp] theorem declareLost_spurs (b : Block) (a cause : Nat) : (declareLost b a cause).spurs = b.spurs := by
  simp only [declareLost, declareLostAt_spurs, setEndMilepost, setMilepost_spurs]

theorem bumpFld_spurs (b : Block) (off : Nat) (f : Fld) (n : Nat) : (bumpFld b off f n).spurs = b.spurs := fset_spurs ..

theorem losePath_spurs (b : Block) (h : Hub) (a : Nat) : (losePath b h a).spurs = b.spurs := bumpFld_spurs ..

/-- A spur end that enters DOWN leaves what the hub holds of the guest's messages (R245). -/
theorem enterDown_spur_spurs (b : Block) (h : Hub) (reason : Nat) : (enterDown b (.hub h 6) reason).spurs = b.spurs := by
  have hlost (b : Block) (cause : Nat) : (endLost b (.hub h 6) cause true).spurs = b.spurs := by
    have h67 : ¬ (6 : Fin 8).val = 7 := by decide
    simp only [endLost, h67, if_false, Bool.or_true, if_true, declareLost_spurs, setEndMilepost, setMilepost_spurs,
      losePath_spurs]
  unfold enterDown
  dsimp only
  split
  · rfl
  · rw [hlost, setStatus_spurs, updLink_spurs, fset_spurs, fset_spurs]

/-- A violation is counted in registers; it leaves what the hub holds of the guest's messages (R243, R244). -/
theorem getSpur_violate (b : Block) (h x : Hub) : getSpur (violate b h) x = getSpur b x := by
  have hwarn (b : Block) (p : Prop) [Decidable p] (bit : Nat) :
      getSpur (if p then setStatus b (SPUR_VIOL_STATUS h) bit else b) x = getSpur b x := by
    split
    · exact getSpur_congr (setStatus_spurs ..) x
    · rfl
  unfold violate
  dsimp only
  split
  · rw [getSpur_congr (enterDown_spur_spurs ..), getSpur_congr (setStatus_spurs ..), getSpur_fset, hwarn,
      getSpur_congr (bumpFld_spurs ..)]
  · rw [hwarn, getSpur_congr (bumpFld_spurs ..)]

/-- The counters of R247 are none of the registers that a violation changes. -/
theorem cntSpur_not_mem_spurDownRegs (h : Hub) (i : Fin 7) : CNT_SPUR h i ∉ spurDownRegs h := by
  revert i
  cases h <;> decide

/-- An error of the guest that is a violation too advances its counter by one (R243, R247). -/
theorem rd_violate_bumpErr (b : Block) (h : Hub) (i : Fin 7) (ag unit cls sev : Nat) :
    rd (violate (bumpErr b (CNT_SPUR h i) ag unit cls sev) h) (CNT_SPUR h i) = min 0xFFFF_FFFF (rd b (CNT_SPUR h i) + 1) := by
  rw [rd_violate _ _ (cntSpur_not_mem_spurDownRegs h i), rd_bumpErr, if_pos rfl]

/-! ## A field of a register -/

theorem b2n_mod_two (v : Bool) : b2n v % 2 = b2n v := by cases v <;> rfl

/-- A field keeps a part of a word that is no wider than the field. -/
theorem bitsOf_mod_of_width {n hi lo w : Nat} (h : hi + 1 - lo = w) : bitsOf n hi lo % 2 ^ w = bitsOf n hi lo :=
  Nat.mod_eq_of_lt (h ▸ bitsOf_lt n hi lo)

/-! ## The sideband messages of the guest (R234, R235, R236, R241) -/

section
variable {b : Block} {h : Hub} {p : Word}

theorem sbTake_of_offer (hres : sbReserved p = false) (hop : p.toNat % 16 = 1) : sbTake b h p = sbOffer b h p := by
  simp [sbTake, hres, hop]

theorem sbTake_of_allot (hres : sbReserved p = false) (hop : p.toNat % 16 = 2) : sbTake b h p = sbAllot b h p := by
  simp [sbTake, hres, hop]

theorem sbTake_of_result (hres : sbReserved p = false) (hop : p.toNat % 16 = 3) : sbTake b h p = sbResult b h p := by
  simp [sbTake, hres, hop]

theorem sbTake_of_pwrRsp (hres : sbReserved p = false) (hop : p.toNat % 16 = 5) : sbTake b h p = sbPower b h p := by
  simp [sbTake, hres, hop]

/-- The conditions of R235 on an OFFER read the site's register alone. -/
theorem offerOk_congr {a : Block} (hc : rd a (SPUR_GUEST_CTRL h) = rd b (SPUR_GUEST_CTRL h)) (n : Nat) :
    offerOk a h n = offerOk b h n := by
  simp only [offerOk, classAllowed, fget, hc]

theorem guestCtrl_ne_bringup (h : Hub) : SPUR_GUEST_CTRL h ≠ SPUR_BRINGUP h := by
  simp [SPUR_GUEST_CTRL, SPUR_BRINGUP]

/-- SPUR_BRINGUP after the guest's OFFER (R235, R246). -/
def bringupOfOffer (b : Block) (h : Hub) (n : Nat) : Block :=
  let r := SPUR_BRINGUP h
  fset (fset (fset (fset b r SPUR_BRINGUP_REVISION (bitsOf n 19 16)) r SPUR_BRINGUP_CLASS (b2n (bitOf n 15)))
    r SPUR_BRINGUP_OFFER_SEEN 1) r SPUR_BRINGUP_OFFER_FAULT (b2n (!offerOk b h n))

/-- An OFFER in the state OFFER is kept, without allotments, and shown in SPUR_BRINGUP (R235). -/
theorem sbOffer_of_state (hst : linkState b (.hub h 6) = 2) :
    sbOffer b h p = bringupOfOffer (updSpur b h fun s => { s with offer := some p, allots := [] }) h p.toNat := by
  have hok (a : Block) (v w u : Nat) (f g k : Fld) : offerOk (fset (fset (fset a (SPUR_BRINGUP h) f v) (SPUR_BRINGUP h) g w)
      (SPUR_BRINGUP h) k u) h p.toNat = offerOk a h p.toNat := offerOk_congr (by
    rw [rd_fset_ne _ _ _ (guestCtrl_ne_bringup h), rd_fset_ne _ _ _ (guestCtrl_ne_bringup h),
      rd_fset_ne _ _ _ (guestCtrl_ne_bringup h)]) _
  simp only [sbOffer, hst, ne_eq, not_true_eq_false, if_false, bringupOfOffer, hok]

@[simp] theorem getSpur_bringupOfOffer (b : Block) (h : Hub) (n : Nat) (x : Hub) :
    getSpur (bringupOfOffer b h n) x = getSpur b x := by
  unfold bringupOfOffer
  rw [getSpur_fset, getSpur_fset, getSpur_fset, getSpur_fset]

/-- What SPUR_BRINGUP shows of an OFFER. -/
theorem fget_bringupOfOffer (b : Block) (h : Hub) (n : Nat) :
    let r := SPUR_BRINGUP h
    let a := bringupOfOffer b h n
    fget a r SPUR_BRINGUP_OFFER_SEEN = 1 ∧ fget a r SPUR_BRINGUP_REVISION = bitsOf n 19 16 ∧
      fget a r SPUR_BRINGUP_CLASS = b2n (bitOf n 15) ∧ fget a r SPUR_BRINGUP_OFFER_FAULT = b2n (!offerOk b h n) := by
  dsimp only [bringupOfOffer]
  refine ⟨?seen, ?revision, ?cls, ?fault⟩
  case seen =>
    rw [fget_fset_disj _ _ _ _ _ (by decide) (by decide)]
    exact fget_fset_same _ _ _ _ (by decide)
  case revision =>
    rw [fget_fset_disj _ _ _ _ _ (by decide) (by decide), fget_fset_disj _ _ _ _ _ (by decide) (by decide),
      fget_fset_disj _ _ _ _ _ (by decide) (by decide), fget_fset_same _ _ _ _ (by decide)]
    exact bitsOf_mod_of_width rfl
  case cls =>
    rw [fget_fset_disj _ _ _ _ _ (by decide) (by decide), fget_fset_disj _ _ _ _ _ (by decide) (by decide),
      fget_fset_same _ _ _ _ (by decide)]
    exact b2n_mod_two _
  case fault =>
    rw [fget_fset_same _ _ _ _ (by decide)]
    exact b2n_mod_two _

/-- SPUR_BRINGUP after an ALLOT: the first fault of an attempt is kept with its channel (R235). -/
def bringupOfAllot (b : Block) (h : Hub) (good : Bool) (channel : Nat) : Block :=
  let r := SPUR_BRINGUP h
  if good || fon b r SPUR_BRINGUP_OFFER_FAULT then b
  else fset (fset b r SPUR_BRINGUP_OFFER_FAULT 1) r SPUR_BRINGUP_FAULT_VC channel

/-- An ALLOT that follows an OFFER is kept as the next channel's (R144, R235). -/
theorem sbAllot_of_offer {o : Word} (hst : linkState b (.hub h 6) = 2) (ho : (getSpur b h).offer = some o)
    (hlen : (getSpur b h).allots.length < 6) :
    let n := p.toNat
    let l := (getSpur b h).allots
    sbAllot b h p = bringupOfAllot
      (updSpur b h fun s => { s with allots := s.allots ++ [(bitsOf n 19 8, bitsOf n 31 20)] }) h
      (bitsOf n 6 4 == l.length && allotOk (bitOf o.toNat 15) (bitsOf n 6 4) (bitsOf n 19 8) (bitsOf n 31 20)) l.length := by
  have hwait : ¬ (linkState b (.hub h 6) ≠ 2 ∨ 6 ≤ (getSpur b h).allots.length) := by omega
  simp only [sbAllot, ho, hwait, if_false, bringupOfAllot]

@[simp] theorem getSpur_bringupOfAllot (b : Block) (h : Hub) (good : Bool) (c : Nat) (x : Hub) :
    getSpur (bringupOfAllot b h good c) x = getSpur b x := by
  unfold bringupOfAllot
  dsimp only
  split
  · rfl
  · rw [getSpur_fset, getSpur_fset]

theorem bringupOfAllot_good (b : Block) (h : Hub) (c : Nat) : bringupOfAllot b h true c = b := by
  rw [bringupOfAllot, Bool.true_or, if_pos rfl]

/-- A RESULT in the state TEST is noted, with its quarters in the PARTNER fields (R236). -/
theorem sbResult_of_state (hst : linkState b (.hub h 6) = 3) :
    let r := LINK_LANE_TEST (.hub h 6)
    sbResult b h p = fset (fset (updSpur b h fun s => { s with result := true })
      r LINK_LANE_TEST_PARTNER_QTESTED (bitsOf p.toNat 7 4)) r LINK_LANE_TEST_PARTNER_QFAIL (bitsOf p.toNat 11 8) := by
  simp only [sbResult, hst, ne_eq, not_true_eq_false, if_false]

/-- A PWR_RSP with the SEQ of the request that waits is its answer (R241). -/
theorem getSpur_sbPower {t : Nat} (hreq : (getSpur b h).pwrReq = some (t, bitsOf p.toNat 15 8)) :
    getSpur (sbPower b h p) h =
      { getSpur b h with pwrReq := none, pwrAns := some (bitsOf p.toNat 7 4, bitsOf p.toNat 23 16) } := by
  simp only [sbPower, getSpur_updSpur, hreq, if_true]

theorem pwrTimeout_of_none (hreq : (getSpur b h).pwrReq = none) : pwrTimeout b h = b := by
  simp only [pwrTimeout, hreq]

/-- A request without an answer is refused, counted, and a violation (R241, R243). -/
theorem pwrTimeout_of_some {x : Nat × Nat} (hreq : (getSpur b h).pwrReq = some x) :
    pwrTimeout b h = violate (bumpErr (updSpur b h fun s => { s with pwrReq := none, pwrAns := some (2, 0xFF) })
      (CNT_SPUR h 5) (agHome h) 38 2 sevDefer) h := by
  simp only [pwrTimeout, hreq]

end

end Sys2Proof.Machine

namespace Sys2Proof.Safety

open Sys2Proof.Machine

theorem regsKeep_of_regs {a b : Block} (h : b.regs = a.regs) (but : List Nat) : RegsKeep a b but := fun o _ => rd_congr h o

/-- A field of a listed register may be stored. -/
theorem RegsKeep.fset {a b : Block} {but : List Nat} (h : RegsKeep a b but) {r : Nat} (hr : r ∈ but) (f : Fld) (v : Nat) :
    RegsKeep a (fset b r f v) but := fun o ho =>
  (rd_fset_ne _ _ _ (ne_of_mem_of_not_mem hr ho).symm).trans (h o ho)

/-- An event record is in no register. -/
theorem RegsKeep.raise {a b : Block} {but : List Nat} (h : RegsKeep a b but) (ag unit cls kind sev fl d0 d1 : Nat) (ao : Bool) :
    RegsKeep a (raise b ag unit cls kind sev fl d0 d1 ao) but := fun o ho => (rd_raise ..).trans (h o ho)

theorem regsKeep_bringupOfOffer (b : Block) (h : Hub) (n : Nat) : RegsKeep b (bringupOfOffer b h n) [SPUR_BRINGUP h] :=
  have hr : SPUR_BRINGUP h ∈ [SPUR_BRINGUP h] := List.mem_singleton_self _
  ((((regsKeep_of_regs rfl _).fset hr _ _).fset hr _ _).fset hr _ _).fset hr _ _

theorem regsKeep_bringupOfAllot (b : Block) (h : Hub) (good : Bool) (c : Nat) :
    RegsKeep b (bringupOfAllot b h good c) [SPUR_BRINGUP h] := by
  have hr : SPUR_BRINGUP h ∈ [SPUR_BRINGUP h] := List.mem_singleton_self _
  unfold bringupOfAllot
  dsimp only
  split
  · exact regsKeep_of_regs rfl _
  · exact ((regsKeep_of_regs rfl _).fset hr _ _).fset hr _ _

section
variable {h : Hub} {p : Word} {s : State}

theorem exec_offer_of_valid (hres : sbReserved p = false) (hop : p.toNat % 16 = 1) :
    exec (.offer h p) s = nextBlk s (sbOffer s.blk h p) := by
  rw [exec_offer, execOffer, if_pos hop, sbTake_of_offer hres hop]

theorem exec_allot_of_valid (hres : sbReserved p = false) (hop : p.toNat % 16 = 2) :
    exec (.allot h p) s = nextBlk s (sbAllot s.blk h p) := by
  rw [exec_allot, execAllot, if_pos hop, sbTake_of_allot hres hop]

theorem exec_result_of_valid (hres : sbReserved p = false) (hop : p.toNat % 16 = 3) :
    exec (.result h p) s = nextBlk s (sbResult s.blk h p) := by
  rw [exec_result, execResult, if_pos hop, sbTake_of_result hres hop]

theorem exec_pwrRsp_of_valid (hres : sbReserved p = false) (hop : p.toNat % 16 = 5) :
    exec (.pwrRsp h p) s = nextBlk s (sbPower s.blk h p) := by
  rw [exec_pwrRsp, execPwrRsp, if_pos hop, sbTake_of_pwrRsp hres hop]

theorem exec_sbFault_of_invalid {vendorOk : Bool} (hbad : vendorOk = false ∨ sbReserved p = true) :
    exec (.sbFault h p vendorOk) s = nextBlk s (sbFault s.blk h) := by
  have hcond : (vendorOk && !sbReserved p) = false := by rcases hbad with hb | hb <;> simp [hb]
  rw [exec_sbFault, execSbFault, hcond, if_neg Bool.false_ne_true]

theorem exec_sbFault_of_valid (hres : sbReserved p = false) : exec (.sbFault h p true) s = nextBlk s s.blk := by
  have hcond : (!sbReserved p) = true := by simp only [hres, Bool.not_false]
  rw [exec_sbFault, execSbFault, Bool.true_and, if_pos hcond]

end

/-- Settles O12: a message with no reserved bits set comes to the function of its SB_OP (`exec_offer_of_valid` and after), which
stores it with the fields of SPUR_BRINGUP or of the lane test; an ignored message or a missing answer comes to a counter and a
violation, which leaves the counter (`rd_violate_bumpErr`) and the spur's entry (`getSpur_violate`) alone. -/
theorem guestSidebandMessages : Obligations.GuestSidebandMessages := by
  intro h p s
  refine ⟨fun hres hop hst => ?offer, fun o hres hop hst ho hlen => ?allot, fun hres hop hst => ?result,
    fun t hres hop hreq => ?pwrRsp, fun vendorOk hbad => ?fault, fun hres => ?taken, fun hreq => ?timeout, fun hreq => ?idle⟩
  case offer =>
    refine gives_of (exec_offer_of_valid hres hop) ?_
    rw [sbOffer_of_state hst]
    obtain ⟨hseen, hrev, hcls, hfault⟩ :=
      fget_bringupOfOffer (updSpur s.blk h fun s => { s with offer := some p, allots := [] }) h p.toNat
    refine ⟨?_, ?_, hseen, hrev, hcls, hfault, regsKeep_bringupOfOffer _ _ _⟩
    · rw [getSpur_bringupOfOffer, getSpur_updSpur]
    · rw [getSpur_bringupOfOffer, getSpur_updSpur]
  case allot =>
    refine gives_of (exec_allot_of_valid hres hop) ?_
    rw [sbAllot_of_offer hst ho hlen]
    refine ⟨?_, fun hc hok => ?_, regsKeep_bringupOfAllot _ _ _ _⟩
    · rw [getSpur_bringupOfAllot, getSpur_updSpur]
    · rw [beq_iff_eq.mpr hc, hok, Bool.and_self, bringupOfAllot_good, updSpur_regs]
  case result =>
    refine gives_of (exec_result_of_valid hres hop) ?_
    rw [sbResult_of_state hst]
    have hr : LINK_LANE_TEST (.hub h 6) ∈ [LINK_LANE_TEST (.hub h 6)] := List.mem_singleton_self _
    refine ⟨?_, ?_, ?_, ((regsKeep_of_regs rfl _).fset hr _ _).fset hr _ _⟩
    · rw [getSpur_fset, getSpur_fset, getSpur_updSpur]
    · rw [fget_fset_disj _ _ _ _ _ (by decide) (by decide), fget_fset_same _ _ _ _ (by decide)]
      exact bitsOf_mod_of_width rfl
    · rw [fget_fset_same _ _ _ _ (by decide)]
      exact bitsOf_mod_of_width rfl
  case pwrRsp =>
    refine gives_of (exec_pwrRsp_of_valid hres hop) ?_
    rw [getSpur_sbPower hreq]
    exact ⟨rfl, rfl, rfl⟩
  case fault => exact gives_of (exec_sbFault_of_invalid hbad) (rd_violate_bumpErr _ h 2 _ _ _ _)
  case taken => exact exec_sbFault_of_valid hres
  case timeout =>
    obtain ⟨x, hx⟩ := Option.ne_none_iff_exists'.mp hreq
    refine gives_of (exec_pwrRspTimeout ..) ?_
    rw [pwrTimeout_of_some hx]
    refine ⟨?_, rd_violate_bumpErr _ h 5 _ _ _ _⟩
    rw [getSpur_violate, getSpur_congr (bumpErr_spurs ..), getSpur_updSpur]
  case idle => exact noEffect_of (exec_pwrRspTimeout ..) (pwrTimeout_of_none hreq)

end Sys2Proof.Safety
end

section
/-! PROOFS. The resets of a guest site (R236, R238, R382, R533): RESET as a register write, at the end of the 10 µs hold, and at a
fall of GST_x_PG. -/

namespace Sys2Proof.Machine

/-! ## The start of a spur's link (R98, R99) -/

/-- The registers that the start of a spur's link may change. -/
def spurStartRegs (h : Hub) : List Nat := [LINK_STATUS (.hub h 6), CNT_ATTEMPTS (.hub h 6), SPUR_BRINGUP h]

theorem guestCtrl_not_mem_spurStartRegs (h : Hub) : SPUR_GUEST_CTRL h ∉ spurStartRegs h := by
  cases h <;> decide

theorem rd_enterLock_spur (b : Block) (h : Hub) (resume : Bool) {o : Nat} (ho : o ∉ spurStartRegs h) :
    rd (enterLock b (.hub h 6) resume) o = rd b o := by
  simp only [spurStartRegs, List.mem_cons, List.not_mem_nil, or_false, not_or] at ho
  obtain ⟨hstatus, hattempts, hbringup⟩ := ho
  rw [rd_enterLock _ _ _ _ hbringup, if_neg hattempts, if_neg hstatus]

theorem linkState_enterLock_spur (b : Block) (h : Hub) (resume : Bool) :
    linkState (enterLock b (.hub h 6) resume) (.hub h 6) = 1 := by
  have hbringup : LINK_STATUS (.hub h 6) ≠ SPUR_BRINGUP (endHub (.hub h 6)) := by cases h <;> decide
  have hattempts : LINK_STATUS (.hub h 6) ≠ CNT_ATTEMPTS (.hub h 6) := by cases h <;> decide
  rw [linkState, fget, rd_enterLock _ _ _ _ hbringup, if_neg hattempts, if_pos rfl]
  exact bitsOf_putBits_same ..

theorem isSpurEnd_spur (h : Hub) : isSpurEnd (.hub h 6) = some h := rfl

/-- An attempt forgets the guest's messages, and not that its site was reset. -/
theorem fresh_enterLock_spur (b : Block) (h : Hub) (resume : Bool) :
    (getSpur (enterLock b (.hub h 6) resume) h).fresh = (getSpur b h).fresh := by
  simp only [enterLock, isSpurEnd_spur, setLinkState]
  rw [getSpur_congr (bump_spurs ..), getSpur_fset, getSpur_fset, getSpur_fset, getSpur_fset, getSpur_updSpur,
    getSpur_congr (updLink_spurs ..)]

/-- START does nothing at a hub end that is neither OFF nor DOWN, and else enters LOCK with its failures cleared. -/
theorem linkStart_spur (b : Block) (h : Hub) : let e := LinkId.hub h 6
    linkStart b e = if linkState b e = 0 ∨ linkState b e = 7 then
      enterLock (fset (fset b (LINK_STATUS e) LINK_STATUS_FAILED_ATTEMPTS 0) (LINK_STATUS e) LINK_STATUS_DOWN_REASON 0) e false
    else b := rfl

theorem rd_linkStart_spur (b : Block) (h : Hub) {o : Nat} (ho : o ∉ spurStartRegs h) : rd (linkStart b (.hub h 6)) o = rd b o := by
  have hstatus : o ≠ LINK_STATUS (.hub h 6) := fun e => ho (e ▸ List.mem_cons_self)
  rw [linkStart_spur]
  split
  · rw [rd_enterLock_spur _ _ _ ho, rd_fset_ne _ _ _ hstatus, rd_fset_ne _ _ _ hstatus]
  · rfl

/-! ## RESET of a site (R236, R238, R382, R533) -/

/-- RESET is a single bit. -/
theorem fget_reset_of_on {b : Block} {o : Nat} (h : fon b o SPUR_GUEST_CTRL_RESET = true) : fget b o SPUR_GUEST_CTRL_RESET = 1 := by
  have hlt : fget b o SPUR_GUEST_CTRL_RESET < 2 := bitsOf_lt _ _ _
  have hne : fget b o SPUR_GUEST_CTRL_RESET ≠ 0 := by simpa [fon] using h
  omega

theorem guestHold_of_held {b : Block} {h : Hub} (hr : fon b (SPUR_GUEST_CTRL h) SPUR_GUEST_CTRL_RESET = true) :
    guestHold b h = b := if_pos hr

theorem guestHold_of_free {b : Block} {h : Hub} (hr : fon b (SPUR_GUEST_CTRL h) SPUR_GUEST_CTRL_RESET = false) :
    guestHold b h = fset b (SPUR_GUEST_CTRL h) SPUR_GUEST_CTRL_RESET 1 := if_neg (by simp [hr])

section
variable {b : Block} {h : Hub} (hg : (getSpur b h).powerGood = true)
include hg

/-- Where GST_x_PG is high RESET clears, and the next bring-up is the first after it. -/
theorem guestFree_of_powerGood : guestFree b h =
    updSpur (fset b (SPUR_GUEST_CTRL h) SPUR_GUEST_CTRL_RESET 0) h fun s => { s with fresh := true, rejoined := false } :=
  if_pos hg

theorem fget_reset_guestFree : fget (guestFree b h) (SPUR_GUEST_CTRL h) SPUR_GUEST_CTRL_RESET = 0 := by
  rw [guestFree_of_powerGood hg, fget, rd_updSpur, ← fget]
  exact fget_fset_same _ _ _ _ (by decide)

theorem fresh_guestFree : (getSpur (guestFree b h) h).fresh = true := by
  rw [guestFree_of_powerGood hg, getSpur_updSpur]

theorem linkState_guestFree (e : LinkId) (he : LINK_STATUS e ≠ SPUR_GUEST_CTRL h) :
    linkState (guestFree b h) e = linkState b e := by
  rw [guestFree_of_powerGood hg, linkState, fget, rd_updSpur, rd_fset_ne _ _ _ he, ← fget, ← linkState]

/-- Clearing RESET of a held site frees it and starts its link (R236; the start is log entry 35's). -/
theorem guestSet_release (hr : fon b (SPUR_GUEST_CTRL h) SPUR_GUEST_CTRL_RESET = true) :
    guestSet b h false = linkStart (guestFree b h) (.hub h 6) := by
  have hfree : fon (guestFree b h) (SPUR_GUEST_CTRL h) SPUR_GUEST_CTRL_RESET = false := by
    simp only [fon, fget_reset_guestFree hg, bne_self_eq_false]
  simp only [guestSet, hr, hfree, Bool.false_eq_true, Bool.true_eq_false, if_false]

end

theorem guestSet_release_of_free {b : Block} {h : Hub} (hr : fon b (SPUR_GUEST_CTRL h) SPUR_GUEST_CTRL_RESET = false) :
    guestSet b h false = b := by
  simp only [guestSet, hr, Bool.false_eq_true, if_false, if_true]

theorem fget_reset_linkStart (b : Block) (h : Hub) : fget (linkStart b (.hub h 6)) (SPUR_GUEST_CTRL h) SPUR_GUEST_CTRL_RESET =
    fget b (SPUR_GUEST_CTRL h) SPUR_GUEST_CTRL_RESET := by
  rw [fget, rd_linkStart_spur _ _ (guestCtrl_not_mem_spurStartRegs h), ← fget]

/-! ## The end of the hold (R382) -/

@[simp] theorem rd_setRun (b : Block) (a v o : Nat) : rd (setRun b a v) o = rd b o := rfl

@[simp] theorem rd_enrol (b : Block) (a o : Nat) : rd (enrol b a) o = rd b o := rfl

@[simp] theorem setRun_admitted (b : Block) (a v : Nat) : (setRun b a v).pkg.admitted = b.pkg.admitted := rfl

@[simp] theorem getRun_setRun (b : Block) (a v : Nat) : getRun (setRun b a v) a = v := by simp [getRun, setRun]

/-- An admitted agent is on the list of those that may rejoin (R383 step 3). -/
theorem admitted_enrol (b : Block) (a : Nat) : (enrol b a).pkg.admitted.contains a = true := by
  unfold enrol
  dsimp only
  split
  · assumption
  · simp

/-- At the end of its hold a guest's site leaves reset, its link starts, and it is admitted. -/
theorem holdExpiry_guest {b : Block} {h : Hub} (hrun : getRun b (agGuest h) = 4) : holdExpiry b (agGuest h) =
    setRun (enrol (linkStart (guestFree b h) (.hub h 6)) (agGuest h)) (agGuest h) 6 := by
  have hguest : ¬ agGuest h < 12 := by simp [agGuest]
  have hhub : hubOf (agGuest h % 2) = h := by cases h <;> rfl
  simp [holdExpiry, hrun, hguest, hhub]

end Sys2Proof.Machine

namespace Sys2Proof.Safety

open Sys2Proof.Machine

/-- A source that may write the site's register gives RESET the value that it writes. -/
theorem exec_guestReset_of_mayWrite {src : Source} {h : Hub} {hold : Bool} {s : State} (hw : MayWriteS s src (SPUR_GUEST_CTRL h)) :
    exec (.guestReset src h hold) s = nextBlk s (guestSet s.blk h hold) := by
  obtain ⟨hacc, hworld⟩ := hw
  rw [exec_guestReset, execGuestReset, secAction_of_secure _ hacc hworld]

/-- At a fall of GST_x_PG the site is in reset, and only its register has changed (R533). -/
theorem guestPgFall_holds (b : Block) (h : Hub) : let r := SPUR_GUEST_CTRL h
    (getSpur (guestPgFall b h) h).powerGood = false ∧ fget (guestPgFall b h) r SPUR_GUEST_CTRL_RESET = 1 ∧
      RegsKeep b (guestPgFall b h) [r] := by
  have hspur : (getSpur (updSpur b h fun s => { s with powerGood := false }) h).powerGood = false := by rw [getSpur_updSpur]
  unfold guestPgFall
  dsimp only
  split
  next hheld => exact ⟨hspur, fget_reset_of_on hheld, regsKeep_of_regs rfl _⟩
  next hfree =>
    rw [guestHold_of_free (by simpa using hfree)]
    refine ⟨?_, ?_, ((regsKeep_of_regs rfl _).fset (List.mem_singleton_self _) _ _).raise _ _ _ _ _ _ _ _ _⟩
    · rw [getSpur_congr (raise_spurs ..), getSpur_fset, hspur]
    · rw [fget, rd_raise, ← fget]
      exact fget_fset_same _ _ _ _ (by decide)

/-- Settles O6: the write of RESET comes to `guestSet`, the end of the hold to `holdExpiry_guest`; both free the site
(`fget_reset_guestFree`, `fresh_guestFree`) and start its link, which leaves RESET (`fget_reset_linkStart`). That clearing RESET
starts the link is log entry 35's choice. -/
theorem guestSiteResets : Obligations.GuestSiteResets := by
  intro h s
  refine ⟨fun src hw => ⟨fun hr => ?hold, fun hr => ?held, fun hr hg hst => ?release, fun hr => ?free⟩,
    fun a ha hrun hg => ?expiry, gives_of (exec_gstPgFall ..) (guestPgFall_holds _ _)⟩
  case hold => exact gives_of (exec_guestReset_of_mayWrite hw) (guestHold_of_free hr)
  case held => exact noEffect_of (exec_guestReset_of_mayWrite hw) (guestHold_of_held hr)
  case release =>
    have hstate : linkState (guestFree s.blk h) (.hub h 6) = linkState s.blk (.hub h 6) :=
      linkState_guestFree hg _ (by cases h <;> decide)
    refine gives_of (exec_guestReset_of_mayWrite hw) ?_
    rw [guestSet_release hg hr]
    refine ⟨(fget_reset_linkStart ..).trans (fget_reset_guestFree hg), ?_, ?_⟩
    · rw [linkStart_spur, if_pos (hstate ▸ hst), fresh_enterLock_spur, getSpur_fset, getSpur_fset, fresh_guestFree hg]
    · rw [linkStart_spur, if_pos (hstate ▸ hst), linkState_enterLock_spur]
  case free => exact noEffect_of (exec_guestReset_of_mayWrite hw) (guestSet_release_of_free hr)
  case expiry =>
    refine gives_of (exec_resetHoldExpiry ..) ?_
    rw [ha] at hrun ⊢
    rw [holdExpiry_guest hrun]
    refine ⟨?_, ?_, getRun_setRun _ _ _⟩
    · rw [fget, rd_setRun, rd_enrol, ← fget, fget_reset_linkStart, fget_reset_guestFree hg]
    · rw [setRun_admitted, admitted_enrol]

end Sys2Proof.Safety
end

section
/-! PROOFS. The devices below a root port (R321, R453 to R456, R459 to R464): their requests and back-invalidation snoops, the
state of a port's link, the completions of its devices, and pins. First what sending leaves unchanged at an I/O agent, then how an
idle agent sends a request, then one law for each function of a port. -/

namespace Sys2Proof.Machine

/-! ## What sending leaves unchanged at an I/O agent -/

theorem getIo_congr {a b : Block} (h : a.io = b.io) (x : Hub) : getIo a x = getIo b x := by
  simp only [getIo, h]

@[simp] theorem raise_io (b : Block) (ag unit cls kind sev fl d0 d1 : Nat) (ao : Bool) :
    (raise b ag unit cls kind sev fl d0 d1 ao).io = b.io := rfl

/-- Sending a message changes no I/O agent. -/
@[simp] theorem hubPut_io (b : Block) (h : Hub) (m : Msg) : (hubPut b h m).io = b.io := by
  obtain hp | ⟨k, hp⟩ | ⟨e, hp⟩ | hp := hubPut_cases b h m <;> rw [hp]
  · exact pushBox_io ..
  · exact queueTx_io ..
  · exact fset_io ..

/-- A message that is dropped, queued or delivered at once takes no free value. -/
@[simp] theorem hubPut_freeIx (b : Block) (h : Hub) (m : Msg) : (hubPut b h m).freeIx = b.freeIx := by
  obtain hp | ⟨k, hp⟩ | ⟨e, hp⟩ | hp := hubPut_cases b h m <;> rw [hp]
  · exact pushBox_freeIx ..
  · exact queueTx_freeIx ..
  · exact fset_freeIx ..

@[simp] theorem getIo_hubPut (b : Block) (h x : Hub) (m : Msg) : getIo (hubPut b h m) x = getIo b x :=
  getIo_congr (hubPut_io ..) x

@[simp] theorem refusalCount_io (b : Block) (holder : Nat) (m : Hdr) : (refusalCount b holder m).io = b.io := by
  unfold refusalCount
  split
  · exact addLost_io ..
  · split
    · exact clearLost_io ..
    · rfl

@[simp] theorem hubRefuse_io (b : Block) (h : Hub) (m : Hdr) : (hubRefuse b h m).io = b.io := by
  unfold hubRefuse
  dsimp only
  split
  · rw [refusalCount_io]
    split <;> rfl
  · rw [hubPut_io, refusalCount_io]
    split <;> rfl

@[simp] theorem getIo_hubSend (b : Block) (h x : Hub) (m : Msg) : getIo (hubSend b h m) x = getIo b x := by
  unfold hubSend
  split
  · exact getIo_congr (hubRefuse_io ..) x
  · exact getIo_hubPut ..

/-! ## The channel of a header slot (R134) -/

theorem place_mod_eight (v hi : Nat) {lo : Nat} (hlo : 3 ≤ lo) : place v hi lo % 8 = 0 :=
  Nat.mod_eq_zero_of_dvd (Nat.dvd_mul_left_of_dvd (Nat.pow_dvd_pow 2 hlo) _)

theorem hVc_mkHdr (vc op : Nat) (world : Bool) (dst src tag : Nat) {rest : Nat} (hrest : rest % 8 = 0) :
    hVc (mkHdr vc op world dst src tag rest) = vc % 8 := by
  have hop := place_mod_eight op 7 (Nat.le_refl 3)
  have hworld := place_mod_eight (b2n world) 8 (lo := 8) (by decide)
  have hdst := place_mod_eight dst 16 (lo := 9) (by decide)
  have hsrc := place_mod_eight src 24 (lo := 17) (by decide)
  have htag := place_mod_eight tag 36 (lo := 25) (by decide)
  have hvc : place vc 2 0 = vc % 8 := Nat.mul_one _
  simp only [hVc, hBits, mkHdr, bitsOf, BitVec.toNat_ofNat, Nat.shiftRight_zero]
  omega

/-- A REQ whose further fields lie above its channel is of channel REQ. -/
theorem hVc_mkReq (op : Nat) (world : Bool) (dst src tag line hint : Nat) {rest : Nat} (hrest : rest % 8 = 0) :
    hVc (mkReq op world dst src tag line hint rest) = vcReq := by
  have hline := place_mod_eight line 85 (lo := 40) (by decide)
  have hhint := place_mod_eight hint 87 (lo := 86) (by decide)
  exact hVc_mkHdr vcReq op world dst src tag (by omega)

/-! ## A request of an I/O agent that nothing holds back (R160, R464) -/

/-- No request waits at an I/O agent, none is outstanding, no posted write of the port waits for its WbGrant, and no function owes
an MsFlush. -/
def IoCalm (b : Block) (h : Hub) (port : Option (Fin 16)) : Prop :=
  (getIo b h).held = [] ∧ (getIo b h).reqs = [] ∧ ((getIo b h).waits.any fun w => w.port == port && w.ordered) = false ∧
    ((getIo b h).ep.fns.cells.filter fun c => !c.2.toFlush.isEmpty) = []

/-- What the agent notes of a request that it sends under a tag. -/
def IoHeld.wait (e : IoHeld) (tag : Nat) : IoWait :=
  { tag := tag, port := e.port, reply := e.reply, ordered := e.ordered, bi := e.bi, fn := e.fn }

theorem ioTag_of_idle {b : Block} {h : Hub} (hreqs : (getIo b h).reqs = []) :
    ∃ tag n, ioTag b h = (some tag, { b with freeIx := n }) := by
  have hfree : freeTags 0 2047 [] ≠ [] :=
    List.ne_nil_of_mem (List.mem_filter.mpr ⟨List.mem_map.mpr ⟨0, by simp, rfl⟩, by simp⟩ : 0 ∈ freeTags 0 2047 [])
  obtain ⟨tag, _, n, hpick⟩ := freePick_of_ne_nil b hfree
  exact ⟨tag, n, by rw [ioTag, hreqs]; exact hpick⟩

/-- With no request outstanding and no posted write of its port on the way, a request goes at once and its answer is waited for. -/
theorem sendHeld_of_idle {b : Block} {h : Hub} {e : IoHeld} (hreqs : (getIo b h).reqs = [])
    (hport : ((getIo b h).waits.any fun w => w.port == e.port && w.ordered) = false) (hvc : hVc e.msg.hdr = vcReq)
    (hfn : e.fn = none) :
    ∃ b' tag, sendHeld b h [] e = some b' ∧ (getIo b' h).waits = (getIo b h).waits ++ [e.wait tag] ∧
      (getIo b' h).ep = (getIo b h).ep := by
  obtain ⟨tag, n, htag⟩ := ioTag_of_idle hreqs
  have hopen : portBlocked b h [] e = false := by simp [portBlocked, hport]
  have hpio : ¬ (hVc e.msg.hdr = vcPio ∧ hOp e.msg.hdr = opIoWr) := fun hw => absurd (hvc.symm.trans hw.1) (by decide)
  have hline : ¬ (hVc e.msg.hdr = vcReq ∧ lineBusy (getIo b h).reqs (hLine e.msg.hdr) = true) := by simp [hreqs, lineBusy]
  simp only [sendHeld, hopen, Bool.false_eq_true, if_false, hpio, hline, htag, hfn]
  refine ⟨_, tag, rfl, ?_, ?_⟩
  · rw [getIo_hubSend, getIo_updIo, IoHeld.wait, hfn]
    rfl
  · rw [getIo_hubSend, getIo_updIo]
    rfl

/-- A request that joins a calm agent leaves at once, and the agent waits for its answer, with what it notes under any tag. -/
theorem ioLaunch_of_calm {b : Block} {h : Hub} {e : IoHeld} {P : IoWait → Prop} (hcalm : IoCalm b h e.port)
    (hvc : hVc e.msg.hdr = vcReq) (hfn : e.fn = none) (hP : ∀ tag, P (e.wait tag)) :
    ∃ w ∈ (getIo (ioLaunch b h e) h).waits, P w := by
  obtain ⟨hheld, hreqs, hport, howes⟩ := hcalm
  let b₁ := updIo b h fun i => { i with held := i.held ++ [e] }
  have hio : getIo b₁ h = { getIo b h with held := [e] } := by simp [b₁, hheld]
  obtain ⟨b₂, tag, hsend, hwaits, hep⟩ := sendHeld_of_idle (b := b₁) (h := h) (by rw [hio]; exact hreqs)
    (by rw [hio]; exact hport) hvc hfn
  have howing : owingFns (updIo b₂ h fun i => { i with held := [] }) h = [] := by
    simp [owingFns, hep, hio, howes]
  have hlaunch : ioLaunch b h e = updIo b₂ h fun i => { i with held := [] } := by
    show ioRelease b₁ h = _
    simp only [ioRelease, hio, tryHeld, hsend, howing, forEach_nil]
  refine ⟨e.wait tag, ?_, hP tag⟩
  rw [hlaunch, getIo_updIo]
  simp [hwaits]

/-! ## Requests of devices (R460 to R463) -/

theorem refuseDevice_regs (b : Block) (h : Hub) (port : Fin 16) (write world : Bool) (pa : Nat) :
    (refuseDevice b h port write world pa).regs = b.regs := by
  unfold refuseDevice refuseTlp
  split <;> rfl

/-- A refused read is completed with an error; a refused write leaves no answer. -/
theorem refuseDevice_outbox (b : Block) (h : Hub) (port : Fin 16) (write world : Bool) (pa : Nat) :
    (refuseDevice b h port write world pa).outbox =
      if write then b.outbox else b.outbox ++ [.cpl h (some port) 0 0 true] := by
  unfold refuseDevice refuseTlp
  split <;> rfl

/-- A normal-world MSI outside the world regions, and every one of the secure world, leaves the block. -/
theorem sendMsi_of_admitted {b : Block} {h : Hub} {part pa : Nat} {world : Bool}
    (hr : world = true ∨ inRegion b h part pa = false) (ag data : Nat) :
    sendMsi b h ag part pa data world = emit b (.msi h pa data world) := by
  refine if_neg ?_
  obtain hw | hr := hr
  · simp [hw]
  · simp [hr]

section
variable {b : Block} {h : Hub} {port : Fin 16} {q : Nat}

/-- A port whose devices may not act, or whose quarter no partition owns, sends nothing. -/
theorem deviceRequest_of_idle (hidle : portActs b h port = false ∨ quarterPart b (portQuarter h port.val) = none)
    (r : DeviceReq) : deviceRequest b h port r = b := by
  obtain hidle | hidle := hidle <;> simp [deviceRequest, hidle]

theorem cxlCache_of_idle (hidle : portActs b h port = false ∨ quarterPart b (portQuarter h port.val) = none) (pa : Nat)
    (w : Option LineWrite) : cxlCache b h port pa w = b := by
  obtain hidle | hidle := hidle <;> simp [cxlCache, hidle]

theorem biSnoop_of_idle (hidle : portActs b h port = false ∨ quarterPart b (portQuarter h port.val) = none) (op : BiOp)
    (pa : Nat) : biSnoop b h port op pa = b := by
  obtain hidle | hidle := hidle <;> simp [biSnoop, hidle]

/-- A lent range stops the normal world only. -/
theorem lent_stops_none (hl : (getPort b h port.val).claimed = true ∨ ownLent b h q pa = false) :
    (!(getPort b h port.val).claimed && ownLent b h q pa) = false := by
  obtain hl | hl := hl <;> simp [hl]

/-- A read of an address that has a home is a RdOnce of the agent. -/
theorem memRequest_of_dst {pa : Nat} (hd : (reqDst b (decodePa b h q pa)).isSome = true) (world : Bool) :
    ∃ hdr, hVc hdr = vcReq ∧ memRequest b h world q pa none = some { port := none, msg := { hdr := hdr }, part := q } := by
  obtain ⟨dst, hdst⟩ := Option.isSome_iff_exists.mp hd
  exact ⟨_, hVc_mkReq _ _ _ _ _ _ _ (place_mod_eight _ 88 (lo := 88) (by decide)), by simp only [memRequest, hdst]; rfl⟩

variable (hacts : portActs b h port = true) (hown : quarterPart b (portQuarter h port.val) = some q)
include hacts hown

/-- A translation request, or a fault of the IOMMU, is refused as R463 gives (log entry 98). -/
theorem deviceRequest_of_untranslated {r : DeviceReq} (hxl : r.xl = none ∨ r.xl = some .fault) :
    deviceRequest b h port r = refuseDevice b h port r.write.isSome (getPort b h port.val).claimed 0 := by
  obtain hxl | hxl := hxl <;> simp only [deviceRequest, hacts, hown, hxl]

theorem deviceRequest_of_msi {r : DeviceReq} {x : Nat} {w : LineWrite} (hxl : r.xl = some (.ok x)) (hwrite : r.write = some w)
    (hmsi : r.msi = true) :
    deviceRequest b h port r = sendMsi b h (agIo h) q (x / 4096 * 4096) (lineBytes w.data (x % 64 / 4 * 4) 4)
      (getPort b h port.val).claimed := by
  simp only [deviceRequest, hacts, hown, hxl, hwrite, hmsi, if_true]

/-- A device's read of main memory leaves a calm agent, which waits to complete it. -/
theorem deviceRequest_of_read {r : DeviceReq} {x : Nat} (hxl : r.xl = some (.ok x)) (hwrite : r.write = none)
    (hcalm : IoCalm b h (some port)) (hl : (getPort b h port.val).claimed = true ∨ ownLent b h q x = false)
    (hd : (reqDst b (decodePa b h q x)).isSome = true) :
    ∃ w ∈ (getIo (deviceRequest b h port r) h).waits, w.port = some port ∧ w.reply = true := by
  obtain ⟨hdr, hvc, hreq⟩ := memRequest_of_dst hd (getPort b h port.val).claimed
  have hlaunch : deviceRequest b h port r = ioLaunch b h
      { port := some port, msg := { hdr := hdr }, part := q, reply := true, after := true } := by
    simp only [deviceRequest, hacts, hown, hxl, hwrite, deviceAccess, lent_stops_none hl, hreq, Bool.false_eq_true, if_false]
    rfl
  rw [hlaunch]
  exact ioLaunch_of_calm hcalm hvc rfl fun _ => ⟨rfl, rfl⟩

/-- So does a CXL.cache read. -/
theorem cxlCache_of_read {pa : Nat} (hcalm : IoCalm b h (some port))
    (hl : (getPort b h port.val).claimed = true ∨ ownLent b h q pa = false) (hd : (reqDst b (decodePa b h q pa)).isSome = true) :
    ∃ w ∈ (getIo (cxlCache b h port pa none) h).waits, w.port = some port ∧ w.reply = true := by
  obtain ⟨hdr, hvc, hreq⟩ := memRequest_of_dst hd (getPort b h port.val).claimed
  have hlaunch : cxlCache b h port pa none = ioLaunch b h
      { port := some port, msg := { hdr := hdr }, part := q, reply := true } := by
    simp only [cxlCache, hacts, hown, lent_stops_none hl, hreq, Bool.false_eq_true, if_false]
  rw [hlaunch]
  exact ioLaunch_of_calm hcalm hvc rfl fun _ => ⟨rfl, rfl⟩

/-- A BISnp in the port's own KIND 1 window becomes a CMO, whose end will be answered with BIRsp. -/
theorem biSnoop_of_own {op : BiOp} {pa w : Nat} (hcalm : IoCalm b h (some port))
    (hdec : decodePa b h q pa = .win h w 1 port.val) :
    ∃ x ∈ (getIo (biSnoop b h port op pa) h).waits, x.port = some port ∧ x.bi = some pa := by
  have hlaunch : ∃ hdr, hVc hdr = vcReq ∧
      biSnoop b h port op pa = ioLaunch b h { port := some port, msg := { hdr := hdr }, part := q, bi := some pa } :=
    ⟨_, hVc_mkReq _ _ _ _ _ _ _ rfl, by simp only [biSnoop, hacts, hown, hdec, and_self, if_true]; rfl⟩
  obtain ⟨hdr, hvc, hlaunch⟩ := hlaunch
  rw [hlaunch]
  exact ioLaunch_of_calm hcalm hvc rfl fun _ => ⟨rfl, rfl⟩

/-- A BISnp in another port's window has no effect (log entry 98). -/
theorem biSnoop_of_other {op : BiOp} {pa w x : Nat} (hdec : decodePa b h q pa = .win h w 1 x) (hx : x ≠ port.val) :
    biSnoop b h port op pa = b := by
  simp only [biSnoop, hacts, hown, hdec, hx, and_false, if_false]

end

/-! ## What a port shows (R453, R456) -/

/-- What a port's link decides at its hub: the transactions on the PCIe side, the waiting requests, the ports, and the register of
their mileposts. -/
def portView (h : Hub) (b : Block) : List PcieReq × List IoHeld × Tab Port × Nat :=
  ((getIo b h).pcie, (getIo b h).held, (getIo b h).ports, rd b (HUB_MILEPOST_IO h))

theorem milepostIo_ne_jctLost (h : Hub) : HUB_MILEPOST_IO h ≠ HUB_JCT_LOST h := by
  cases h <;> decide

@[simp] theorem portView_hubPut (b : Block) (h : Hub) (m : Msg) : portView h (hubPut b h m) = portView h b := by
  simp only [portView, getIo_hubPut, rd_hubPut_ne _ _ _ (milepostIo_ne_jctLost h)]

/-- The answers of MsFlushes change nothing that a port shows. -/
theorem portView_answerFlushes (h : Hub) (fs kept : List FlushWait) (b : Block) :
    portView h (answerFlushes h fs kept b).2 = portView h b := by
  induction fs generalizing kept b with
  | nil => rfl
  | cons f fs ih =>
    unfold answerFlushes
    split
    · exact ih ..
    · exact (ih ..).trans (portView_hubPut ..)

/-- An update that keeps the agent's transactions, waiting requests and ports changes nothing that a port shows. -/
theorem portView_updIo {b : Block} {h : Hub} {f : IoAgent → IoAgent} (hpcie : (f (getIo b h)).pcie = (getIo b h).pcie)
    (hheld : (f (getIo b h)).held = (getIo b h).held) (hports : (f (getIo b h)).ports = (getIo b h).ports) :
    portView h (updIo b h f) = portView h b := by
  simp only [portView, getIo_updIo, hpcie, hheld, hports, rd_updIo]

theorem portView_settleFlushes (b : Block) (h : Hub) : portView h (settleFlushes b h) = portView h b :=
  (portView_updIo rfl rfl rfl).trans (portView_answerFlushes ..)

theorem pcie_settleFlushes (b : Block) (h : Hub) : (getIo (settleFlushes b h) h).pcie = (getIo b h).pcie := by
  have hview := portView_settleFlushes b h
  simp only [portView, Prod.mk.injEq] at hview
  exact hview.1

theorem portView_flushRead (b : Block) (h : Hub) (w : Nat) (ok : Bool) : portView h (flushRead b h w ok) = portView h b :=
  (portView_settleFlushes ..).trans (portView_updIo rfl rfl rfl)

/-- An agent without the transactions of a request's port and tag. -/
def IoAgent.dropPcie (r : PcieReq) (i : IoAgent) : IoAgent :=
  { i with pcie := i.pcie.filter fun x => !(x.port == r.port && x.tag == r.tag) }

/-- An error on the PCIe side ends its transaction, and changes nothing else that a port shows. -/
theorem portView_pcieError (h : Hub) (r : PcieReq) (b : Block) :
    portView h (pcieError h r b) = portView h (updIo b h (IoAgent.dropPcie r)) := by
  unfold pcieError
  dsimp only
  split
  · split <;> rfl
  · split
    · rfl
    · exact portView_hubPut ..

theorem portView_pcieError_snd (h : Hub) (r : PcieReq) (b : Block) : (portView h (pcieError h r b)).2 = (portView h b).2 :=
  (congrArg Prod.snd (portView_pcieError h r b)).trans (by simp only [portView, getIo_updIo, rd_updIo, IoAgent.dropPcie])

theorem mem_dropPcie {x r : PcieReq} {i : IoAgent} :
    x ∈ (i.dropPcie r).pcie ↔ x ∈ i.pcie ∧ ¬ (x.port = r.port ∧ x.tag = r.tag) := by
  rw [IoAgent.dropPcie, List.mem_filter, Bool.not_eq_true', ← Bool.not_eq_true, Bool.and_eq_true, beq_iff_eq, beq_iff_eq]

/-- Errors for a list of transactions leave only others. -/
theorem mem_pcie_forEach_pcieError {h : Hub} {x : PcieReq} (rs : List PcieReq) {b : Block}
    (hx : x ∈ (getIo (forEach rs (pcieError h) b) h).pcie) :
    x ∈ (getIo b h).pcie ∧ ∀ r ∈ rs, ¬ (x.port = r.port ∧ x.tag = r.tag) := by
  induction rs generalizing b with
  | nil => exact ⟨hx, by simp⟩
  | cons r rs ih =>
    obtain ⟨hmem, hrest⟩ := ih hx
    have hpcie : (getIo (pcieError h r b) h).pcie = ((getIo b h).dropPcie r).pcie := by
      have hview := congrArg Prod.fst (portView_pcieError h r b)
      rwa [portView, portView, getIo_updIo] at hview
    obtain ⟨hb, hr⟩ := mem_dropPcie.mp (hpcie ▸ hmem)
    exact ⟨hb, List.forall_mem_cons.mpr ⟨hr, hrest⟩⟩

/-! ## The link of a port (R453, R456) -/

/-- A milepost reads what it was given. -/
theorem bitOf_rd_setMilepost (b : Block) (off : Nat) {bit : Nat} (hbit : bit < 64) (v : Bool) (ag unit cls : Nat) :
    bitOf (rd (setMilepost b off bit v ag unit cls) off) bit = v := by
  unfold setMilepost
  split
  next hsame => exact hsame
  next =>
    rw [rd_raise, rd_wr_same, Nat.mod_eq_of_lt (putBits_lt (rd_lt b off) hbit), bitOf_putBits, if_pos (by omega), Nat.sub_self]
    cases v <;> rfl

@[simp] theorem getIo_setPortReady (b : Block) (h x : Hub) (n : Nat) (v : Bool) : getIo (setPortReady b h n v) x = getIo b x := by
  refine getIo_congr ?_ x
  unfold setPortReady setMilepost
  split
  · rfl
  · exact (raise_io ..).trans (wr_io ..)

theorem portReady_setPortReady (b : Block) (h : Hub) (p : Fin 16) (v : Bool) : portReady (setPortReady b h p.val v) h p.val = v :=
  bitOf_rd_setMilepost _ _ (by omega) ..

/-- The block after a change of a port's link, with the milepost that shows it. -/
def setPortLink (b : Block) (h : Hub) (p : Fin 16) (v : Bool) : Block :=
  setPortReady (updPort b h p.val fun x => { x with up := v }) h p.val v

theorem portReady_setPortLink (b : Block) (h : Hub) (p : Fin 16) (v : Bool) : portReady (setPortLink b h p v) h p.val = v :=
  portReady_setPortReady ..

theorem up_setPortLink (b : Block) (h : Hub) (p : Fin 16) (v : Bool) : (getPort (setPortLink b h p v) h p.val).up = v := by
  rw [setPortLink, getPort, getIo_setPortReady, ← getPort, getPort_updPort]

theorem dlActive_of_owned {b : Block} {h : Hub} {p : Fin 16} (hex : portExists b h p.val = true)
    (hown : (quarterPart b (portQuarter h p.val)).isSome = true) : dlActive b h p = setPortLink b h p true :=
  if_pos ⟨hex, hown⟩

theorem dlActive_of_absent {b : Block} {h : Hub} {p : Fin 16}
    (habs : portExists b h p.val = false ∨ quarterPart b (portQuarter h p.val) = none) : dlActive b h p = b := by
  refine if_neg ?_
  obtain hex | hown := habs
  · simp [hex]
  · simp [hown]

theorem dlDown_of_down {b : Block} {h : Hub} {p : Fin 16} (hr : portReady b h p.val = false) : dlDown b h p = b :=
  if_neg (by simp [hr])

/-- The transactions of a port. -/
def portPcie (b : Block) (h : Hub) (p : Fin 16) : List PcieReq := (getIo b h).pcie.filter fun r => r.port == some p

/-- An agent whose port went down: the port's waiting requests go, its answers are no longer sent, and no flush waits for the
transactions that died with it. -/
def IoAgent.portDown (p : Fin 16) (dead : List PcieReq) (i : IoAgent) : IoAgent :=
  { i with
    held := i.held.filter fun e => e.port != some p
    waits := i.waits.map fun w => if w.port = some p then { w with reply := false, ordered := false, bi := none } else w
    flushes := i.flushes.map fun f => { f with cfgs := f.cfgs.filter fun t => !(dead.any fun r => r.tag == t) } }

/-- What a port's fall leaves: the link and its milepost down, its transactions answered with errors, its requests gone; the
flushes that this ends change nothing more that a port shows. -/
theorem portView_dlDown {b : Block} {h : Hub} {p : Fin 16} (hr : portReady b h p.val = true) :
    let a := setPortLink b h p false
    portView h (dlDown b h p) = portView h (updIo (forEach (portPcie a h p) (pcieError h)
      (raise a (agIo h) p.val 7 4 sevUncorr 0 (place (HUB_MILEPOST_IO h) 43 8) (rd a (HUB_MILEPOST_IO h)))) h
      (IoAgent.portDown p (portPcie a h p))) := by
  have hreads (w : Nat) (again : Nat) (c : Block) :
      portView h (forEach (List.range again) (fun _ b => flushRead b h w false) c) = portView h c :=
    forEach_keeps (fun _ _ => portView_flushRead ..) _ _
  unfold dlDown
  rw [if_pos hr]
  exact (portView_settleFlushes ..).trans (forEach_keeps (fun _ _ => hreads ..) _ _)

/-- A port that falls is neither ready nor up, and has neither transactions nor waiting requests. -/
theorem dlDown_of_ready {b : Block} {h : Hub} {p : Fin 16} (hr : portReady b h p.val = true) :
    portReady (dlDown b h p) h p.val = false ∧ (getPort (dlDown b h p) h p.val).up = false ∧
      (∀ x ∈ (getIo (dlDown b h p) h).pcie, x.port ≠ some p) ∧ ∀ x ∈ (getIo (dlDown b h p) h).held, x.port ≠ some p := by
  have hview := portView_dlDown hr
  dsimp only at hview
  generalize ha : setPortLink b h p false = a at hview
  generalize hc : raise a (agIo h) p.val 7 4 sevUncorr 0 (place (HUB_MILEPOST_IO h) 43 8) (rd a (HUB_MILEPOST_IO h)) = c at hview
  have hloop : (portView h (forEach (portPcie a h p) (pcieError h) c)).2 = (portView h a).2 := by
    rw [forEach_keeps (g := fun b => (portView h b).2) (portView_pcieError_snd h), ← hc]
    rfl
  simp only [portView, getIo_updIo, rd_updIo, Prod.mk.injEq] at hview hloop
  obtain ⟨hpcie, hheld, hports, hmile⟩ := hview
  obtain ⟨-, hports', hmile'⟩ := hloop
  refine ⟨?ready, ?up, fun x hx hport => ?pcie, fun x hx => ?held⟩
  case ready => rw [portReady, hmile, hmile', ← portReady, ← ha, portReady_setPortLink]
  case up =>
    have hsame : getPort (dlDown b h p) h p.val = getPort a h p.val := by
      simp only [getPort, hports]
      exact congrArg (fun t : Tab Port => t.get {} p.val) hports'
    rw [hsame, ← ha, up_setPortLink]
  case pcie =>
    rw [hpcie] at hx
    obtain ⟨hmem, hothers⟩ := mem_pcie_forEach_pcieError _ hx
    have hmem : x ∈ (getIo a h).pcie := by rw [← hc] at hmem; exact hmem
    exact hothers x (List.mem_filter.mpr ⟨hmem, by simp [hport]⟩) ⟨rfl, rfl⟩
  case held =>
    rw [hheld] at hx
    simpa using (List.mem_filter.mp hx).2

/-! ## Completions of a port's devices (R454, R459) -/

/-- The block without a transaction that is completed, for which no flush waits any more. -/
def endPcie (b : Block) (h : Hub) (r : PcieReq) : Block :=
  updIo b h fun i => { i.dropPcie r with flushes := i.flushes.map fun f => { f with cfgs := f.cfgs.filter (· != r.tag) } }

theorem pcieDone_of_error (b : Block) (r : PcieReq) {h : Hub} {status : TlpStatus} (hs : status ≠ .ok) (data : LineData) :
    pcieDone b h r status data = settleFlushes (endPcie (pcieError h r b) h r) h := by
  simp only [pcieDone, hs, if_false]
  rfl

/-- No transaction of an agent has this port and tag. -/
def PcieGone (h : Hub) (port : Fin 16) (tag : Nat) (b : Block) : Prop :=
  ∀ x ∈ (getIo b h).pcie, ¬ (x.port = some port ∧ x.tag = tag)

section
variable {b : Block} {h : Hub} {port : Fin 16} {tag : Nat} {x : PcieReq}

theorem pcieComplete_of_unknown (hx : ((getIo b h).pcie.find? fun r => r.port == some port && r.tag == tag) = none)
    (status : TlpStatus) (data : LineData) : pcieComplete b h (some port) tag status data = b := by
  simp only [pcieComplete, hx]

/-- A completion for an endpoint's bus under a tag that no channel waits for is dropped. -/
theorem pcieComplete_of_noPart (hp : partOf b h true tag = none) (status : TlpStatus) (data : LineData) :
    pcieComplete b h none tag status data = b := by
  simp only [pcieComplete, dmBus, hp, Option.getD_none]

variable (hx : ((getIo b h).pcie.find? fun r => r.port == some port && r.tag == tag) = some x)
include hx

theorem pcieComplete_of_known (status : TlpStatus) (data : LineData) :
    pcieComplete b h (some port) tag status data = pcieDone b h x status data := by
  simp only [pcieComplete, hx]

theorem port_tag_of_known : x.port = some port ∧ x.tag = tag := by
  simpa using List.find?_some hx

theorem pcieGone_endPcie (a : Block) : PcieGone h port tag (endPcie a h x) := by
  obtain ⟨hport, htag⟩ := port_tag_of_known hx
  intro y hy
  rw [endPcie, getIo_updIo] at hy
  exact hport ▸ htag ▸ (mem_dropPcie.mp hy).2

/-- A timed-out transaction ends with an error. -/
theorem pcieGone_of_timeout (data : LineData) : PcieGone h port tag (pcieComplete b h (some port) tag .timeout data) := by
  rw [pcieComplete_of_known hx, pcieDone_of_error _ _ (by decide), PcieGone, pcie_settleFlushes]
  exact pcieGone_endPcie hx _

variable (hwrite : x.write = false)
include hwrite

/-- A read of the fabric ends with a message to its requester, which takes no free value. -/
theorem pcieGone_of_read (hmem : x.mem = none) (data : LineData) :
    PcieGone h port tag (pcieComplete b h (some port) tag .ok data) ∧
      (pcieComplete b h (some port) tag .ok data).freeIx = b.freeIx := by
  have hdone : ∃ m, pcieComplete b h (some port) tag .ok data = hubPut (endPcie b h x) h m := by
    rw [pcieComplete_of_known hx]
    simp only [pcieDone, hmem, hwrite, if_true, Bool.false_eq_true, if_false]
    exact ⟨_, rfl⟩
  obtain ⟨m, hdone⟩ := hdone
  rw [hdone, PcieGone, getIo_hubPut, hubPut_freeIx]
  exact ⟨pcieGone_endPcie hx _, rfl⟩

/-- A read of a home slice brings its answer to the slice. -/
theorem pcieComplete_of_memRead {sl id : Nat} (hmem : x.mem = some (sl, some id)) (data : LineData) :
    pcieComplete b h (some port) tag .ok data = memAnswer (endPcie b h x) h sl id data 0 := by
  rw [pcieComplete_of_known hx]
  simp only [pcieDone, hmem, hwrite, if_true, Bool.false_eq_true, if_false]
  rfl

end

/-! ## Pins (R321, R322) -/

theorem freePick_snd {α : Type} (b : Block) (xs : List α) : ∃ n, (freePick b xs).2 = { b with freeIx := n } := by
  match xs with
  | [] => exact ⟨b.freeIx, rfl⟩
  | [_] => exact ⟨b.freeIx, rfl⟩
  | _ :: _ :: _ => exact ⟨b.freeIx + 1, rfl⟩

/-- The levels of a hub's pins, and the home slices. -/
def pinView (h : Hub) (b : Block) : Tab Bool × Tab Slice := ((getIo b h).pinLevel, b.slices)

theorem pinView_congr {a b : Block} {h : Hub} (hio : a.io = b.io) (hslices : a.slices = b.slices) : pinView h a = pinView h b := by
  simp only [pinView, getIo_congr hio, hslices]

theorem pinView_sendMsi (b : Block) (h : Hub) (ag part pa data : Nat) (world : Bool) :
    pinView h (sendMsi b h ag part pa data world) = pinView h b := by
  unfold sendMsi
  split
  · exact pinView_congr ((raise_io ..).trans ((fset_io ..).trans (addLost_io ..)))
      ((raise_slices ..).trans ((fset_slices ..).trans (addLost_slices ..)))
  · rfl

theorem pinView_aplicSend (b : Block) (h : Hub) (part : Nat) (world : Bool) :
    pinView h (aplicSend b h part world) = pinView h b := by
  unfold aplicSend
  dsimp only
  split
  · rfl
  · exact pinView_sendMsi ..

/-- Which partition a source gets changes no level. -/
theorem pinView_sourcePart (b : Block) (h : Hub) (n : Nat) : pinView h (sourcePart b h n).2 = pinView h b := by
  unfold sourcePart
  split
  · obtain ⟨k, hk⟩ := freePick_snd b ((List.range 4).filter (partExists b))
    dsimp only
    split
    · rw [hk]
      rfl
    · rw [hk]
      simp only [pinView, getIo_updIo, updIo_slices]
      rfl
  · rfl

theorem pinChange_of_same {b : Block} {h : Hub} {i : Fin 32} {level : Bool}
    (hl : (getIo b h).pinLevel.get false i.val = level) : pinChange b h (.pin i) level = b := if_pos hl

/-- A pin that changes is kept with its new level, whatever its source sends. -/
theorem pinView_pinChange {b : Block} {h : Hub} {i : Fin 32} {level : Bool} (hl : (getIo b h).pinLevel.get false i.val ≠ level) :
    pinView h (pinChange b h (.pin i) level) = ((getIo b h).pinLevel.set false i.val level, b.slices) := by
  let a := updIo b h fun io => { io with pinLevel := io.pinLevel.set false i.val level }
  have ha : pinView h a = ((getIo b h).pinLevel.set false i.val level, b.slices) := by
    simp only [a, pinView, getIo_updIo, updIo_slices]
  have hpart := pinView_sourcePart a h (1024 + i.val)
  simp only [pinChange, hl, if_false]
  split
  next hsource => rw [← ha, ← hpart, hsource]
  next hsource => rw [pinView_aplicSend, ← ha, ← hpart, hsource]

end Sys2Proof.Machine

namespace Sys2Proof.Safety

open Sys2Proof.Machine

/-- Settles O47: a request that leaves a calm agent is `ioLaunch_of_calm`'s, a port that falls is `dlDown_of_ready`'s, a completion
that finds its transaction ends it (`pcieGone_endPcie`). That an untranslated request is refused and another port's BISnp ignored is
log entry 98's choice. -/
theorem deviceRequestsAreServed : Obligations.DeviceRequestsAreServed := by
  intro h port r pa tag data s
  refine ⟨fun hidle => ⟨?devIdle, ?readIdle, fun op => ?snoopIdle⟩, fun hacts hown hxl => ?refused,
    fun q x w hacts hown hxl hwrite hmsi hr => ?msi,
    fun q x hacts hown hxl hwrite hcalm hl hd =>
      gives_of (exec_deviceRequest ..) (deviceRequest_of_read hacts hown hxl hwrite hcalm hl hd),
    fun q hacts hown hcalm hl hd => gives_of (exec_cxlCacheRequest ..) (cxlCache_of_read hacts hown hcalm hl hd),
    fun q w hacts hown hcalm hdec => gives_of (exec_biSnoop ..) (biSnoop_of_own hacts hown hcalm hdec),
    fun q w x hacts hown hdec hx => noEffect_of (exec_biSnoop ..) (biSnoop_of_other hacts hown hdec hx),
    fun hex hown => ?linkUp, fun habs => noEffect_of (exec_dlActive ..) (dlActive_of_absent habs),
    fun hr => noEffect_of (exec_dlDown ..) (dlDown_of_down hr), fun hr => gives_of (exec_dlDown ..) (dlDown_of_ready hr),
    fun hx => ⟨?doneUnknown, ?lateUnknown⟩, fun x hx hmem hwrite => ⟨?doneRead, ?lateRead⟩,
    fun x sl id hx hmem hwrite => ?doneMem, fun hp => ⟨?busDone, ?busLate⟩,
    fun i level => ⟨fun hl => ?pinSame, fun hl => ?pinTurns⟩⟩
  case devIdle => exact noEffect_of (exec_deviceRequest ..) (deviceRequest_of_idle hidle r)
  case readIdle => exact noEffect_of (exec_cxlCacheRequest ..) (cxlCache_of_idle hidle pa none)
  case snoopIdle => exact noEffect_of (exec_biSnoop ..) (biSnoop_of_idle hidle op pa)
  case refused =>
    obtain ⟨q, hq⟩ := Option.isSome_iff_exists.mp hown
    refine gives_of (exec_deviceRequest ..) ?_
    rw [deviceRequest_of_untranslated hacts hq hxl]
    exact ⟨refuseDevice_regs .., refuseDevice_outbox ..⟩
  case msi =>
    refine gives_of (exec_deviceRequest ..) ?_
    rw [deviceRequest_of_msi hacts hown hxl hwrite hmsi, sendMsi_of_admitted hr]
    exact ⟨rfl, rfl⟩
  case linkUp =>
    refine gives_of (exec_dlActive ..) ?_
    rw [dlActive_of_owned hex hown]
    exact ⟨portReady_setPortLink .., up_setPortLink ..⟩
  case doneUnknown => exact noEffect_of (exec_pcieCompletion ..) (pcieComplete_of_unknown hx ..)
  case lateUnknown => exact noEffect_of (exec_completionTimeout ..) (pcieComplete_of_unknown hx ..)
  case doneRead => exact gives_of (exec_pcieCompletion ..) (pcieGone_of_read hx hwrite hmem data)
  case lateRead => exact gives_of (exec_completionTimeout ..) (pcieGone_of_timeout hx 0)
  case doneMem =>
    refine gives_of (exec_pcieCompletion ..) ?_
    rw [pcieComplete_of_memRead hx hwrite hmem, memAnswer, getSlice_updSlice]
    exact ⟨pcieGone_endPcie hx _, rfl⟩
  case busDone => exact noEffect_of (exec_pcieCompletion ..) (pcieComplete_of_noPart hp ..)
  case busLate => exact noEffect_of (exec_completionTimeout ..) (pcieComplete_of_noPart hp ..)
  case pinSame => exact noEffect_of (exec_gpioPinChange ..) (pinChange_of_same hl)
  case pinTurns =>
    obtain ⟨hlevel, hslices⟩ := Prod.mk.inj (pinView_pinChange hl)
    refine gives_of (exec_gpioPinChange ..) ⟨?_, hslices⟩
    rw [hlevel, Tab.get_set_same]

end Sys2Proof.Safety
end
